-- ==== Sys2Proof/Word.lean ====
section
/-! DEFINITION. The bytes and 32-bit words of DRAM, the local bus and the drum link (spec/00 1.6). -/

namespace Sys2Proof

/-- A byte of DRAM or of a link frame. -/
abbrev Byte := BitVec 8

/-- A word is 32 bits (spec/00 1.6). -/
abbrev Word := BitVec 32

/-- A bus address is a 24-bit byte address (spec/00 1.6). -/
abbrev BusAddr := BitVec 24

end Sys2Proof
end

