-- ==== Sys2Proof/Machine/Frames.lean ====
section
/-! DEFINITION. The frames of the drum link: their layout, their CRC, and what the lane makes of received bytes
(spec/11 11.3, R81, R187). -/

namespace Sys2Proof.Machine

/-- A frame of the drum link, field by field as it lies on the lane (spec/05 5.1, spec/11 11.3). -/
inductive Frame where
  /-- ROW, direction PLAY. -/
  | playRow (seq : BitVec 3) (segment : BitVec 24) (row : BitVec 5) (void : Bool) (mask : BitVec 16)
      (words : List Word)
  /-- ROW, direction WRITE: the void flag is clear and the mask absent. -/
  | writeRow (seq : BitVec 3) (segment : BitVec 24) (row : BitVec 5) (words : List Word)
  /-- GRANT: next-expected seq and credits. -/
  | grant (next : BitVec 3) (credits : BitVec 6)
  /-- MISSING: one flag per seq value. -/
  | missing (flags : BitVec 8)
  /-- DUE. -/
  | due (segment : BitVec 24)
  /-- OMIT. -/
  | omitSegment (segment : BitVec 24)
  /-- OPEN. -/
  | openLink
  /-- OPENED. -/
  | opened
  /-- CLEAR. -/
  | clearLink
  deriving DecidableEq, Repr

/-- One bit shifted into the CRC register with the generator x^16 + x^15 + x^2 + 1 (R187, log 19). -/
def crcBit (r : BitVec 16) (bit : Bool) : BitVec 16 :=
  if r.msb == bit then r <<< 1 else (r <<< 1) ^^^ 0x8005#16

/-- One byte, most significant bit first (R81). -/
def crcByte (r : BitVec 16) (b : Byte) : BitVec 16 :=
  [7, 6, 5, 4, 3, 2, 1, 0].foldl (fun r i => crcBit r (b.getLsbD i)) r

/-- The CRC of a byte sequence; the register starts at all ones (R81, R187). -/
def crc16 (bs : List Byte) : BitVec 16 :=
  bs.foldl crcByte 0xFFFF#16

/-- A 16-bit field, most significant byte first. -/
def bytes16 (x : BitVec 16) : List Byte :=
  [x.extractLsb' 8 8, x.extractLsb' 0 8]

/-- A 24-bit field, most significant byte first. -/
def bytes24 (x : BitVec 24) : List Byte :=
  [x.extractLsb' 16 8, x.extractLsb' 8 8, x.extractLsb' 0 8]

/-- A word, most significant byte first. -/
def bytes32 (x : Word) : List Byte :=
  [x.extractLsb' 24 8, x.extractLsb' 16 8, x.extractLsb' 8 8, x.extractLsb' 0 8]

/-- The words of a byte sequence, four bytes each; what is left over is ignored. -/
def wordsOfBytes : List Byte → List Word
  | a :: b :: c :: d :: rest => (a ++ b ++ c ++ d) :: wordsOfBytes rest
  | _ => []

/-- The bytes of a frame before its CRC (the table of spec/11 11.3). -/
def Frame.body : Frame → List Byte
  | .playRow seq t row void mask ws =>
    (1#4 ++ seq ++ 0#1) :: bytes24 t ++ (row ++ BitVec.ofBool void ++ 0#2) :: bytes16 mask ++ ws.flatMap bytes32
  | .writeRow seq t row ws => (1#4 ++ seq ++ 1#1) :: bytes24 t ++ (row ++ 0#3) :: ws.flatMap bytes32
  | .grant next credits => [2#4 ++ next ++ 0#1, 0#2 ++ credits]
  | .missing flags => [0x30#8, flags]
  | .due t => 0x40#8 :: bytes24 t
  | .omitSegment t => 0x50#8 :: bytes24 t
  | .openLink => [0x60#8]
  | .opened => [0x70#8]
  | .clearLink => [0x80#8]

/-- A frame as it leaves: its body, then the CRC over the body, high byte first (R187). -/
def Frame.bytes (f : Frame) : List Byte :=
  f.body ++ bytes16 (crc16 f.body)

/-- What the lane makes of a received byte sequence. -/
inductive Reception where
  /-- dropped for its CRC, or for a length its kind does not give (R81, R187) -/
  | bad
  /-- a good CRC, and a kind field that names no kind (R81, R187) -/
  | unknownKind
  /-- a received frame -/
  | frame (f : Frame)
  deriving DecidableEq, Repr

/-- The frame kind, bits 7..4 of the first byte. -/
def kindField (b : Byte) : Nat := (b.extractLsb' 4 4).toNat

/-- The total length a first byte gives: by kind and, for ROW, direction (R187); none for an unknown kind. -/
def frameTotal (b : Byte) : Option Nat :=
  match kindField b with
  | 1 => some (if b.getLsbD 0 then 71 else 73)
  | 2 => some 4
  | 3 => some 4
  | 4 => some 6
  | 5 => some 6
  | 6 => some 3
  | 7 => some 3
  | 8 => some 3
  | _ => none

/-- The last two bytes are the CRC of the bytes before them. -/
def crcGood (bs : List Byte) : Bool :=
  bytes16 (crc16 (bs.take (bs.length - 2))) == bs.drop (bs.length - 2)

/-- The fields of a frame of known kind and of the length its kind gives. -/
def parseBody (bs : List Byte) : Frame :=
  let byte (i : Nat) : Byte := bs.getD i 0
  let seq := (byte 0).extractLsb' 1 3
  let segment : BitVec 24 := byte 1 ++ byte 2 ++ byte 3
  let row := (byte 4).extractLsb' 3 5
  match kindField (byte 0) with
  | 1 =>
    if (byte 0).getLsbD 0 then .writeRow seq segment row (wordsOfBytes (bs.drop 5))
    else .playRow seq segment row ((byte 4).getLsbD 2) (byte 5 ++ byte 6) (wordsOfBytes (bs.drop 7))
  | 2 => .grant seq ((byte 1).extractLsb' 0 6)
  | 3 => .missing (byte 1)
  | 4 => .due segment
  | 5 => .omitSegment segment
  | 6 => .openLink
  | 7 => .opened
  | _ => .clearLink

/-- What the lane makes of a delimited byte sequence (R81, R187). A sequence of unknown kind is tested by its CRC
alone and has at least its kind byte and its CRC (log 18). -/
def receive (bs : List Byte) : Reception :=
  match bs with
  | [] => .bad
  | b :: _ =>
    match frameTotal b with
    | some n =>
      if bs.length = n ∧ crcGood bs = true then .frame (parseBody (bs.take (n - 2))) else .bad
    | none => if 3 ≤ bs.length ∧ crcGood bs = true then .unknownKind else .bad

end Sys2Proof.Machine
end

