-- ==== Sys2Proof/Syntax.lean ====
section
/-! DEFINITION. The commands of the part: one constructor per row of spec/opcode_table.json.
The table gives no operands; the ones here say which of the events a row covers is meant (log 32). -/

namespace Sys2Proof

/-- A command: one whole step of the part (spec/95). -/
inductive Instr where
  /-- PIN_RESET (R19). -/
  | pinReset
  /-- WRITE_ACCEPT (R1, R11): a write burst the bus presents; its length is the number of its data words. -/
  | writeAccept (initiator : Fin 8) (addr : BusAddr) (data : List Word)
  /-- READ_ACCEPT (R1, R12): a read the bus presents, its length in words, and the tag its initiator chose. -/
  | readAccept (initiator : Fin 8) (tag : Nat) (addr : BusAddr) (len : Nat)
  /-- WRITE_GRANT (R4). -/
  | writeGrant
  /-- AUDIO_VIEW_WRITE (R7). -/
  | audioViewWrite
  /-- MODE_MAP_WRITE (R25). -/
  | modeMapWrite
  /-- MODE_SIGNAL_WRITE (R23). -/
  | modeSignalWrite
  /-- MODE_LINK_WRITE (R23). -/
  | modeLinkWrite
  /-- MODE_EDIT_WRITE (R23). -/
  | modeEditWrite
  /-- PLAY (R106). -/
  | play
  /-- RECORD (R106). -/
  | record
  /-- EDIT (R138). -/
  | edit
  /-- REVERT (R167). -/
  | revert
  /-- STOP (R115). -/
  | stop
  /-- CAPTURE (R153). -/
  | capture
  /-- DROPCLIP (R157). -/
  | dropClip
  /-- MARK (R150). -/
  | mark
  /-- LINKCLEAR (R87). -/
  | linkClear
  /-- BADREQ (R29). -/
  | badReq
  /-- CONSUME_COUNT_WRITE (R33). -/
  | consumeCountWrite
  /-- INPUT_STATUS_WRITE (R34). -/
  | inputStatusWrite
  /-- NOTICE_READ_INDEX_WRITE (R38). -/
  | noticeReadIndexWrite
  /-- READ_GRANT (R4) of the read in a tracker entry. -/
  | readGrant (entry : Fin 8)
  /-- OUTPUT_STATUS_READ (R182) of the read in a tracker entry. -/
  | outputStatusRead (entry : Fin 8)
  /-- AUDIO_VIEW_FETCH (R9) of the read in a tracker entry. -/
  | audioViewFetch (entry : Fin 8)
  /-- NEIGHBOUR_FETCH (R125) of an evaluation. -/
  | neighbourFetch (evaluation : Nat)
  /-- READ_LATE (R13) of the read in a tracker entry. -/
  | readLate (entry : Fin 8)
  /-- STAGING_WRITE (R51). -/
  | stagingWrite
  /-- ROW_FETCH (R90). -/
  | rowFetch
  /-- CE_TAKE_DECODE_ITEM (R76): the item of a slot. -/
  | ceTakeDecodeItem (slot : Fin 128)
  /-- CE_TAKE_CODE_ITEM (R65): the item of a slot. -/
  | ceTakeCodeItem (slot : Fin 128)
  /-- DECODE_BLOCK_READ (R71). -/
  | decodeBlockRead
  /-- DECODE_BLOCK_WRITE (R76). -/
  | decodeBlockWrite
  /-- DECODE_FINAL_WRITE (R54). -/
  | decodeFinalWrite
  /-- CODE_FLAG_MAP_READ (R65). -/
  | codeFlagMapRead
  /-- CODE_BLOCK_READ (R66). -/
  | codeBlockRead
  /-- CODE_BLOCK_WRITE (R67). -/
  | codeBlockWrite
  /-- CODE_SUMMARY_WRITE (R58). -/
  | codeSummaryWrite
  /-- CAPTURE_BLOCK_READ (R154). -/
  | captureBlockRead
  /-- CAPTURE_BLOCK_WRITE (R154). -/
  | captureBlockWrite
  /-- SAVE_TAKE (R163). -/
  | saveTake
  /-- SAVE_BLOCK_READ (R163). -/
  | saveBlockRead
  /-- SAVE_BLOCK_WRITE (R163). -/
  | saveBlockWrite
  /-- SAVE_CLOSING_WRITE (R163). -/
  | saveClosingWrite
  /-- LOAD_BLOCK_READ (R169) for a slot. -/
  | loadBlockRead (slot : Fin 128)
  /-- LOAD_BLOCK_WRITE (R169) for a slot. -/
  | loadBlockWrite (slot : Fin 128)
  /-- STACK_MIRROR_WRITE (R161). -/
  | stackMirrorWrite
  /-- RESULT_WRITE (R32). -/
  | resultWrite
  /-- STATUS_WRITE (R35). -/
  | statusWrite
  /-- NOTICE_WRITE (R37). -/
  | noticeWrite
  /-- OPENED_RECEIVED (R85): the bytes the lane delimited. -/
  | openedReceived (frame : List Byte)
  /-- CLEAR_RECEIVED (R86). -/
  | clearReceived (frame : List Byte)
  /-- PLAY_ROW_RECEIVED (R96). -/
  | playRowReceived (frame : List Byte)
  /-- GRANT_RECEIVED (R91). -/
  | grantReceived (frame : List Byte)
  /-- MISSING_RECEIVED (R92). -/
  | missingReceived (frame : List Byte)
  /-- DUE_RECEIVED (R110). -/
  | dueReceived (frame : List Byte)
  /-- BAD_CRC_FRAME (R81). -/
  | badCrcFrame (frame : List Byte)
  /-- DROPPED_FRAME (R83). -/
  | droppedFrame (frame : List Byte)
  /-- FRAME_LEAVES (R82): `second` lets the later of two frames handed together leave first. -/
  | frameLeaves (second : Bool)
  /-- OPEN_RETRY_EXPIRY (R84). -/
  | openRetryExpiry
  /-- ACK_TIMER_EXPIRY (R93). -/
  | ackTimerExpiry
  /-- CREDIT_TIMER_EXPIRY (R99). -/
  | creditTimerExpiry
  /-- DRAIN_TIMER_EXPIRY (R118). -/
  | drainTimerExpiry
  deriving DecidableEq, Repr

end Sys2Proof
end

