-- ==== Sys2Proof/WellFormed.lean ====
section
/-! DEFINITION. When a command is one its row can stand for, whatever the state. -/

namespace Sys2Proof

/-- A burst has at least one word; a received-frame command carries bytes of its row's kind (R1, R81, R83). -/
def Instr.wellFormed : Instr → Bool
  | .writeAccept _ _ data => data.length != 0
  | .readAccept _ _ _ len => len != 0
  | .openedReceived bs => Machine.receive bs == .frame .opened
  | .clearReceived bs => Machine.receive bs == .frame .clearLink
  | .playRowReceived bs =>
    match Machine.receive bs with
    | .frame (.playRow ..) => true
    | _ => false
  | .grantReceived bs =>
    match Machine.receive bs with
    | .frame (.grant ..) => true
    | _ => false
  | .missingReceived bs =>
    match Machine.receive bs with
    | .frame (.missing _) => true
    | _ => false
  | .dueReceived bs =>
    match Machine.receive bs with
    | .frame (.due _) => true
    | _ => false
  | .badCrcFrame bs => Machine.receive bs == .bad
  | .droppedFrame bs => Machine.receive bs != .bad
  | _ => true

end Sys2Proof
end

