-- ==== Sys2Proof/Decode.lean ====
section
/-! DEFINITION. The decoder over the table's bits. No row of spec/opcode_table.json gives bits: the commands are
events of the part, so no word spells one (log 32). -/

namespace Sys2Proof

/-- The command a word spells by the table's bits: none, for every word (log 32). -/
def decodeTableWord (_nbits _w : Nat) : Option Instr := none

end Sys2Proof
end

