-- ==== Sys2Proof/Config.lean ====
section
/-! DEFINITION. What is fixed for the part: its sizes, and the values the model names where the manual gives none. -/

namespace Sys2Proof.Config

/-- What a byte of DRAM reads as before anything is written to it (DESIGN CHOICE, log 1). -/
def unlistedByte : Byte := 0

/-- The field modulus 2^24 - 3 (spec/00 1.7). -/
def fieldModulus : Nat := 16777213

/-- The offset between a sample and its code value, and the greatest legal sample (spec/00 1.7). -/
def sampleOffset : Nat := 8388606

/-- The highest tape segment number (spec/00 1.9). -/
def maxSegment : Nat := 16777212

/-- Entries of the posted-write queue (R1, R11). -/
def postedEntries : Nat := 16

/-- Every counter of the status block stops here (R36). -/
def counterMax : Nat := 4294967295

/-- The pass-over count stops here (R17). -/
def passOverMax : Nat := 8

/-- Entries of the notice ring (R37). -/
def ringEntries : Nat := 64

/-- PLAY credits in all, and the ceiling of the write credits (R91, R100). -/
def creditMax : Nat := 32

/-- WRITE rows that may be retained (R95). -/
def retentionMax : Nat := 7

/-- Released credits at which a GRANT is handed (R98, R99). -/
def grantThreshold : Nat := 8

/-- Words of the undo stack (R161). -/
def stackWords : Nat := 1024

/-- The clip count of a slot stops here, the top of its range (R45, log 42). -/
def clipCountMax : Nat := 384

end Sys2Proof.Config
end

