-- ==== Sys2Proof/Machine/State.lean ====
section
/-! DEFINITION. The state of the part, block by block, as plain data, and the state after pin reset.
A field the model adds for itself is marked "the model's own". -/

namespace Sys2Proof.Machine

/-! ## Names the manual gives to states and codes -/

/-- Copy grades, FREE < ONE < NONE (spec/00 1.10). -/
inductive Grade where
  | free
  | one
  | none
  deriving DecidableEq, Repr

/-- The incoming grade: a grade or UNKNOWN (R34). -/
inductive Incoming where
  | known (g : Grade)
  | unknown
  deriving DecidableEq, Repr

/-- The source of an audio write (R173). -/
inductive Source where
  | analog
  | digital
  deriving DecidableEq, Repr

/-- The source class of a copy word (R40). -/
inductive SourceClass where
  | analog
  | digital
  | tape
  | restore
  deriving DecidableEq, Repr

/-- Part state (R26). -/
inductive PartState where
  | unconfigured
  | ready
  deriving DecidableEq, Repr

/-- Run state (R105). -/
inductive RunState where
  | idle
  | active
  | draining
  deriving DecidableEq, Repr

/-- Run kind (R105). -/
inductive RunKind where
  | play
  | record
  | edit
  | revert
  deriving DecidableEq, Repr

/-- Writer kind of a coded segment (R40). -/
inductive WriterKind where
  | record
  | edit
  | revert
  deriving DecidableEq, Repr

/-- End cause of a run (R105). -/
inductive EndCause where
  | none
  | complete
  | stopped
  | aborted
  deriving DecidableEq, Repr

/-- Link state (spec/05 5.2). -/
inductive LinkState where
  | down
  | opening
  | up
  | failed
  deriving DecidableEq, Repr

/-- Play state of a slot (spec/03 3.3). -/
inductive PlayState where
  | empty
  | arriving
  | checking
  | ready
  deriving DecidableEq, Repr

/-- Write state of a slot (spec/03 3.4). -/
inductive WriteState where
  | idle
  | filling
  | closed
  | coding
  | queued
  | sending
  | done
  deriving DecidableEq, Repr

/-- State of a clip (R152). -/
inductive ClipState where
  | empty
  | filling
  | ready
  | spent
  deriving DecidableEq, Repr

/-- The flag of a decoded word (spec/04 4.3). -/
inductive WordFlag where
  | clean
  | fixed
  | unchecked
  | lost
  deriving DecidableEq, Repr

/-- Request kinds (spec/11 11.2). -/
inductive RequestKind where
  | play
  | record
  | edit
  | revert
  | stop
  | capture
  | dropClip
  | mark
  | linkClear
  deriving DecidableEq, Repr

/-- Outcomes of a request (R32). -/
inductive ReqOutcome where
  | pending
  | done
  | busy
  | badState
  | range
  | noLink
  | copy
  | noUndo
  | badReq
  | aborted
  deriving DecidableEq, Repr

/-- The counters of the status block, in the order of the table of R36. -/
inductive Counter where
  | rowsReceived
  | badCrcRows
  | resends
  | fixedWords
  | lostWords
  | uncheckedWords
  | concealedReads
  | heldReads
  | readLate
  | clippedSamples
  | underrun
  | overrun
  | stray
  | protect
  | refusedSegments
  | ignored
  deriving DecidableEq, Repr

/-! ## Local bus port (chapter 1) -/

/-- The place of an audio-view word: slot, pair and channel (R6). -/
structure ViewPlace where
  slot : Fin 128
  pair : Nat
  channel : Nat
  deriving DecidableEq, Repr

/-- The range a request was given at acceptance (R3); an audio-view one with the place of its first word (R11). -/
inductive Range where
  | plain
  | controlPage
  | privateRegion
  | audioView (place : ViewPlace)
  deriving DecidableEq, Repr

/-- An entry of the posted-write queue (R11). `id` is the model's own (log 7). -/
structure PostedWrite where
  id : Nat
  initiator : Fin 8
  addr : Nat
  data : List Word
  range : Range
  deriving DecidableEq, Repr

/-- A write that a WAITING read must follow (R14): a posted write, or a write CPM has requested. -/
inductive Wait where
  | posted (id : Nat)
  | cpm (id : Nat)
  deriving DecidableEq, Repr

/-- The states of a read in the tracker (R12); HELD is split by what the read is held on (R13). -/
inductive ReadState where
  | waiting
  | offered
  | concealing
  | heldOnSlot
  | heldOnNeighbour
  deriving DecidableEq, Repr

/-- The output segment record (R10). -/
inductive OutRecord where
  | none
  | unrecovered
  | grade (g : Grade)
  deriving DecidableEq, Repr

/-- An entry of the read tracker (R12). The hold timer holds the microseconds left (log 6). -/
structure Read where
  initiator : Fin 8
  tag : Nat
  addr : Nat
  len : Nat
  range : Range
  state : ReadState
  waits : List Wait
  values : List (Option Word)
  holdTimer : Option Nat
  late : Bool
  /-- READ_LATE has advanced for this read (R13: at most once per read). -/
  lateCounted : Bool
  /-- What the completion of the read puts in the output segment record (R10). -/
  material : OutRecord
  deriving DecidableEq, Repr

/-- What the port returns to an initiator (R2, R12). -/
inductive Response where
  | data (initiator : Fin 8) (tag : Nat) (words : List Word)
  | fault (initiator : Fin 8) (tag : Nat)
  deriving DecidableEq, Repr

/-- LBP: the local bus port. -/
structure Lbp where
  posted : List PostedWrite
  /-- the model's own: the id of the next entry -/
  nextWrite : Nat
  reads : Vector (Option Read) 8
  strayNoticed : Bool
  outRecord : OutRecord
  /-- the model's own: what the port has returned, oldest first (log 11) -/
  responses : List Response
  deriving DecidableEq, Repr

/-! ## Memory port (chapter 1) -/

/-- What one result write carries (R32). -/
structure Result where
  tag : Nat
  outcome : ReqOutcome
  detail : Nat
  deriving DecidableEq, Repr

/-- A request offered to MP (R16). What it reads or writes is in the state of the block that offered it,
unless it stands here. `id` names a write of CPM (R14). -/
inductive Req where
  /-- class 1: the neighbour fetch of an evaluation -/
  | neighbour (evaluation : Nat)
  /-- class 2: the staging write of the FIFO head -/
  | staging
  /-- class 3: the fetch of a WRITE row -/
  | rowFetch
  /-- class 4: the head of the posted-write queue -/
  | postedWrite
  /-- class 4: the read in a tracker entry -/
  | read (entry : Fin 8)
  /-- class 5: the request of CE's item in progress -/
  | codeEngine
  /-- class 6: the request of the capture in progress -/
  | capture
  /-- class 6: the request of the save in progress -/
  | save
  /-- class 6: the request of the load of a slot -/
  | load (slot : Fin 128)
  /-- class 6: a write to the stack mirror, word by word -/
  | mirror (writes : List (Nat × Word))
  /-- class 7: a result write; `closes` names the request it is the final result of -/
  | result (id : Nat) (r : Result) (closes : Option Nat)
  /-- class 7: the status request -/
  | status (id : Nat)
  /-- class 7: a notice entry and the write index after it -/
  | notice (id : Nat) (index : Nat) (word0 word1 : Word)
  deriving DecidableEq, Repr

/-- A request waiting in its class; `stamp` is the event it was offered at (the model's own, log 7). -/
structure Offer where
  req : Req
  stamp : Nat
  deriving DecidableEq, Repr

/-- MP: the memory port. Class k of the manual is index k - 1. -/
structure Mp where
  queues : Vector (List Offer) 7
  passOver : Vector Nat 7
  deriving DecidableEq, Repr

/-! ## Control page monitor (chapter 2) -/

/-- MODE_MAP (spec/11 11.2). -/
structure ModeMap where
  audioBase : Nat
  privateBase : Nat
  digitalIn : Nat
  digitalOut : Nat
  deriving DecidableEq, Repr

/-- MODE_SIGNAL (spec/11 11.2). -/
structure ModeSignal where
  gap : Nat
  hold : Nat
  fade : Nat
  policy : Grade
  rate : Nat
  holdLimit : Nat
  deriving DecidableEq, Repr

/-- MODE_LINK (spec/11 11.2). -/
structure ModeLink where
  ackTimeout : Nat
  creditInterval : Nat
  openRetry : Nat
  retryLimit : Nat
  drainTimeout : Nat
  deriving DecidableEq, Repr

/-- MODE_EDIT (spec/11 11.2). -/
structure ModeEdit where
  defaultF : Nat
  undo : Bool
  deriving DecidableEq, Repr

/-- The marks of the written-set (R26). -/
structure WrittenSet where
  map : Bool
  signal : Bool
  link : Bool
  edit : Bool
  deriving DecidableEq, Repr

/-- The pending request (R29). `reported`: its final result has been offered (R32). -/
structure PendingRequest where
  id : Nat
  kind : Option RequestKind
  tag : Nat
  reported : Bool
  deriving DecidableEq, Repr

/-- CPM: the control page monitor. -/
structure Cpm where
  partState : PartState
  writtenSet : WrittenSet
  /-- shadows of the four mode cells and the request cell, 8 words each in page order (R21) -/
  cells : Vector Word 40
  map : ModeMap
  signal : ModeSignal
  link : ModeLink
  edit : ModeEdit
  pendingMap : Option ModeMap
  pendingSignal : Option ModeSignal
  pendingLink : Option ModeLink
  pendingEdit : Option ModeEdit
  request : Option PendingRequest
  consumeCount : Nat
  readyPrefix : Nat
  /-- positions that reached READY beyond the ready prefix (R33) -/
  readyAhead : List Nat
  incoming : Incoming
  counters : Vector Nat 16
  overflow : Nat
  writeIndex : Nat
  publishedIndex : Nat
  readIndex : Nat
  notice : Bool
  /-- the status values as the blocks last reported them (R35) -/
  statusHeld : Vector Word 24
  /-- the dirty set: numbers of status words (R35) -/
  dirty : List Nat
  /-- the status request offered, by its id (R35) -/
  statusOffered : Option Nat
  /-- the notice write index cell is written 0 with the status block (R26) -/
  indexDue : Bool
  /-- the model's own: ids of the next write and of the next request -/
  nextWrite : Nat
  nextRequest : Nat
  deriving DecidableEq, Repr

/-! ## Slot table (chapter 3) -/

/-- The record of one row of a slot (R45). -/
inductive RowRecord where
  | notIn
  | arrived (void : Bool) (mask : BitVec 16)
  | writtenOff
  deriving DecidableEq, Repr

/-- The recovered copy word (R44). -/
inductive Recovered where
  /-- before decode -/
  | absent
  /-- no block qualified: grade NONE, marker 0, rate unknown -/
  | unrecovered
  | recovered (grade : Grade) (source : SourceClass) (refused baked : Bool) (marker rate : Nat) (writer : WriterKind)
  deriving DecidableEq, Repr

/-- Where a write side's new samples come from (R45). -/
inductive Material where
  | live
  | clip (k : Fin 4)
  | image (u : Fin 256)
  | fill
  deriving DecidableEq, Repr

/-- The effect of the MARKs taken on one marker bit (R57). -/
inductive BitEffect where
  | keep
  | set
  | clear
  | invert
  deriving DecidableEq, Repr

/-- The undo save of a slot (R45). -/
inductive UndoSave where
  | none
  | inProgress
  | ended
  deriving DecidableEq, Repr

/-- A slot record (R45). `nextPosition` is the position of R48 that the slot is claimed for next in this run. -/
structure Slot where
  claimed : Bool
  segment : Nat
  position : Nat
  serial : Nat
  play : PlayState
  rows : Vector RowRecord 30
  overrun : Option (Nat × BitVec 30)
  recovered : Recovered
  consumed : Bool
  pins : Nat
  write : WriteState
  /-- bit 2n + c: channel c of pair n is written -/
  written : BitVec 384
  material : Material
  worstGrade : Option Grade
  worstSource : Option Source
  analogWritten : Bool
  /-- none: awaiting -/
  markerBase : Option Nat
  markerEffect : List BitEffect
  rowsAcked : BitVec 30
  clipCount : Nat
  underrunCount : Nat
  undoSave : UndoSave
  nextPosition : Nat
  deriving DecidableEq, Repr

/-! ## Code engine (chapter 4) -/

/-- The punch parameters an EDIT code item carries (R57): Pin, Pout and the crossfade exponent. -/
structure Punch where
  pin : Nat
  pout : Nat
  f : Nat
  deriving DecidableEq, Repr

/-- An item of the work queue (R77): a decode item with its row records (R53), or a code item with its material,
writer kind and, for an EDIT, punch parameters, which say the needed pairs (R57). -/
inductive CeItem where
  | decode (slot : Fin 128) (segment serial : Nat) (rows : Vector RowRecord 30)
  | code (slot : Fin 128) (segment serial : Nat) (material : Material) (writer : WriterKind) (punch : Option Punch)
  deriving DecidableEq, Repr

/-- A queued item; items queued at one event have one stamp (R77, log 7). -/
structure CeEntry where
  item : CeItem
  stamp : Nat
  deriving DecidableEq, Repr

/-- The aux positions 24 to 27 of a decoded block, and whether none of them is LOST (R43). -/
structure AuxWords where
  segment : Nat
  format : Nat
  copy : Nat
  marker : Nat
  whole : Bool
  deriving DecidableEq, Repr

/-- The request a decode item has offered (R76). -/
inductive DecodeStage where
  | blockRead
  | blockWrite (words : List Nat)
  | finalWrite
  deriving DecidableEq, Repr

/-- A decode item in progress (R76). -/
structure DecodeJob where
  slot : Fin 128
  segment : Nat
  serial : Nat
  rows : Vector RowRecord 30
  base : Nat
  block : Nat
  stage : DecodeStage
  flags : List WordFlag
  aux : List AuxWords
  fixedCount : Nat
  lostCount : Nat
  recovered : Recovered
  void : Bool
  deriving DecidableEq, Repr

/-- The request a code item has offered, or its wait for CU (R65 to R67). -/
inductive CodeStage where
  | flagMapRead
  | blockRead
  | concealing
  | blockWrite (words : List Nat)
  | summaryWrite
  deriving DecidableEq, Repr

/-- A code item in progress, with the values that stay fixed from its take (R65). -/
structure CodeJob where
  slot : Fin 128
  segment : Nat
  serial : Nat
  material : Material
  writer : WriterKind
  punch : Option Punch
  written : BitVec 384
  rate : Nat
  marker : Nat
  clipCount : Nat
  underrunCount : Nat
  base : Nat
  copyWord : Nat
  /-- the flags of the old words, read at the start of an EDIT's coding -/
  flags : List WordFlag
  block : Nat
  stage : CodeStage
  /-- old samples of the block; none while CU evaluates the word -/
  old : List (Option Int)
  /-- new samples of the block; none where the new value is the old one (R144) -/
  new : List (Option Int)
  void : Bool
  deriving DecidableEq, Repr

/-- The item in progress (R78). -/
inductive CeJob where
  | decode (j : DecodeJob)
  | code (j : CodeJob)
  deriving DecidableEq, Repr

/-- CE: the code engine. -/
structure Ce where
  queue : List CeEntry
  job : Option CeJob
  deriving DecidableEq, Repr

/-! ## Concealment unit (chapter 7) -/

/-- Who asked for an evaluation (R123), with the place of the word there. -/
inductive Asker where
  | read (entry : Fin 8) (index : Nat)
  | codeEngine (index : Nat)
  | capture (id : Nat) (index : Nat)
  | save (index : Nat)
  deriving DecidableEq, Repr

/-- The stage of an evaluation (R123); an ended one leaves the list. -/
inductive EvalStage where
  | lookBehind
  | lookAhead
  | held
  deriving DecidableEq, Repr

/-- The block a neighbour fetch covers, and the private base at its offer (R125). -/
structure BlockFetch where
  segment : Nat
  block : Nat
  base : Nat
  deriving DecidableEq, Repr

/-- An evaluation in progress (R123). `distance` is the distance the scan has reached. -/
structure Evaluation where
  id : Nat
  asker : Asker
  index : Nat
  channel : Nat
  gap : Nat
  hold : Nat
  fade : Nat
  stage : EvalStage
  distance : Nat
  behind : Option (Int × Nat)
  fetch : Option BlockFetch
  pendingSegment : Option Nat
  deriving DecidableEq, Repr

/-- CU: the concealment unit. -/
structure Cu where
  evals : List Evaluation
  /-- the model's own: the id of the next evaluation -/
  nextId : Nat
  deriving DecidableEq, Repr

/-! ## Drum link controller (chapter 5) -/

/-- A retention entry (spec/05 5.3); without words it is abandoned. -/
structure Retained where
  seq : BitVec 3
  segment : Nat
  row : Nat
  slot : Fin 128
  serial : Nat
  words : Option (List Word)
  deriving DecidableEq, Repr

/-- A staging entry (spec/05 5.4). -/
structure StagedRow where
  segment : Nat
  row : Nat
  void : Bool
  mask : BitVec 16
  words : List Word
  deriving DecidableEq, Repr

/-- The fetch offered in class 3 (R90). -/
structure RowFetch where
  slot : Fin 128
  segment : Nat
  serial : Nat
  row : Nat
  base : Nat
  deriving DecidableEq, Repr

/-- A frame waiting on the lane (R82). A GRANT takes its fields when it starts to leave. -/
inductive LaneFrame where
  | grant
  | missing (flags : BitVec 8)
  | row (seq : BitVec 3) (segment : Nat) (row : Nat) (words : List Word)
  | openLink
  | omitSegment (segment : Nat)
  | clearLink
  deriving DecidableEq, Repr

/-- A waiting frame; frames handed at one event have one stamp (R82, log 35). -/
structure LaneEntry where
  frame : LaneFrame
  stamp : Nat
  deriving DecidableEq, Repr

/-- DLC: the drum link controller. Timers hold the microseconds left (log 6). -/
structure Dlc where
  linkState : LinkState
  sendSeq : BitVec 3
  recvSeq : BitVec 3
  writeCredits : Nat
  retention : List Retained
  retryCount : Nat
  /-- flag of seq i in bit i -/
  recvWindow : BitVec 8
  outstanding : Nat
  released : Nat
  staging : List StagedRow
  cursorPos : Nat
  cursorRow : Nat
  /-- the give-up of R94 has stopped the cursor -/
  cursorStopped : Bool
  /-- segments an OMIT was handed for in this run (R89, R102) -/
  omits : List Nat
  fetch : Option RowFetch
  lane : List LaneEntry
  /-- the model's own: the frames that have left, as bytes, oldest first (log 11) -/
  sent : List (List Byte)
  ackTimer : Option Nat
  creditTimer : Option Nat
  openTimer : Option Nat
  deriving DecidableEq, Repr

/-! ## Run controller (chapter 6) -/

/-- The kind parameters of a run (R105): those of an EDIT (R139) or of a REVERT (R167). -/
inductive RunParams where
  | none
  | edit (punch : Punch) (clip : Option (Fin 4)) (firstSpan lastSpan spanCount : Nat)
  | revert (tag place count : Nat)
  deriving DecidableEq, Repr

/-- The run record (R105), with the settled count of an EDIT or REVERT run (R139, R167). -/
structure RunRecord where
  kind : RunKind
  tag : Nat
  t0 : Nat
  backward : Bool
  length : Nat
  rate : Nat
  writer : Option WriterKind
  params : RunParams
  windowBase : Nat
  readyCount : Nat
  doneCount : Nat
  settledCount : Nat
  dueHorizon : Option Nat
  omitCount : Nat
  drainTimer : Option Nat
  endCause : EndCause
  deriving DecidableEq, Repr

/-- RC: the run controller. -/
structure Rc where
  state : RunState
  run : Option RunRecord
  deriving DecidableEq, Repr

/-! ## Edit and clip unit (chapters 8 and 9) -/

/-- A clip record (R152). -/
structure Clip where
  state : ClipState
  length : Nat
  grade : Option Grade
  singleUse : Bool
  inUse : Bool
  deriving DecidableEq, Repr

/-- The request a copy of a block has offered, or its wait for CU (R154, R163). -/
inductive CopyStage where
  | reading
  | concealing
  | writing
  | closing
  deriving DecidableEq, Repr

/-- The capture in progress (R154): its request's clip and segments, the segment and block being copied. -/
structure Capture where
  id : Nat
  clip : Fin 4
  first : Nat
  count : Nat
  grade : Grade
  base : Nat
  segment : Nat
  block : Nat
  stage : CopyStage
  values : List (Option Nat)
  deriving DecidableEq, Repr

/-- An entry of the undo stack (spec/09 9.1). -/
inductive StackEntry where
  | seg (segment : Nat) (image : Fin 256)
  | run (tag first count : Nat) (partialMark : Bool)
  deriving DecidableEq, Repr

/-- An undo image record (R161). -/
structure ImageRecord where
  used : Bool
  segment : Nat
  grade : Grade
  unrecovered : Bool
  baked : Bool
  marker : Nat
  deriving DecidableEq, Repr

/-- A save of the save queue (R161, R162). -/
structure Save where
  slot : Fin 128
  segment : Nat
  serial : Nat
  image : Fin 256
  deriving DecidableEq, Repr

/-- The save in progress (R163). -/
structure SaveJob where
  save : Save
  base : Nat
  block : Nat
  stage : CopyStage
  values : List (Option Nat)
  /-- a word of the image was concealed -/
  concealed : Bool
  void : Bool
  deriving DecidableEq, Repr

/-- A load in progress (R169); without values its block read is offered, with them its write. -/
structure Load where
  slot : Fin 128
  serial : Nat
  image : Fin 256
  base : Nat
  block : Nat
  values : Option (List Word)
  deriving DecidableEq, Repr

/-- ECU: the edit and clip unit. -/
structure Ecu where
  clips : Vector Clip 4
  capture : Option Capture
  /-- the model's own: the id of the next capture -/
  nextCapture : Nat
  /-- the entries of the stack copy, bottom to top, and the ring index of the bottom word (R161) -/
  stack : List StackEntry
  bottom : Nat
  images : Vector ImageRecord 256
  saves : List Save
  saving : Option SaveJob
  segCount : Nat
  partialMark : Bool
  stoppedMark : Bool
  loads : List Load
  deriving DecidableEq, Repr

/-! ## The whole machine -/

/-- The ten blocks of the part (CCU keeps no state, R185). `event` counts the commands that have taken effect, so
that what one event offers together can be told (log 7). -/
structure Chip where
  event : Nat
  lbp : Lbp
  mp : Mp
  cpm : Cpm
  slots : Vector Slot 128
  ce : Ce
  cu : Cu
  dlc : Dlc
  rc : Rc
  ecu : Ecu
  deriving DecidableEq, Repr

/-- The machine: the part, its DRAM, and the commands waiting, first in first out. -/
structure State extends Chip where
  mem : List Host.Cell
  pending : List Instr
  deriving DecidableEq, Repr

/-- A reason to stop the machine: there is none. Every error the manual names is an effect on the state
(a notice, a counter, a response, an outcome, a link state). -/
inductive Fault where
  deriving DecidableEq, Repr

/-- A reason to refuse a command. -/
inductive Refusal where
  /-- Raised by exec alone, for a command that has no meaning yet. Safe: no next state is claimed. -/
  | notModelled (mnemonic : String)
  deriving DecidableEq, Repr

/-! ## Reset values -/

/-- A released slot that keeps `serial`, `overrun` and `next` (the Released column of R45). -/
def Slot.releasedWith (serial : Nat) (overrun : Option (Nat × BitVec 30)) (next : Nat) : Slot where
  claimed := false
  segment := 0
  position := 0
  serial := serial
  play := .empty
  rows := Vector.replicate 30 .notIn
  overrun := overrun
  recovered := .absent
  consumed := false
  pins := 0
  write := .idle
  written := 0
  material := .live
  worstGrade := Option.none
  worstSource := Option.none
  analogWritten := false
  markerBase := some 0
  markerEffect := List.replicate 16 .keep
  rowsAcked := 0
  clipCount := 0
  underrunCount := 0
  undoSave := .none
  nextPosition := next

/-- A clip as pin reset leaves it (R152). -/
def Clip.reset : Clip where
  state := .empty
  length := 0
  grade := Option.none
  singleUse := false
  inUse := false

/-- A free image record (R161; the values of its other fields: DESIGN CHOICE, log 34). -/
def ImageRecord.reset : ImageRecord where
  used := false
  segment := 0
  grade := .free
  unrecovered := false
  baked := false
  marker := 0

/-- LBP after pin reset (R19). -/
def Lbp.reset : Lbp where
  posted := []
  nextWrite := 0
  reads := Vector.replicate 8 Option.none
  strayNoticed := false
  outRecord := .none
  responses := []

/-- MP after pin reset (R18). -/
def Mp.reset : Mp where
  queues := Vector.replicate 7 []
  passOver := Vector.replicate 7 0

/-- CPM after pin reset (R39). The mode values (log 3), the counters, the overflow count and the status values
(log 4) are the model's choice. -/
def Cpm.reset : Cpm where
  partState := .unconfigured
  writtenSet := ⟨false, false, false, false⟩
  cells := Vector.replicate 40 0
  map := ⟨0, 0, 0, 0⟩
  signal := ⟨0, 0, 0, .free, 0, 0⟩
  link := ⟨0, 0, 0, 0, 0⟩
  edit := ⟨0, false⟩
  pendingMap := Option.none
  pendingSignal := Option.none
  pendingLink := Option.none
  pendingEdit := Option.none
  request := Option.none
  consumeCount := 0
  readyPrefix := 0
  readyAhead := []
  incoming := .unknown
  counters := Vector.replicate 16 0
  overflow := 0
  writeIndex := 0
  publishedIndex := 0
  readIndex := 0
  notice := false
  statusHeld := Vector.replicate 24 0
  dirty := []
  statusOffered := Option.none
  indexDue := false
  nextWrite := 0
  nextRequest := 0

/-- DLC after pin reset (the first column of R103; cursor: log 34). -/
def Dlc.reset : Dlc where
  linkState := .down
  sendSeq := 0
  recvSeq := 0
  writeCredits := 0
  retention := []
  retryCount := 0
  recvWindow := 0
  outstanding := 0
  released := 32
  staging := []
  cursorPos := 0
  cursorRow := 0
  cursorStopped := false
  omits := []
  fetch := Option.none
  lane := []
  sent := []
  ackTimer := Option.none
  creditTimer := Option.none
  openTimer := Option.none

/-- ECU after pin reset (R152, R161). -/
def Ecu.reset : Ecu where
  clips := Vector.replicate 4 Clip.reset
  capture := Option.none
  nextCapture := 0
  stack := []
  bottom := 0
  images := Vector.replicate 256 ImageRecord.reset
  saves := []
  saving := Option.none
  segCount := 0
  partialMark := false
  stoppedMark := false
  loads := []

/-- The part after pin reset: R18, R19, R39, R62, R80, R103, R122, R137, R152, R161. -/
def Chip.reset : Chip where
  event := 0
  lbp := Lbp.reset
  mp := Mp.reset
  cpm := Cpm.reset
  slots := Vector.replicate 128 (Slot.releasedWith 0 Option.none 0)
  ce := ⟨[], Option.none⟩
  cu := ⟨[], 0⟩
  dlc := Dlc.reset
  rc := ⟨.idle, Option.none⟩
  ecu := Ecu.reset

/-- The machine right after reset: the part as pin reset leaves it, nothing written in DRAM, no command waiting. -/
def State.reset : State where
  toChip := Chip.reset
  mem := []
  pending := []

end Sys2Proof.Machine
end

