-- ==== Sys2Proof/Machine/Layout.lean ====
section
/-! DEFINITION. Every layout seen from outside: addresses of cells and stores, codes, and the packing of words
(spec/11 11.1 and 11.2). Packed words are sums of fields at their weights; a bit no layout names is 0 (R186). -/

namespace Sys2Proof.Machine

/-! ## Addresses -/

/-- The end of the control page (R3). -/
def controlPageEnd : Nat := 0x1000

/-- Bytes of the audio view that are decoded (R3). -/
def audioViewSize : Nat := 0x30000

/-- Bytes of the private region (R3). -/
def privateSize : Nat := 0x200000

/-- The result cell. -/
def resultCell : Nat := 0x0A0

/-- The consume count cell. -/
def consumeCell : Nat := 0x0C0

/-- The input status cell. -/
def inputStatusCell : Nat := 0x0E0

/-- The output status cell. -/
def outputStatusCell : Nat := 0x100

/-- The notice read index cell. -/
def readIndexCell : Nat := 0x120

/-- The notice write index cell. -/
def writeIndexCell : Nat := 0x140

/-- Word i of the status block. -/
def statusWordAddr (i : Nat) : Nat := 0x160 + 4 * i

/-- Entry e of the notice ring. -/
def noticeEntryAddr (e : Nat) : Nat := 0x800 + 8 * e

/-- Word k of mode cell or request cell n; cell 4 is the request cell. -/
def cellWordAddr (n k : Nat) : Nat := 0x20 * n + 4 * k

/-- Word i of the playback image of slot s (R6). -/
def playbackAddr (base s i : Nat) : Nat := base + 2048 * s + 4 * i

/-- Word i of the outgoing image of slot s (R6). -/
def outgoingAddr (base s i : Nat) : Nat := base + 0x040000 + 2048 * s + 4 * i

/-- Word i of image g of clip k (R152). -/
def clipAddr (base k g i : Nat) : Nat := base + 0x080000 + 0x20000 * k + 2048 * g + 4 * i

/-- Word i of undo image u (spec/09 9.1). -/
def undoAddr (base u i : Nat) : Nat := base + 0x100000 + 2048 * u + 4 * i

/-- Word i of the undo stack area (spec/09 9.1). -/
def stackAddr (base i : Nat) : Nat := base + 0x180000 + 4 * (i % Config.stackWords)

/-- The image word of a row's word k: row r carries position 7r mod 30 of block k (R41). -/
def rowImageWord (r k : Nat) : Nat := 30 * k + (7 * r) % 30

/-- The row that carries position j (R41). -/
def rowOfPosition (j : Nat) : Nat := (13 * j) % 30

/-- The flag-map word that holds the flag of image word i (R6). -/
def flagWordOf (i : Nat) : Nat := 480 + i / 16

/-! ## Codes -/

/-- Grade codes (spec/11 11.2). -/
def Grade.code : Grade → Nat
  | .free => 0
  | .one => 1
  | .none => 2

/-- The grade a field of bits 1..0 names; 2 and 3 are NONE (R34). -/
def Grade.ofField : Nat → Grade
  | 0 => .free
  | 1 => .one
  | _ => .none

/-- The incoming grade in a REFUSED notice, UNKNOWN 3. -/
def Incoming.code : Incoming → Nat
  | .known g => g.code
  | .unknown => 3

/-- Source class codes (R40). -/
def SourceClass.code : SourceClass → Nat
  | .analog => 0
  | .digital => 1
  | .tape => 2
  | .restore => 3

/-- The source class a field of bits 3..2 names. -/
def SourceClass.ofField : Nat → SourceClass
  | 0 => .analog
  | 1 => .digital
  | 2 => .tape
  | _ => .restore

/-- Writer kind codes (R40). -/
def WriterKind.code : WriterKind → Nat
  | .record => 0
  | .edit => 1
  | .revert => 2

/-- The writer kind a field of bits 7..6 names. -/
def WriterKind.ofField : Nat → WriterKind
  | 0 => .record
  | 1 => .edit
  | _ => .revert

/-- Part state codes. -/
def PartState.code : PartState → Nat
  | .unconfigured => 0
  | .ready => 1

/-- Run state codes. -/
def RunState.code : RunState → Nat
  | .idle => 0
  | .active => 1
  | .draining => 2

/-- Run kind codes; none is 0. -/
def RunKind.code : RunKind → Nat
  | .play => 1
  | .record => 2
  | .edit => 3
  | .revert => 4

/-- Link state codes. -/
def LinkState.code : LinkState → Nat
  | .down => 0
  | .opening => 1
  | .up => 2
  | .failed => 3

/-- End cause codes. -/
def EndCause.code : EndCause → Nat
  | .none => 0
  | .complete => 1
  | .stopped => 2
  | .aborted => 3

/-- Play state codes. -/
def PlayState.code : PlayState → Nat
  | .empty => 0
  | .arriving => 1
  | .checking => 2
  | .ready => 3

/-- Write state codes. -/
def WriteState.code : WriteState → Nat
  | .idle => 0
  | .filling => 1
  | .closed => 2
  | .coding => 3
  | .queued => 4
  | .sending => 5
  | .done => 6

/-- Clip state codes. -/
def ClipState.code : ClipState → Nat
  | .empty => 0
  | .filling => 1
  | .ready => 2
  | .spent => 3

/-- Flag codes (spec/04 4.3). -/
def WordFlag.code : WordFlag → Nat
  | .clean => 0
  | .fixed => 1
  | .unchecked => 2
  | .lost => 3

/-- The flag a 2-bit code names. -/
def WordFlag.ofCode : Nat → WordFlag
  | 0 => .clean
  | 1 => .fixed
  | 2 => .unchecked
  | _ => .lost

/-- Request kinds by their codes 1 to 9. -/
def RequestKind.ofCode : Nat → Option RequestKind
  | 1 => some .play
  | 2 => some .record
  | 3 => some .edit
  | 4 => some .revert
  | 5 => some .stop
  | 6 => some .capture
  | 7 => some .dropClip
  | 8 => some .mark
  | 9 => some .linkClear
  | _ => none

/-- Outcome codes. -/
def ReqOutcome.code : ReqOutcome → Nat
  | .pending => 0
  | .done => 1
  | .busy => 2
  | .badState => 3
  | .range => 4
  | .noLink => 5
  | .copy => 6
  | .noUndo => 7
  | .badReq => 8
  | .aborted => 9

/-- The place of a counter among the 16; status words 6 to 21 hold them in this order. -/
def Counter.index : Counter → Fin 16
  | .rowsReceived => 0
  | .badCrcRows => 1
  | .resends => 2
  | .fixedWords => 3
  | .lostWords => 4
  | .uncheckedWords => 5
  | .concealedReads => 6
  | .heldReads => 7
  | .readLate => 8
  | .clippedSamples => 9
  | .underrun => 10
  | .overrun => 11
  | .stray => 12
  | .protect => 13
  | .refusedSegments => 14
  | .ignored => 15

/-! ## Packed words -/

/-- 1 for a set mark, 0 for a clear one. -/
def bitOf (b : Bool) : Nat := if b then 1 else 0

/-- A number as the word that holds it. -/
def word (n : Nat) : Word := BitVec.ofNat 32 n

/-- A detail "n, with x": n in bits 7..0 and x in bits 15..8. -/
def detailWith (n x : Nat) : Nat := n + 256 * x

/-- The copy word of position 26 (R40). -/
def copyWordOf (g : Grade) (c : SourceClass) (refused baked : Bool) : Nat :=
  g.code + 4 * c.code + 16 * bitOf refused + 32 * bitOf baked

/-- The format word of position 25 (R40). -/
def formatWordOf (block rate : Nat) (w : WriterKind) : Nat :=
  block + 16 * rate + 64 * w.code

/-- Summary word 510: T and the valid mark. -/
def summaryWord (segment : Nat) (valid : Bool) : Nat :=
  segment + 0x80000000 * bitOf valid

/-- The copy-word part of a recovered copy word, or the unrecovered mark alone (R76). -/
def Recovered.decodePart : Recovered → Nat
  | .recovered g c refused baked _ _ _ => copyWordOf g c refused baked
  | _ => 0x80

/-- Decode word 511 of a playback image (R76). -/
def decodeWord (r : Recovered) (fixed lost : Nat) : Nat :=
  r.decodePart + 0x100 * fixed + 0x20000 * lost

/-- Code word 511 of an outgoing image (R67). -/
def codeWord (copy clipCount underrun : Nat) : Nat :=
  copy + 0x100 * clipCount + 0x20000 * underrun

/-- Saved copy word 511 of an undo image: the fields the image record holds (R163, log 20). -/
def savedCopyWord (r : ImageRecord) : Nat :=
  r.grade.code + 32 * bitOf r.baked + 0x80 * bitOf r.unrecovered + 0x10000 * r.marker

/-- The words of a stack entry, bottom to top (spec/11 11.1). -/
def StackEntry.words : StackEntry → List Word
  | .seg t u => [word t, word (1 + 0x20 + 0x100 * u.val)]
  | .run tag first count p => [word tag, word first, word count, word (2 + 0x40 + 0x10000 * bitOf p)]

/-- The words of a result write (spec/11 11.2). -/
def Result.words (r : Result) : List Word :=
  [word (r.tag + 0x100 * r.outcome.code), word r.detail, 0, 0, 0, 0, 0, 0]

/-- The notices, with what their subject and detail carry (spec/11 11.2). -/
inductive Notice where
  | runEnd (tag : Nat) (cause : EndCause) (kind : RunKind) (popped : Bool)
  | overrun (segment slot held : Nat)
  | auxLost (segment blocks : Nat)
  | tMismatch (segment blocks : Nat)
  | dueStray (segment detail : Nat)
  | editBroken (segment : Nat) (play : PlayState) (write : WriteState) (beforeClaim : Bool)
  | concealBaked (segment words : Nat)
  | refused (segment : Nat) (kind : RunKind) (initiator : Nat) (incoming : Incoming) (analog : Bool)
  | stray (segment initiator : Nat)
  | protect (addr initiator : Nat)
  | ignored (tag : Nat)
  | clamped (mode marks : Nat)
  | mapRejected (initiator marks : Nat)
  | linkUp
  | linkFailed (retryLimit entries : Nat)
  | linkCleared (request : Bool) (prior : LinkState) (aborted : Bool)
  | rateMismatch (segment recovered run : Nat)
  | busFault (addr initiator : Nat)
  deriving DecidableEq, Repr

/-- The kind code of a notice. -/
def Notice.kind : Notice → Nat
  | .runEnd .. => 1
  | .overrun .. => 2
  | .auxLost .. => 3
  | .tMismatch .. => 4
  | .dueStray .. => 5
  | .editBroken .. => 6
  | .concealBaked .. => 7
  | .refused .. => 8
  | .stray .. => 9
  | .protect .. => 10
  | .ignored .. => 11
  | .clamped .. => 12
  | .mapRejected .. => 13
  | .linkUp => 14
  | .linkFailed .. => 15
  | .linkCleared .. => 16
  | .rateMismatch .. => 17
  | .busFault .. => 18

/-- The subject of a notice. -/
def Notice.subject : Notice → Nat
  | .runEnd tag .. => tag
  | .overrun t .. => t
  | .auxLost t _ => t
  | .tMismatch t _ => t
  | .dueStray t _ => t
  | .editBroken t .. => t
  | .concealBaked t _ => t
  | .refused t .. => t
  | .stray t _ => t
  | .protect a _ => a
  | .ignored tag => tag
  | .clamped mode _ => mode
  | .mapRejected i _ => i
  | .linkUp => 0
  | .linkFailed .. => 0
  | .linkCleared .. => 0
  | .rateMismatch t .. => t
  | .busFault a _ => a

/-- The detail of a notice. -/
def Notice.detail : Notice → Nat
  | .runEnd _ cause kind popped => cause.code + 0x100 * kind.code + 0x10000 * bitOf popped
  | .overrun _ slot held => slot + 0x100 * held
  | .auxLost _ n => n
  | .tMismatch _ n => n
  | .dueStray _ d => d
  | .editBroken _ play write early => play.code + 0x100 * write.code + 0x10000 * bitOf early
  | .concealBaked _ n => n
  | .refused _ kind i g analog => kind.code + 0x100 * i + 0x10000 * g.code + 0x1000000 * bitOf analog
  | .stray _ i => i
  | .protect _ i => i
  | .ignored _ => 0
  | .clamped _ marks => marks
  | .mapRejected _ marks => marks
  | .linkUp => 0
  | .linkFailed limit n => limit + 0x100 * n
  | .linkCleared request prior aborted => bitOf request + 0x100 * prior.code + 0x10000 * bitOf aborted
  | .rateMismatch _ r run => r + 0x100 * run
  | .busFault _ i => i

/-- Word 0 of a notice entry: the kind in bits 7..0, the subject above. -/
def Notice.word0 (n : Notice) : Word := word (n.kind + 0x100 * n.subject)

/-- Word 1 of a notice entry. -/
def Notice.word1 (n : Notice) : Word := word n.detail

end Sys2Proof.Machine
end

