-- ==== Sys2Proof/Machine/Operands.lean ====
section
/-! DEFINITION. How requests on the bus and words of the control page are read: legal bursts, ranges, audio-view
places, the limiter, the rows a posted write belongs to, mode fields and their clamps, request words. -/

namespace Sys2Proof.Machine

/-! ## Bursts and ranges -/

/-- A burst is legal when its length is 1, 2, 4 or 8 words and its start address a multiple of its length in bytes
(R2). -/
def legalBurst (addr len : Nat) : Bool :=
  (len == 1 || len == 2 || len == 4 || len == 8) && addr % (4 * len) == 0

/-- The 8-word group an address lies in (spec/00 1.6). -/
def groupOf (addr : Nat) : Nat := addr / 32

/-- The slot of segment T: T mod 128 (spec/00 1.9). -/
def slotOf (segment : Nat) : Fin 128 := Fin.ofNat 128 segment

/-- The place an offset from the audio view base names (R6). -/
def viewPlace (d : Nat) : ViewPlace where
  slot := Fin.ofNat 128 (d / 1536)
  pair := (d % 1536) / 8
  channel := (d % 8) / 4

/-- The place of the word k words further on in the same burst (R6). -/
def ViewPlace.advance (v : ViewPlace) (k : Nat) : ViewPlace :=
  { v with pair := (2 * v.pair + v.channel + k) / 2, channel := (2 * v.pair + v.channel + k) % 2 }

/-- The image word of a place: 30 b + j (R6). -/
def ViewPlace.imageWord (v : ViewPlace) : Nat :=
  30 * (v.pair / 12) + (2 * (v.pair % 12) + v.channel)

/-- The range of a legal request, decided at acceptance against the MODE_MAP held (R3). -/
def Chip.rangeOf (p : Chip) (addr : Nat) : Range :=
  match p.cpm.partState with
  | .unconfigured => .plain
  | .ready =>
    if addr < controlPageEnd then .controlPage
    else if p.cpm.map.audioBase ≤ addr ∧ addr < p.cpm.map.audioBase + audioViewSize then
      .audioView (viewPlace (addr - p.cpm.map.audioBase))
    else if p.cpm.map.privateBase ≤ addr ∧ addr < p.cpm.map.privateBase + privateSize then .privateRegion
    else .plain

/-! ## Samples -/

/-- The sample of a code value (spec/00 1.7). -/
def sampleOfCode (w : Nat) : Int := (w : Int) - Config.sampleOffset

/-- The code value of a sample (spec/00 1.7). -/
def codeOfSample (v : Int) : Nat := (v + Config.sampleOffset).toNat

/-- A sample as an audio-view read returns it, sign-extended (R9). -/
def sampleWord (v : Int) : Word := BitVec.ofInt 32 v

/-- The written sample: bits 23..0 as two's complement (R8). -/
def writtenSample (w : Word) : Int := (w.extractLsb' 0 24).toInt

/-- The limiter (R8). -/
def limit (v : Int) : Int :=
  if v < -(Config.sampleOffset : Int) then -(Config.sampleOffset : Int)
  else if (Config.sampleOffset : Int) < v then (Config.sampleOffset : Int)
  else v

/-! ## What a posted write is at its grant -/

/-- The rows of the table that a grant of the posted-write head can be. -/
inductive WriteAct where
  | plain
  | audioView (place : ViewPlace)
  | modeMap
  | modeSignal
  | modeLink
  | modeEdit
  | request (kind : RequestKind)
  | badRequest
  | consumeCount
  | inputStatus
  | readIndex
  deriving DecidableEq, Repr

/-- The burst covers the word at an address. -/
def PostedWrite.covers (w : PostedWrite) (addr : Nat) : Bool :=
  w.addr ≤ addr && addr < w.addr + 4 * w.data.length

/-- The data word the burst holds for an address it covers. -/
def PostedWrite.wordAt (w : PostedWrite) (addr : Nat) : Word :=
  w.data.getD ((addr - w.addr) / 4) 0

/-- The tag of a request word, bits 7..0. -/
def requestTag (w : Word) : Nat := w.toNat % 256

/-- The kind of a request word, bits 15..8; none for an unknown kind (R186). -/
def requestKind (w : Word) : Option RequestKind := RequestKind.ofCode (w.toNat / 256 % 256)

/-- The row a request word write belongs to: tag 0 or an unknown kind is BADREQ (R29). -/
def requestAct (w : Word) : WriteAct :=
  if requestTag w = 0 then .badRequest
  else match requestKind w with
    | some k => .request k
    | none => .badRequest

/-- The row a posted write belongs to at its grant: by the cell whose acting word it covers (R21 to R23, R29, R33,
R34, R38). A write to the control page is copied to CPM whether it was accepted UNCONFIGURED or READY (R19, log 12). -/
def PostedWrite.act (w : PostedWrite) : WriteAct :=
  match w.range with
  | .audioView place => .audioView place
  | _ =>
    if w.covers (cellWordAddr 0 7) then .modeMap
    else if w.covers (cellWordAddr 1 7) then .modeSignal
    else if w.covers (cellWordAddr 2 7) then .modeLink
    else if w.covers (cellWordAddr 3 7) then .modeEdit
    else if w.covers (cellWordAddr 4 7) then requestAct (w.wordAt (cellWordAddr 4 7))
    else if w.covers consumeCell then .consumeCount
    else if w.covers inputStatusCell then .inputStatus
    else if w.covers readIndexCell then .readIndex
    else .plain

/-! ## Mode fields (R23 to R25) -/

/-- A field brought to the nearer end of its legal range (R24). -/
def clampField (lo hi v : Nat) : Nat := max lo (min hi v)

/-- Legal ranges of the fields of a mode word, by the field's word number (R24). -/
abbrev FieldRanges := List (Nat × Nat × Nat)

/-- The legal ranges of MODE_MAP. -/
def mapRanges : FieldRanges := [(2, 0, 7), (3, 0, 7)]

/-- The legal ranges of MODE_SIGNAL. -/
def signalRanges : FieldRanges :=
  [(0, 1, 8), (1, 0, 255), (2, 4, 10), (3, 0, 2), (4, 0, 3), (5, 50, 20000)]

/-- The legal ranges of MODE_LINK. -/
def linkRanges : FieldRanges :=
  [(0, 100, 10000), (1, 20, 2000), (2, 1000, 100000), (3, 1, 15), (4, 1000, 1000000)]

/-- The legal ranges of MODE_EDIT. -/
def editRanges : FieldRanges := [(0, 4, 10), (1, 0, 1)]

/-- The word k of a mode or request cell, as an unsigned number. -/
def Cpm.cellField (c : Cpm) (cell k : Nat) : Nat :=
  (c.cells.getD (8 * cell + k) 0).toNat

/-- Field k of a mode cell, clamped (R24). -/
def Cpm.clamped (c : Cpm) (cell : Nat) (ranges : FieldRanges) (k : Nat) : Nat :=
  match ranges.find? (fun r => r.1 == k) with
  | some (_, lo, hi) => clampField lo hi (c.cellField cell k)
  | none => c.cellField cell k

/-- The marks of the fields a clamp changes: bit i for field word i (R24). -/
def Cpm.clampMarks (c : Cpm) (cell : Nat) (ranges : FieldRanges) : Nat :=
  (ranges.map fun (k, lo, hi) =>
    if c.cellField cell k = clampField lo hi (c.cellField cell k) then 0 else 2 ^ k).sum

/-- A base: bits 23..0 of its field word (R25). -/
def Cpm.baseField (c : Cpm) (k : Nat) : Nat := c.cellField 0 k % 0x1000000

/-- Two address ranges share an address. -/
def rangesMeet (a sizeA b sizeB : Nat) : Bool := a < b + sizeB && b < a + sizeA

/-- The marks of the failed conditions of R25, in their order; 0 accepts. -/
def mapRejectMarks (audio priv : Nat) : Nat :=
  bitOf (audio % 0x40000 != 0)
    + 2 * bitOf (priv % 0x200000 != 0)
    + 4 * bitOf (rangesMeet audio audioViewSize priv privateSize)
    + 8 * bitOf (rangesMeet audio audioViewSize 0 controlPageEnd || rangesMeet priv privateSize 0 controlPageEnd)

/-- The MODE_MAP value the cell holds, clamped. -/
def Cpm.readMap (c : Cpm) : ModeMap where
  audioBase := c.baseField 0
  privateBase := c.baseField 1
  digitalIn := c.clamped 0 mapRanges 2
  digitalOut := c.clamped 0 mapRanges 3

/-- The MODE_SIGNAL value the cell holds, clamped. -/
def Cpm.readSignal (c : Cpm) : ModeSignal where
  gap := c.clamped 1 signalRanges 0
  hold := c.clamped 1 signalRanges 1
  fade := c.clamped 1 signalRanges 2
  policy := Grade.ofField (c.clamped 1 signalRanges 3)
  rate := c.clamped 1 signalRanges 4
  holdLimit := c.clamped 1 signalRanges 5

/-- The MODE_LINK value the cell holds, clamped. -/
def Cpm.readLink (c : Cpm) : ModeLink where
  ackTimeout := c.clamped 2 linkRanges 0
  creditInterval := c.clamped 2 linkRanges 1
  openRetry := c.clamped 2 linkRanges 2
  retryLimit := c.clamped 2 linkRanges 3
  drainTimeout := c.clamped 2 linkRanges 4

/-- The MODE_EDIT value the cell holds, clamped. -/
def Cpm.readEdit (c : Cpm) : ModeEdit where
  defaultF := c.clamped 3 editRanges 0
  undo := c.clamped 3 editRanges 1 == 1

/-- Argument k of the request cell (R29). -/
def Cpm.arg (c : Cpm) (k : Nat) : Nat := c.cellField 4 k

end Sys2Proof.Machine
end

