-- ==== Sys2Proof/Machine/CheckCode.lean ====
section
/-! DEFINITION. The check code: encoding, the decode cases, aux recovery (chapter 4, R43). -/

namespace Sys2Proof.Machine

/-! ## The field -/

/-- x mod p (R63). -/
def residue (x : Nat) : Nat := x % Config.fieldModulus

/-- (a - b) mod p, in 0 to p - 1 (R63). -/
def subMod (a b : Nat) : Nat := residue (a + (Config.fieldModulus - residue b))

/-- A word in field lies below p (R63). -/
def inField (w : Nat) : Bool := w < Config.fieldModulus

/-- inv(d), the x in 1 to p - 1 with d x = 1 mod p, for 1 ≤ d < p (spec/00 1.7): (k p + 1) / d for the k below d
that makes the division exact. -/
def inverse (d : Nat) : Nat :=
  match (List.range d).find? (fun k => (k * Config.fieldModulus + 1) % d == 0) with
  | some k => (k * Config.fieldModulus + 1) / d
  | none => 0

/-- The plain sum of a block's values mod p. -/
def plainSum (cs : List Nat) : Nat := residue cs.sum

/-- The sum of the values, position j weighted by j + 1, mod p. -/
def weightedSum (cs : List Nat) : Nat := residue (cs.zipIdx.map fun (c, j) => (j + 1) * c).sum

/-! ## Encoding (R64) -/

/-- Q28 of 28 values. -/
def check28 (cs : List Nat) : Nat := subMod (weightedSum cs) (30 * plainSum cs)

/-- Q29 of 28 values. -/
def check29 (cs : List Nat) : Nat := subMod (29 * plainSum cs) (weightedSum cs)

/-- A block of 30 values from its 28 (R64). -/
def encodeBlock (cs : List Nat) : List Nat := cs ++ [check28 cs, check29 cs]

/-- Both check congruences hold (R64, R68). -/
def isCodeword (cs : List Nat) : Bool := plainSum cs == 0 && weightedSum cs == 0

/-! ## Decoding (R69 to R74) -/

/-- A row's record erases its word of block b: void, masked, written off, or not in at a drain (R69). -/
def RowRecord.erases (r : RowRecord) (b : Nat) : Bool :=
  match r with
  | .notIn => true
  | .arrived void mask => void || mask.getLsbD b
  | .writtenOff => true

/-- The erasure set of block b, rising (R69, R70). -/
def erasures (rows : Vector RowRecord 30) (b : Nat) (raw : List Nat) : List Nat :=
  (List.range 30).filter fun j =>
    (rows.getD (rowOfPosition j) .notIn).erases b || !(inField (raw.getD j 0))

/-- What a block's decision gives: its 30 words and their flags. -/
structure Decoded where
  words : List Nat
  flags : List WordFlag
  deriving DecidableEq, Repr

/-- Every word as received, under one flag. -/
def Decoded.all (cs : List Nat) (f : WordFlag) : Decoded := ⟨cs, List.replicate 30 f⟩

/-- The word at k less an error value, FIXED; the others CLEAN. -/
def Decoded.correct (cs : List Nat) (k err : Nat) : Decoded :=
  ⟨cs.set k (subMod (cs.getD k 0) err), (List.replicate 30 WordFlag.clean).set k .fixed⟩

/-- The flag of an erased word by its error value (R73). -/
def erasureFlag (err : Nat) : WordFlag := if err = 0 then .clean else .fixed

/-- No erasure (R71). -/
def decodeNone (cs : List Nat) (s0 s1 : Nat) : Decoded :=
  if s0 = 0 ∧ s1 = 0 then .all cs .clean
  else if s0 ≠ 0 ∧ s1 ≠ 0 then
    match (List.range 30).find? (fun k => residue ((k + 1) * s0) == s1) with
    | some k => .correct cs k s0
    | none => .all cs .lost
  else .all cs .lost

/-- One erasure at e (R72). -/
def decodeOne (cs : List Nat) (s0 s1 e : Nat) : Decoded :=
  if s0 = 0 ∧ s1 = 0 then .all cs .clean
  else if s0 ≠ 0 ∧ s1 = residue ((e + 1) * s0) then .correct cs e s0
  else .all cs .lost

/-- Two erasures at x < y (R73). -/
def decodeTwo (cs : List Nat) (s0 s1 x y : Nat) : Decoded :=
  let ey := residue (subMod s1 ((x + 1) * s0) * inverse (y - x))
  let ex := subMod s0 ey
  ⟨(cs.set x (subMod (cs.getD x 0) ex)).set y (subMod (cs.getD y 0) ey),
    ((List.replicate 30 WordFlag.clean).set x (erasureFlag ex)).set y (erasureFlag ey)⟩

/-- Three erasures or more (R74). -/
def decodeMany (cs : List Nat) (es : List Nat) : Decoded :=
  ⟨cs, (List.range 30).map fun j => if es.contains j then .lost else .unchecked⟩

/-- The decision of block b from its received words and the item's row records (R69 to R74). -/
def decodeBlock (rows : Vector RowRecord 30) (b : Nat) (raw : List Nat) : Decoded :=
  let cs := raw.map fun w => if inField w then w else 0
  let s0 := plainSum cs
  let s1 := weightedSum cs
  match erasures rows b raw with
  | [] => decodeNone cs s0 s1
  | [e] => decodeOne cs s0 s1 e
  | [x, y] => decodeTwo cs s0 s1 x y
  | es => decodeMany cs es

/-! ## Aux recovery (R43, R44) -/

/-- The aux positions of a decoded block. -/
def Decoded.aux (d : Decoded) : AuxWords where
  segment := d.words.getD 24 0
  format := d.words.getD 25 0
  copy := d.words.getD 26 0
  marker := d.words.getD 27 0
  whole := [24, 25, 26, 27].all fun j => d.flags.getD j .lost != .lost

/-- Block b qualifies (R43). -/
def AuxWords.qualifies (a : AuxWords) (segment b : Nat) : Bool :=
  a.whole && a.segment == segment && a.format ≤ 191 && a.format % 16 == b && a.copy ≤ 63 && a.copy % 4 ≤ 2
    && a.marker ≤ 65535

/-- The recovered values of a qualifying block (R43). -/
def AuxWords.values (a : AuxWords) : Recovered :=
  .recovered (Grade.ofField (a.copy % 4)) (SourceClass.ofField (a.copy / 4 % 4)) (a.copy / 16 % 2 == 1)
    (a.copy / 32 % 2 == 1) a.marker (a.format / 16 % 4) (WriterKind.ofField (a.format / 64))

/-- The aux of a segment: from the lowest-numbered block that qualifies (R43, R44). -/
def recoverAux (segment : Nat) (aux : List AuxWords) : Recovered :=
  match aux.zipIdx.find? (fun (a, b) => a.qualifies segment b) with
  | some (a, _) => a.values
  | none => .unrecovered

/-- Blocks that meet condition 1 of R43 and fail condition 2 (R44). -/
def mismatchedBlocks (segment : Nat) (aux : List AuxWords) : Nat :=
  aux.countP fun a => a.whole && a.segment != segment

/-- Blocks that meet condition 1 of R43 and fail a later one (R44). -/
def unqualifiedBlocks (segment : Nat) (aux : List AuxWords) : Nat :=
  (aux.zipIdx.filter fun (a, b) => a.whole && !(a.qualifies segment b)).length

/-- The grade a recovered copy word stands for: NONE where the aux is unrecovered (R44). -/
def Recovered.grade : Recovered → Grade
  | .recovered g .. => g
  | _ => .none

/-- The marker it stands for: 0 where the aux is unrecovered (R44). -/
def Recovered.marker : Recovered → Nat
  | .recovered _ _ _ _ m _ _ => m
  | _ => 0

/-- It carries the concealment-baked mark (R148: unrecovered counts as not carrying it). -/
def Recovered.baked : Recovered → Bool
  | .recovered _ _ _ b _ _ _ => b
  | _ => false

/-- What the output segment record takes from it (R10). -/
def Recovered.outRecord : Recovered → OutRecord
  | .recovered g .. => .grade g
  | _ => .unrecovered

end Sys2Proof.Machine
end

