-- ==== Sys2Proof/Machine/Flags.lean ====
section
/-! DEFINITION. Flag maps: the 2-bit flags of an image's words, packed sixteen to a word (spec/11 11.1). -/

namespace Sys2Proof.Machine

/-- The flag in place i, 0 to 15, of a flag-map word. -/
def flagIn (w : Word) (i : Nat) : WordFlag := WordFlag.ofCode (w.toNat / 4 ^ i % 4)

/-- Up to sixteen flags as one flag-map word, the first in bits 1..0. -/
def packFlags (fs : List WordFlag) : Nat :=
  fs.foldr (fun f acc => f.code + 4 * acc) 0

/-- Flags as flag-map words, sixteen to a word; `n` words are made. -/
def flagWords : Nat → List WordFlag → List Word
  | 0, _ => []
  | n + 1, fs => word (packFlags (fs.take 16)) :: flagWords n (fs.drop 16)

end Sys2Proof.Machine
end

