-- ==== Sys2Proof/Machine/Ops.lean ====
section
/-! DEFINITION. The named operations over DRAM, the memory port, the slot table, the control page monitor's reports
and the outgoing lane. -/

namespace Sys2Proof.Machine

/-! ## DRAM -/

/-- DRAM: (address, byte) pairs, addresses rising, none equal to what an unlisted address reads as. -/
abbrev Memory := List Host.Cell

/-- The canonical form holds. -/
def Memory.wf : Memory → Bool
  | [] => true
  | (a, v) :: rest => v != Config.unlistedByte && rest.all (fun c => a < c.1) && Memory.wf rest

/-- The byte at an address; an unlisted one reads as Config.unlistedByte (log 1). -/
def Memory.readByte : Memory → Nat → Byte
  | [], _ => Config.unlistedByte
  | (k, v) :: rest, a => if k = a then v else Memory.readByte rest a

/-- The byte at an address replaced, in canonical form. -/
def Memory.writeByte : Memory → Nat → Byte → Memory
  | [], a, v => if v = Config.unlistedByte then [] else [(a, v)]
  | (k, w) :: rest, a, v =>
    if a < k then (if v = Config.unlistedByte then (k, w) :: rest else (a, v) :: (k, w) :: rest)
    else if a = k then (if v = Config.unlistedByte then rest else (a, v) :: rest)
    else (k, w) :: Memory.writeByte rest a v

/-- The word at an address: its byte at the lowest address is bits 7..0 (log 2). -/
def Memory.readWord (m : Memory) (a : Nat) : Word :=
  m.readByte (a + 3) ++ m.readByte (a + 2) ++ m.readByte (a + 1) ++ m.readByte a

/-- The word at an address replaced (log 2). -/
def Memory.writeWord (m : Memory) (a : Nat) (w : Word) : Memory :=
  (((m.writeByte a (w.extractLsb' 0 8)).writeByte (a + 1) (w.extractLsb' 8 8)).writeByte (a + 2)
    (w.extractLsb' 16 8)).writeByte (a + 3) (w.extractLsb' 24 8)

/-- The words at the given addresses. -/
def Memory.readWords (m : Memory) (addrs : List Nat) : List Word := addrs.map m.readWord

/-- Words written one after another. -/
def Memory.writeWords (m : Memory) (ws : List (Nat × Word)) : Memory :=
  ws.foldl (fun m aw => m.writeWord aw.1 aw.2) m

/-- The addresses of n consecutive words. -/
def wordAddrs (start n : Nat) : List Nat := (List.range n).map fun k => start + 4 * k

/-- Words paired with the addresses from a start address on. -/
def placeWords (start : Nat) (ws : List Word) : List (Nat × Word) :=
  ws.zipIdx.map fun (w, k) => (start + 4 * k, w)

/-- DRAM after the writes of one granted request (R16). -/
def State.store (s : State) (ws : List (Nat × Word)) : State :=
  { s with mem := Memory.writeWords s.mem ws }

/-! ## Memory port (R16 to R18) -/

/-- The class of a request (R16). -/
def Req.cls : Req → Fin 7
  | .neighbour _ => 0
  | .staging => 1
  | .rowFetch => 2
  | .postedWrite => 3
  | .read _ => 3
  | .codeEngine => 4
  | .capture => 5
  | .save => 5
  | .load _ => 5
  | .mirror _ => 5
  | .result .. => 6
  | .status _ => 6
  | .notice .. => 6

/-- Requests whose order the manual gives even where one event offers several: stack mirror writes (R161, R165) and
CPM's writes (R32) (log 8). -/
def Req.ordered : Req → Bool
  | .mirror _ => true
  | .result .. => true
  | .status _ => true
  | .notice .. => true
  | _ => false

/-- The seven classes, lowest number first. -/
def Mp.classes : List (Fin 7) := [0, 1, 2, 3, 4, 5, 6]

/-- A request of the class is waiting. -/
def Mp.waiting (m : Mp) (c : Fin 7) : Bool := !(m.queues[c]).isEmpty

/-- The class the next grant goes to (R17). -/
def Mp.choice (m : Mp) : Option (Fin 7) :=
  match Mp.classes.find? (fun c => m.waiting c && m.passOver[c] == Config.passOverMax) with
  | some c => some c
  | none => Mp.classes.find? m.waiting

/-- The requests offered together at the front of a class (R16). -/
def frontGroup (q : List Offer) : List Req :=
  match q with
  | [] => []
  | o :: _ => (q.takeWhile fun x => x.stamp == o.stamp).map Offer.req

/-- The request may be the next granted in its class: requests offered together take either order (R16). -/
def mayLead (q : List Offer) (r : Req) : Bool :=
  if r.ordered then (frontGroup q).find? Req.ordered == some r else (frontGroup q).contains r

/-- The next grant may be this request's (R16, R17). -/
def Mp.mayGrant (m : Mp) (r : Req) : Bool :=
  m.choice == some r.cls && mayLead m.queues[r.cls] r

/-- The request out of its class. -/
def Mp.remove (m : Mp) (r : Req) : Mp :=
  { m with queues := m.queues.set r.cls (m.queues[r.cls].eraseP fun o => o.req == r) }

/-- The pass-over count of class c after a grant: `before` and `after` are the queues before the grant and after the
granted request left (R17). -/
def nextPassOver (before after : Mp) (granted c : Fin 7) : Nat :=
  if c = granted then 0
  else if !(after.waiting c) then 0
  else if before.waiting c then min Config.passOverMax (before.passOver[c] + 1)
  else before.passOver[c]

/-- The port after a grant (R17). -/
def Mp.grant (m : Mp) (r : Req) : Mp :=
  let after := m.remove r
  { after with
    passOver := Mp.classes.foldl (fun (v : Vector Nat 7) (c : Fin 7) => v.set c (nextPassOver m after r.cls c)) m.passOver }

/-- A request withdrawn before its grant (R18). -/
def Mp.withdraw (m : Mp) (r : Req) : Mp :=
  let after := m.remove r
  if after.waiting r.cls then after else { after with passOver := after.passOver.set r.cls 0 }

/-- A request offered at an event. -/
def Mp.offer (m : Mp) (r : Req) (stamp : Nat) : Mp :=
  { m with queues := m.queues.set r.cls (m.queues[r.cls] ++ [⟨r, stamp⟩]) }

/-- A request offered to MP. -/
def Chip.offer (r : Req) (p : Chip) : Chip := { p with mp := p.mp.offer r p.event }

/-- A request withdrawn from MP. -/
def Chip.withdraw (r : Req) (p : Chip) : Chip := { p with mp := p.mp.withdraw r }

/-- A command takes effect: a new event. -/
def Chip.begin (p : Chip) : Chip := { p with event := p.event + 1 }

/-- A request is granted: a new event, and the port as R17 leaves it. -/
def Chip.beginGrant (r : Req) (p : Chip) : Chip :=
  { p with event := p.event + 1, mp := p.mp.grant r }

/-! ## Slot records -/

/-- The 128 slots. -/
def allSlots : List (Fin 128) := List.finRange 128

/-- The record of a slot. -/
def Chip.slot (p : Chip) (i : Fin 128) : Slot := p.slots[i]

/-- The record of a slot replaced. -/
def Chip.setSlot (i : Fin 128) (x : Slot) (p : Chip) : Chip := { p with slots := p.slots.set i x }

/-- The record of a slot changed. -/
def Chip.modSlot (i : Fin 128) (f : Slot → Slot) (p : Chip) : Chip := p.setSlot i (f (p.slot i))

/-- The slot is claimed for a segment. -/
def Slot.holds (s : Slot) (segment : Nat) : Bool := s.claimed && s.segment == segment

/-! ## Counters, notices, status (R35 to R37) -/

/-- A counter advanced by n; it stops at its maximum (R36). -/
def Chip.bump (c : Counter) (n : Nat) (p : Chip) : Chip :=
  { p with cpm := { p.cpm with counters := p.cpm.counters.set c.index (min Config.counterMax (p.cpm.counters[c.index] + n)) } }

/-- A counter's value. -/
def Chip.counter (p : Chip) (c : Counter) : Nat := p.cpm.counters[c.index]

/-- A notice raised: dropped into the overflow count when the ring is full, else its entry and the new write index
are offered in class 7 (R37). While UNCONFIGURED CPM writes nothing (R22). -/
def Chip.raise (n : Notice) (p : Chip) : Chip :=
  match p.cpm.partState with
  | .unconfigured => p
  | .ready =>
    if (p.cpm.writeIndex + 1) % Config.ringEntries = p.cpm.readIndex then
      { p with cpm := { p.cpm with overflow := min Config.counterMax (p.cpm.overflow + 1) } }
    else
      let p' := p.offer (.notice p.cpm.nextWrite p.cpm.writeIndex n.word0 n.word1)
      { p' with
        cpm := { p.cpm with
          writeIndex := (p.cpm.writeIndex + 1) % Config.ringEntries
          nextWrite := p.cpm.nextWrite + 1 } }

/-- Status word i as the blocks stand (spec/11 11.2). -/
def Chip.statusWord (p : Chip) (i : Nat) : Word :=
  let kind := match p.rc.run with
    | some r => r.kind.code
    | none => 0
  let ofRun (f : RunRecord → Nat) : Nat := match p.rc.run with
    | some r => f r
    | none => 0
  if i = 0 then
    word (p.cpm.partState.code + 0x100 * p.rc.state.code + 0x10000 * kind + 0x1000000 * p.dlc.linkState.code)
  else if i = 1 then word (ofRun RunRecord.tag)
  else if i = 2 then word (ofRun RunRecord.readyCount)
  else if i = 3 then word (ofRun RunRecord.doneCount)
  else if i = 4 then word p.cpm.consumeCount
  else if i = 5 then word p.cpm.overflow
  else word (p.cpm.counters.getD (i - 6) 0)

/-- The numbers of the status words (R35). -/
def statusNumbers : List Nat := List.range 24

/-- Status words placed in the dirty set, and the status request offered if none is (R35). -/
def Chip.markDirty (ws : List Nat) (p : Chip) : Chip :=
  let dirty := p.cpm.dirty ++ ws.filter (fun i => !(p.cpm.dirty.contains i))
  if dirty.isEmpty then p
  else match p.cpm.statusOffered with
    | some _ => { p with cpm := { p.cpm with dirty := dirty } }
    | none =>
      let p' := p.offer (.status p.cpm.nextWrite)
      { p' with
        cpm := { p.cpm with
          dirty := dirty
          statusOffered := some p.cpm.nextWrite
          nextWrite := p.cpm.nextWrite + 1 } }

/-- The status words whose value has changed since the blocks last reported. -/
def Chip.changedStatus (p : Chip) : List Nat :=
  statusNumbers.filter fun i => p.statusWord i != p.cpm.statusHeld.getD i 0

/-- The blocks report their changes to CPM (R35, log 25). While UNCONFIGURED CPM writes nothing (R22). -/
def Chip.noteStatus (p : Chip) : Chip :=
  match p.cpm.partState with
  | .unconfigured => p
  | .ready =>
    let changed := p.changedStatus
    let held := changed.foldl (fun v i => v.setIfInBounds i (p.statusWord i)) p.cpm.statusHeld
    Chip.markDirty changed { p with cpm := { p.cpm with statusHeld := held } }

/-- The run words of the status block (R39, log 17). -/
def runWords : List Nat := [0, 1, 2, 3]

/-- Status words placed in the dirty set whatever their values (R39). -/
def Chip.dirtyRunWords (p : Chip) : Chip :=
  match p.cpm.partState with
  | .unconfigured => p
  | .ready => p.noteStatus.markDirty runWords

/-! ## Requests and results (R29, R32) -/

/-- A result write offered; `closes` names the request it is the final result of. -/
def Chip.offerResult (r : Result) (closes : Option Nat) (p : Chip) : Chip :=
  let p' := p.offer (.result p.cpm.nextWrite r closes)
  { p' with cpm := { p.cpm with nextWrite := p.cpm.nextWrite + 1 } }

/-- A request taken: the state becomes PENDING (R29). -/
def Chip.takeRequest (kind : Option RequestKind) (tag : Nat) (p : Chip) : Chip :=
  { p with
    cpm := { p.cpm with
      request := some ⟨p.cpm.nextRequest, kind, tag, false⟩
      nextRequest := p.cpm.nextRequest + 1 } }

/-- The owner's final report on the pending request, offered behind every status and notice write (R32). -/
def Chip.report (outcome : ReqOutcome) (detail : Nat) (p : Chip) : Chip :=
  let p := p.noteStatus
  match p.cpm.request with
  | none => p
  | some q =>
    let p := p.offerResult ⟨q.tag, outcome, detail⟩ (some q.id)
    { p with cpm := { p.cpm with request := some { q with reported := true } } }

/-! ## The outgoing lane (R82) -/

/-- A frame handed to the lane. -/
def Chip.hand (f : LaneFrame) (p : Chip) : Chip :=
  { p with dlc := { p.dlc with lane := p.dlc.lane ++ [⟨f, p.event⟩] } }

/-- The waiting frame is a MISSING. -/
def LaneFrame.isMissing : LaneFrame → Bool
  | .missing _ => true
  | _ => false

/-- A GRANT handed: at most one waits (R82). -/
def Chip.handGrant (p : Chip) : Chip :=
  if p.dlc.lane.any (fun e => e.frame == .grant) then p else p.hand .grant

/-- A MISSING handed: its flags join a waiting one (R82). -/
def Chip.handMissing (flags : BitVec 8) (p : Chip) : Chip :=
  if p.dlc.lane.any (fun e => e.frame.isMissing) then
    { p with
      dlc := { p.dlc with
        lane := p.dlc.lane.map fun e =>
          match e.frame with
          | .missing old => { e with frame := .missing (old ||| flags) }
          | _ => e } }
  else p.hand (.missing flags)

/-- An OPEN handed: at most one waits (R82). -/
def Chip.handOpen (p : Chip) : Chip :=
  if p.dlc.lane.any (fun e => e.frame == .openLink) then p else p.hand .openLink

/-- An OMIT asked for: handed only while the link is UP, and then the cursor may pass its segment (R102). -/
def Chip.handOmit (segment : Nat) (p : Chip) : Chip :=
  if p.dlc.linkState = .up then
    let p := p.hand (.omitSegment segment)
    { p with dlc := { p.dlc with omits := p.dlc.omits ++ [segment] } }
  else p

/-- The waiting frame is a ROW of the given seq. -/
def LaneFrame.isRow (seq : BitVec 3) : LaneFrame → Bool
  | .row q .. => q == seq
  | _ => false

/-- A retained row's ROW frame taken off the lane (R82, R91, R94). -/
def Chip.unhandRow (seq : BitVec 3) (p : Chip) : Chip :=
  { p with dlc := { p.dlc with lane := p.dlc.lane.filter fun e => !(e.frame.isRow seq) } }

/-- The row of a seq is waiting on the lane. -/
def Chip.rowWaits (p : Chip) (seq : BitVec 3) : Bool := p.dlc.lane.any fun e => e.frame.isRow seq

/-- A live retained row handed again unless it waits; the answer says whether it was (R92, R93). -/
def Chip.resend (p : Chip) (r : Retained) : Chip :=
  match r.words with
  | none => p
  | some ws =>
    if p.rowWaits r.seq then p
    else (p.hand (.row r.seq r.segment r.row ws)).bump .resends 1

/-! ## The run record (R105) -/

/-- The run record changed, if there is one. -/
def Chip.modRun (f : RunRecord → RunRecord) (p : Chip) : Chip :=
  { p with rc := { p.rc with run := p.rc.run.map f } }

/-- The segment at a position (R47). -/
def RunRecord.segmentAt (r : RunRecord) (q : Nat) : Nat := if r.backward then r.t0 - q else r.t0 + q

/-- The position of a segment, if it is one of the run (R47). -/
def RunRecord.positionOf (r : RunRecord) (segment : Nat) : Option Nat :=
  let q := if r.backward then (if segment ≤ r.t0 then some (r.t0 - segment) else none)
    else (if r.t0 ≤ segment then some (segment - r.t0) else none)
  match q with
  | some q => if q < r.length then some q else none
  | none => none

/-- The position lies in the run window (R47). -/
def RunRecord.inWindow (r : RunRecord) (q : Nat) : Bool :=
  r.windowBase ≤ q && q < r.windowBase + 256 && q < r.length

/-- The punch parameters of an EDIT run. -/
def RunRecord.punch (r : RunRecord) : Option Punch :=
  match r.params with
  | .edit x .. => some x
  | _ => none

/-- The position is a span position of an EDIT run (R139). -/
def RunRecord.isSpan (r : RunRecord) (q : Nat) : Bool :=
  match r.params with
  | .edit _ _ qa qb _ => qa ≤ q && q ≤ qb
  | _ => false

/-- The kind of the run in the record. -/
def Chip.runKind (p : Chip) : Option RunKind := p.rc.run.map RunRecord.kind

end Sys2Proof.Machine
end

