-- ==== Sys2Proof/Machine/Values.lean ====
section
/-! DEFINITION. Values the part computes: concealment (R128, R129), mixing (R144, R145), markers (R45, R57), and the
grade arithmetic of copy control (chapter 10). -/

namespace Sys2Proof.Machine

/-! ## Concealment -/

/-- Interpolation between a, at distance ka behind, and b, at distance kb ahead (R128). -/
def interpolate (a b : Int) (ka kb : Nat) : Int :=
  let g : Int := (ka : Int) + kb - 1
  a + (2 * (b - a) * ka + (g + 1)) / (2 * (g + 1))

/-- Hold and fade of a, at distance ka behind, with hold length h and fade exponent m (R129). -/
def holdFade (a : Int) (ka h m : Nat) : Int :=
  if ka ≤ h then a
  else a - (2 * a * ((ka : Int) - h) + 2 ^ m) / (2 ^ (m + 1) : Int)

/-! ## Mixing -/

/-- The five regions of a span segment (R144). -/
inductive Region where
  | before
  | fadeIn
  | new
  | fadeOut
  | after
  deriving DecidableEq, Repr

/-- The crossfade length F (R138). -/
def Punch.length (x : Punch) : Nat := 2 ^ x.f

/-- The region of the pair of absolute index A (R144). -/
def Punch.region (x : Punch) (A : Nat) : Region :=
  if A < x.pin then .before
  else if A < x.pin + x.length then .fadeIn
  else if A < x.pout then .new
  else if A < x.pout + x.length then .fadeOut
  else .after

/-- The pair lies in the edit span (R138). -/
def Punch.inSpan (x : Punch) (A : Nat) : Bool := x.pin ≤ A && A < x.pout + x.length

/-- `x` moved toward `y` by (k + 1) / F, rounded with halves toward plus infinity (R145). -/
def crossfade (x y : Int) (k F : Nat) : Int :=
  x + (2 * (y - x) * ((k : Int) + 1) + F) / (2 * F)

/-- The output for the pair of absolute index A from old value o and new value n (R145). -/
def Punch.mix (x : Punch) (A : Nat) (o n : Int) : Int :=
  match x.region A with
  | .before => o
  | .fadeIn => crossfade o n (A - x.pin) x.length
  | .new => n
  | .fadeOut => crossfade n o (A - x.pout) x.length
  | .after => o

/-! ## Markers -/

/-- A marker bit under its effect (R45). -/
def BitEffect.apply : BitEffect → Bool → Bool
  | .keep, b => b
  | .set, _ => true
  | .clear, _ => false
  | .invert, b => !b

/-- An effect turned over by XOR (R57). -/
def BitEffect.turned : BitEffect → BitEffect
  | .keep => .invert
  | .invert => .keep
  | .set => .clear
  | .clear => .set

/-- The operations of MARK (R150). -/
inductive MarkOp where
  | and
  | or
  | xor
  deriving DecidableEq, Repr

/-- A MARK composed into the effect on a bit whose mask bit is given (R57). -/
def BitEffect.compose (e : BitEffect) (op : MarkOp) (mask : Bool) : BitEffect :=
  match op, mask with
  | .and, false => .clear
  | .and, true => e
  | .or, true => .set
  | .or, false => e
  | .xor, true => e.turned
  | .xor, false => e

/-- A MARK composed into a marker effect (R57). -/
def composeMark (effect : List BitEffect) (op : MarkOp) (mask : Nat) : List BitEffect :=
  effect.zipIdx.map fun (e, i) => e.compose op (mask.testBit i)

/-- The outgoing marker: the base with the effect applied bit by bit (R45). -/
def applyEffect (effect : List BitEffect) (base : Nat) : Nat :=
  (effect.zipIdx.map fun (e, i) => if e.apply (base.testBit i) then 2 ^ i else 0).sum

/-- The outgoing marker of a slot; a base still awaiting counts as 0 (R45, R150). -/
def Slot.outgoingMarker (s : Slot) : Nat := applyEffect s.markerEffect (s.markerBase.getD 0)

/-! ## Grades -/

/-- a is less restrictive than b (spec/00 1.10). -/
def Grade.below (a b : Grade) : Bool := a.code < b.code

/-- The more restrictive of two grades (spec/00 1.10). -/
def Grade.max (a b : Grade) : Grade := if a.code < b.code then b else a

/-- The generation function: none is refusal (spec/10 10.1). -/
def Grade.gen : Grade → Option Grade
  | .free => some .free
  | .one => some .none
  | .none => Option.none

/-- max of a grade and one that may be absent (spec/10 10.1). -/
def Grade.maxOpt (a : Grade) (b : Option Grade) : Grade :=
  match b with
  | Option.some b => a.max b
  | Option.none => a

/-- The material grade of digital input under an incoming grade; none is refused (R173). -/
def Incoming.material : Incoming → Option Grade
  | .known .free => some .free
  | .known .one => some .none
  | .known .none => none
  | .unknown => none

/-- The worst incoming grade after a burst of grade g (R174). -/
def foldGrade (worst : Option Grade) (g : Grade) : Grade := g.maxOpt worst

/-- The worst source after a burst of grade g from source c (R174). -/
def foldSource (worst : Option Grade) (old : Option Source) (g : Grade) (c : Source) : Option Source :=
  match worst with
  | none => some c
  | some w =>
    if w.below g then some c
    else if w = g then (if c = .digital then some .digital else old)
    else old

/-- The source class of a source (R178). -/
def Source.toClass : Source → SourceClass
  | .analog => .analog
  | .digital => .digital

end Sys2Proof.Machine
end

