-- ==== Sys2Proof/Machine/Evaluations.lean ====
section
/-! DEFINITION. The scans of an evaluation over the positions of fetched blocks, as pure functions (R124 to R129). -/

namespace Sys2Proof.Machine

/-- The segment of an absolute index (spec/07 7.2). -/
def segmentOfIndex (A : Nat) : Nat := A / 192

/-- The block of an absolute index within its segment. -/
def blockOfIndex (A : Nat) : Nat := A % 192 / 12

/-- The class of a position (R124). -/
inductive PosClass where
  | good (v : Int)
  | passed
  | pending
  | absent
  deriving DecidableEq, Repr

/-- A block a neighbour fetch was granted for: `words` gives the stored word and the flag of pair slot q in the
evaluation's channel, `slot` the slot record at the grant (R125). -/
structure Fetched where
  segment : Nat
  block : Nat
  slot : Slot
  words : List (Nat × WordFlag)
  deriving DecidableEq, Repr

/-- The class of the position of absolute index A in a granted block (R124). -/
def Fetched.classOf (f : Fetched) (A : Nat) : PosClass :=
  if f.slot.holds f.segment then
    match f.slot.play with
    | .ready =>
      match f.words.getD (A % 192 % 12) (0, .lost) with
      | (_, .lost) => .passed
      | (w, _) => .good (sampleOfCode w)
    | .arriving => .pending
    | .checking => .pending
    | .empty => .absent
  else .absent

/-- The class of a position, if a granted block covers it. -/
def classIn (f : Option Fetched) (A : Nat) : Option PosClass :=
  match f with
  | some f => if segmentOfIndex A = f.segment ∧ blockOfIndex A = f.block then some (f.classOf A) else none
  | none => none

/-- What a scan comes to. -/
inductive ScanResult where
  /-- the evaluation needs the block of the position of absolute index `at` -/
  | fetch (e : Evaluation) (place : Nat)
  /-- the evaluation is held (R133) -/
  | held (e : Evaluation)
  /-- it ends with a value; `byLate`: lateness resolved a hold it would have entered (R13) -/
  | ended (v : Int) (byLate : Bool)
  deriving DecidableEq, Repr

/-- How far ahead the scan looks: Gi - ka + 1 (R127). -/
def Evaluation.reach (e : Evaluation) (ka : Nat) : Nat := e.gap + 1 - ka

/-- The value of hold and fade (R129). -/
def Evaluation.faded (e : Evaluation) (a : Int) (ka : Nat) : Int := holdFade a ka e.hold e.fade

/-- The kind of the evaluation is initiator (R123). -/
def Asker.isInitiator : Asker → Bool
  | .read .. => true
  | _ => false

/-- One position of the look-behind (R126). The other answer is the evaluation to go on with. -/
def Evaluation.lookBehind (e : Evaluation) (f : Option Fetched) : ScanResult ⊕ Evaluation :=
  if e.hold + 2 ^ e.fade < e.distance ∨ e.index < e.distance then .inl (.ended 0 false)
  else
    match classIn f (e.index - e.distance) with
    | none => .inl (.fetch e (e.index - e.distance))
    | some .passed => .inr { e with distance := e.distance + 1 }
    | some (.good a) =>
      if e.distance ≤ e.gap then
        .inr { e with stage := .lookAhead, behind := some (a, e.distance), distance := 1 }
      else .inl (.ended (e.faded a e.distance) false)
    | some .pending => .inl (.ended 0 false)
    | some .absent => .inl (.ended 0 false)

/-- One position of the look-ahead, a at distance ka behind (R127). -/
def Evaluation.lookAhead (e : Evaluation) (late : Bool) (f : Option Fetched) (a : Int) (ka : Nat) :
    ScanResult ⊕ Evaluation :=
  if e.reach ka < e.distance ∨ Config.maxSegment < segmentOfIndex (e.index + e.distance) then
    .inl (.ended (e.faded a ka) false)
  else
    match classIn f (e.index + e.distance) with
    | none => .inl (.fetch e (e.index + e.distance))
    | some .passed => .inr { e with distance := e.distance + 1 }
    | some (.good b) => .inl (.ended (interpolate a b ka e.distance) false)
    | some .absent => .inl (.ended (e.faded a ka) false)
    | some .pending =>
      if e.asker.isInitiator then
        if late then .inl (.ended (e.faded a ka) true)
        else .inl (.held { e with stage := .held, pendingSegment := some (segmentOfIndex (e.index + e.distance)) })
      else .inl (.ended (e.faded a ka) false)

/-- One position of a scan. -/
def Evaluation.scanStep (e : Evaluation) (late : Bool) (f : Option Fetched) : ScanResult ⊕ Evaluation :=
  match e.stage with
  | .lookBehind => e.lookBehind f
  | _ =>
    match e.behind with
    | some (a, ka) => e.lookAhead late f a ka
    | none => .inl (.ended 0 false)

/-- The scan until it stops or leaves the granted block (R125). The fuel covers a block both ways. -/
def Evaluation.scanFrom : Nat → Evaluation → Bool → Option Fetched → ScanResult
  | 0, e, _, _ => .fetch e (e.index - e.distance)
  | n + 1, e, late, f =>
    match e.scanStep late f with
    | .inl r => r
    | .inr e' => Evaluation.scanFrom n e' late f

/-- The scan from where the evaluation stands. -/
def Evaluation.scan (e : Evaluation) (late : Bool) (f : Option Fetched) : ScanResult := e.scanFrom 64 late f

/-- An evaluation as it starts, of pair n, channel c of segment T (R123). -/
def startEvaluation (id : Nat) (asker : Asker) (segment pair channel : Nat) (m : ModeSignal) : Evaluation where
  id := id
  asker := asker
  index := 192 * segment + pair
  channel := channel
  gap := m.gap
  hold := m.hold
  fade := m.fade
  stage := .lookBehind
  distance := 1
  behind := none
  fetch := none
  pendingSegment := none

end Sys2Proof.Machine
end

