-- ==== Sys2Proof/Machine/Reads.lean ====
section
/-! DEFINITION. The operations of the read tracker: offers, waits, holds, completion (R10, R12 to R14). -/

namespace Sys2Proof.Machine

/-- The entries of the tracker. -/
def allEntries : List (Fin 8) := [0, 1, 2, 3, 4, 5, 6, 7]

/-- The read in a tracker entry. -/
def Chip.read (p : Chip) (e : Fin 8) : Option Read := p.lbp.reads[e]

/-- A tracker entry replaced. -/
def Chip.setRead (e : Fin 8) (r : Option Read) (p : Chip) : Chip :=
  { p with lbp := { p.lbp with reads := p.lbp.reads.set e r } }

/-- The read in an entry changed, if there is one. -/
def Chip.modRead (e : Fin 8) (f : Read → Read) (p : Chip) : Chip := p.setRead e ((p.read e).map f)

/-- A read offered to MP (R12). -/
def Chip.offerRead (e : Fin 8) (p : Chip) : Chip :=
  (p.modRead e fun r => { r with state := .offered }).offer (.read e)

/-- The wait on a write that has left ends for the read in an entry (R14). -/
def Chip.endWaitAt (w : Wait) (p : Chip) (e : Fin 8) : Chip :=
  match p.read e with
  | none => p
  | some r =>
    if r.state = .waiting ∧ w ∈ r.waits then
      let rest := r.waits.filter (· != w)
      let p := p.setRead e (some { r with waits := rest })
      if rest.isEmpty then p.offerRead e else p
    else p

/-- A write that reads may wait on has left (R14). -/
def Chip.endWait (w : Wait) (p : Chip) : Chip := allEntries.foldl (Chip.endWaitAt w) p

/-- An answer returned to an initiator. -/
def Chip.respond (r : Response) (p : Chip) : Chip :=
  { p with lbp := { p.lbp with responses := p.lbp.responses ++ [r] } }

/-- The output segment record after the completion of an audio-view read (R10). -/
def Chip.noteOutput (r : Read) (material : OutRecord) (p : Chip) : Chip :=
  match r.range with
  | .audioView _ =>
    if r.initiator.val = p.cpm.map.digitalOut then { p with lbp := { p.lbp with outRecord := material } } else p
  | _ => p

/-- The read in an entry completes with the given words (R12). -/
def Chip.completeRead (e : Fin 8) (words : List Word) (material : OutRecord) (p : Chip) : Chip :=
  match p.read e with
  | none => p
  | some r => ((p.respond (.data r.initiator r.tag words)).noteOutput r material).setRead e none

/-- The read in an entry completes with every word 0 (R9, R13). -/
def Chip.completeZeros (e : Fin 8) (p : Chip) : Chip :=
  match p.read e with
  | none => p
  | some r => p.completeRead e (List.replicate r.len 0) .none

/-- The read in an entry completes if every word has its value (R9). -/
def Chip.readProceed (e : Fin 8) (p : Chip) : Chip :=
  match p.read e with
  | none => p
  | some r =>
    if (r.state = .concealing ∨ r.state = .heldOnNeighbour) ∧ r.values.all Option.isSome then
      p.completeRead e (r.values.map fun v => v.getD 0) r.material
    else p

/-- The read in an entry enters HELD; the first time its timer starts and held reads advance (R13). -/
def Chip.holdRead (e : Fin 8) (st : ReadState) (p : Chip) : Chip :=
  match p.read e with
  | none => p
  | some r =>
    match r.holdTimer with
    | some _ => p.setRead e (some { r with state := st })
    | none => (p.setRead e (some { r with state := st, holdTimer := some p.cpm.signal.holdLimit })).bump .heldReads 1

/-- Lateness resolves a hold of the read: READ_LATE advances, once per read (R13). -/
def Chip.countLate (e : Fin 8) (p : Chip) : Chip :=
  match p.read e with
  | none => p
  | some r => if r.lateCounted then p else (p.setRead e (some { r with lateCounted := true })).bump .readLate 1

/-- The read in an entry is late (R13). -/
def Chip.isLate (p : Chip) (e : Fin 8) : Bool :=
  match p.read e with
  | none => false
  | some r => r.late

/-- A value for one word of a read. -/
def Chip.setReadValue (e : Fin 8) (index : Nat) (v : Word) (p : Chip) : Chip :=
  p.modRead e fun r => { r with values := r.values.set index (some v) }

/-- Reads held on a slot are offered again as it becomes READY (R13). -/
def Chip.reofferHeld (slot : Fin 128) (p : Chip) : Chip :=
  allEntries.foldl (fun p e =>
    match p.read e with
    | none => p
    | some r =>
      match r.range with
      | .audioView place => if r.state = .heldOnSlot ∧ place.slot = slot then p.offerRead e else p
      | _ => p) p

/-- Held reads, and reads CU is concealing words of, complete with zeros (R13, R20, R137, log 14), entry by
entry from entry 0 on (the model's choice, log 43). -/
def Chip.releaseReads (p : Chip) : Chip :=
  allEntries.foldl (fun p e =>
    match p.read e with
    | none => p
    | some r =>
      if r.state = .heldOnSlot ∨ r.state = .heldOnNeighbour ∨ r.state = .concealing then p.completeZeros e else p) p

end Sys2Proof.Machine
end

