-- ==== Sys2Proof/Machine/Engines.lean ====
section
/-! DEFINITION. The operations of the engines that work behind the slot table: coding and decoding (chapter 4),
evaluations (chapter 7), the undo stack, saves and loads (chapter 9). -/

namespace Sys2Proof.Machine

/-! ## Code items (R65 to R67) -/

/-- CE's item in progress set. -/
def Chip.setJob (j : Option CeJob) (p : Chip) : Chip := { p with ce := { p.ce with job := j } }

/-- An item queued with CE (R77). -/
def Chip.queueItem (it : CeItem) (p : Chip) : Chip :=
  { p with ce := { p.ce with queue := p.ce.queue ++ [⟨it, p.event⟩] } }

/-- The items at the front of the queue that may be taken: those queued together with the first (R77, R78). -/
def Ce.front (c : Ce) : List CeItem :=
  match c.queue with
  | [] => []
  | e :: _ => (c.queue.takeWhile fun x => x.stamp == e.stamp).map CeEntry.item

/-- The item out of the queue and in progress. -/
def Chip.takeItem (it : CeItem) (j : CeJob) (p : Chip) : Chip :=
  { p with ce := { queue := p.ce.queue.eraseP fun e => e.item == it, job := some j } }

/-- The audio code value at position i of the block (R66, R144, R145); an unwritten word of a RECORD slot, and every
word of FILL, is silence. -/
def CodeJob.audioValue (j : CodeJob) (i : Nat) : Nat :=
  let new := j.new.getD i none
  match j.punch with
  | none => codeOfSample (new.getD 0)
  | some x =>
    let o := (j.old.getD i none).getD 0
    codeOfSample (x.mix (192 * j.segment + 12 * j.block + i / 2) o (new.getD o))

/-- The values of positions 24 to 27 (R42). -/
def CodeJob.auxValues (j : CodeJob) : List Nat :=
  [j.segment, formatWordOf j.block j.rate j.writer, j.copyWord, j.marker]

/-- The block as coded (R64, R66). -/
def CodeJob.blockValues (j : CodeJob) : List Nat :=
  encodeBlock ((List.range 24).map j.audioValue ++ j.auxValues)

/-- The write of a formed block offered (R67). -/
def Chip.offerCodeWrite (j : CodeJob) (p : Chip) : Chip :=
  (p.setJob (some (.code { j with stage := .blockWrite j.blockValues }))).offer .codeEngine

/-- The next block begun: its inputs read, or, with FILL, its write offered at once (R66). -/
def Chip.beginCodeBlock (j : CodeJob) (p : Chip) : Chip :=
  let j := { j with old := [], new := [] }
  match j.material with
  | .fill => p.offerCodeWrite j
  | _ => (p.setJob (some (.code { j with stage := .blockRead }))).offer .codeEngine

/-- CU still evaluates words for CE. -/
def Cu.servesCode (c : Cu) : Bool :=
  c.evals.any fun e => match e.asker with
    | .codeEngine _ => true
    | _ => false

/-- CU still evaluates words for the save in progress. -/
def Cu.servesSave (c : Cu) : Bool :=
  c.evals.any fun e => match e.asker with
    | .save _ => true
    | _ => false

/-- CE goes on once the evaluations of a block are in: a void item ends, another writes its block (R65, R79). -/
def Chip.codeProceed (p : Chip) : Chip :=
  match p.ce.job with
  | some (.code j) =>
    match j.stage with
    | .concealing =>
      if j.void then (if p.cu.servesCode then p else p.setJob none)
      else if j.old.all Option.isSome then p.offerCodeWrite j
      else p
    | _ => p
  | _ => p

/-! ## Copies into the clip store and the undo store (R154, R163) -/

/-- The capture goes on once every value of its block is present (R154). -/
def Chip.captureProceed (id : Nat) (p : Chip) : Chip :=
  match p.ecu.capture with
  | some c =>
    if c.id = id ∧ c.stage = .concealing ∧ c.values.all Option.isSome then
      { p with ecu := { p.ecu with capture := some { c with stage := .writing } } }.offer .capture
    else p
  | none => p

/-- The save goes on: a void one ends when its evaluations are in, another writes its block (R163, R164). -/
def Chip.saveProceed (p : Chip) : Chip :=
  match p.ecu.saving with
  | some j =>
    if j.stage = .concealing then
      if j.void then (if p.cu.servesSave then p else { p with ecu := { p.ecu with saving := none } })
      else if j.values.all Option.isSome then
        { p with ecu := { p.ecu with saving := some { j with stage := .writing } } }.offer .save
      else p
    else p
  | none => p

/-! ## Evaluations (R123, R133 to R135) -/

/-- The evaluation of an id. -/
def Chip.evaluation (p : Chip) (id : Nat) : Option Evaluation := p.cu.evals.find? fun e => e.id == id

/-- An evaluation out of CU. -/
def Chip.dropEval (id : Nat) (p : Chip) : Chip :=
  { p with cu := { p.cu with evals := p.cu.evals.filter fun e => e.id != id } }

/-- An evaluation kept in CU, in place of the one of the same id. -/
def Chip.putEval (e : Evaluation) (p : Chip) : Chip :=
  if p.cu.evals.any (fun x => x.id == e.id) then
    { p with cu := { p.cu with evals := p.cu.evals.map fun x => if x.id == e.id then e else x } }
  else { p with cu := { p.cu with evals := p.cu.evals ++ [e] } }

/-- The asker of an evaluation takes its value (R123); one whose work has ended discards it (R79, R156, R164). -/
def Chip.deliver (asker : Asker) (v : Int) (p : Chip) : Chip :=
  match asker with
  | .read e i => p.setReadValue e i (sampleWord v)
  | .codeEngine i =>
    match p.ce.job with
    | some (.code j) => p.setJob (some (.code { j with old := j.old.set i (some v) }))
    | _ => p
  | .capture id i =>
    match p.ecu.capture with
    | some c =>
      if c.id = id then
        { p with ecu := { p.ecu with capture := some { c with values := c.values.set i (some (codeOfSample v)) } } }
      else p
    | none => p
  | .save i =>
    match p.ecu.saving with
    | some j =>
      { p with ecu := { p.ecu with saving := some { j with values := j.values.set i (some (codeOfSample v)) } } }
    | none => p

/-- The asker goes on if it has all it waited for. -/
def Chip.proceed (asker : Asker) (p : Chip) : Chip :=
  match asker with
  | .read e _ => p.readProceed e
  | .codeEngine _ => p.codeProceed
  | .capture id _ => p.captureProceed id
  | .save _ => p.saveProceed

/-- The read an evaluation belongs to is late (R127). -/
def Chip.askerLate (p : Chip) (asker : Asker) : Bool :=
  match asker with
  | .read e _ => p.isLate e
  | _ => false

/-- What a scan comes to: a fetch is offered, the evaluation is held, or its value goes to the asker. -/
def Chip.applyScan (id : Nat) (asker : Asker) (r : ScanResult) (p : Chip) : Chip :=
  match r with
  | .fetch e place =>
    (p.putEval { e with
      fetch := some ⟨segmentOfIndex place, blockOfIndex place, p.cpm.map.privateBase⟩ }).offer (.neighbour id)
  | .held e =>
    let p := p.putEval { e with fetch := none }
    match asker with
    | .read entry _ => p.holdRead entry .heldOnNeighbour
    | _ => p
  | .ended v byLate =>
    let p := (p.dropEval id).deliver asker v
    match asker with
    | .read entry _ => if byLate then p.countLate entry else p
    | _ => p

/-- An evaluation of pair n, channel c of segment T started for an asker (R123). -/
def Chip.startEval (segment pair channel : Nat) (asker : Asker) (p : Chip) : Chip :=
  let id := p.cu.nextId
  let e := startEvaluation id asker segment pair channel p.cpm.signal
  let p := { p with cu := { p.cu with nextId := id + 1 } }
  p.applyScan id asker (e.scan (p.askerLate asker) none)

/-- Evaluations held on a segment resume their look-ahead where it stopped (R134). -/
def Chip.resumeHeld (segment : Nat) (p : Chip) : Chip :=
  (p.cu.evals.filter fun e => e.stage = .held ∧ e.pendingSegment = some segment).foldl
    (fun p e => p.applyScan e.id e.asker
      (.fetch { e with stage := .lookAhead, pendingSegment := none } (e.index + e.distance))) p

/-- The held evaluations of a read end with hold and fade as it becomes late (R134). -/
def Chip.endHeldOf (entry : Fin 8) (p : Chip) : Chip :=
  (p.cu.evals.filter fun e =>
    e.stage == .held && (match e.asker with
      | .read x _ => x == entry
      | _ => false)).foldl
    (fun p e => match e.behind with
      | some (a, ka) => p.applyScan e.id e.asker (.ended (e.faded a ka) false)
      | none => p.applyScan e.id e.asker (.ended 0 false)) p

/-- Initiator evaluations end without values, their fetches withdrawn (R134, R137). -/
def Chip.endReadEvals (p : Chip) : Chip :=
  (p.cu.evals.filter fun e => e.asker.isInitiator).foldl
    (fun p e =>
      let p := p.dropEval e.id
      match e.fetch with
      | some _ => p.withdraw (.neighbour e.id)
      | none => p) p

/-! ## Decode items (R76, R79) -/

/-- The notices of the aux recovery (R44): T_MISMATCH first. -/
def Chip.noteAux (j : DecodeJob) (p : Chip) : Chip :=
  let mism := mismatchedBlocks j.segment j.aux
  let p := if mism = 0 then p else p.raise (.tMismatch j.segment mism)
  match recoverAux j.segment j.aux with
  | .unrecovered => p.raise (.auxLost j.segment (unqualifiedBlocks j.segment j.aux))
  | _ => p

/-- A decode item goes on after its block: the next block is read; after block 15 the aux is recovered and the final
write offered, or a void item ends (R76, R79). -/
def Chip.decodeAdvance (j : DecodeJob) (p : Chip) : Chip :=
  if j.block < 15 then
    (p.setJob (some (.decode { j with block := j.block + 1, stage := .blockRead }))).offer .codeEngine
  else
    let p := p.noteAux j
    if j.void then p.setJob none
    else
      (p.setJob (some (.decode { j with stage := .finalWrite, recovered := recoverAux j.segment j.aux }))).offer
        .codeEngine

/-- The item is the decode item of a slot. -/
def CeItem.decodes (i : Fin 128) : CeItem → Bool
  | .decode s .. => s == i
  | .code .. => false

/-- The item is the code item of a slot. -/
def CeItem.codes (i : Fin 128) : CeItem → Bool
  | .decode .. => false
  | .code s .. => s == i

/-- Queued items out of the queue (R79). -/
def Chip.unqueue (out : CeItem → Bool) (p : Chip) : Chip :=
  { p with ce := { p.ce with queue := p.ce.queue.filter fun e => !(out e.item) } }

/-- The decode item of a slot withdrawn or made void (R79). -/
def Chip.voidDecode (i : Fin 128) (p : Chip) : Chip :=
  let p := p.unqueue (CeItem.decodes i)
  match p.ce.job with
  | some (.decode j) =>
    if j.slot = i ∧ j.void = false then
      let j := { j with void := true }
      match j.stage with
      | .blockRead => p.setJob (some (.decode j))
      | .blockWrite _ => (p.withdraw .codeEngine).decodeAdvance j
      | .finalWrite => (p.withdraw .codeEngine).setJob none
    else p
  | _ => p

/-- The code item of a slot withdrawn or made void (R79). -/
def Chip.voidCode (i : Fin 128) (p : Chip) : Chip :=
  let p := p.unqueue (CeItem.codes i)
  match p.ce.job with
  | some (.code j) =>
    if j.slot = i ∧ j.void = false then
      match j.stage with
      | .concealing =>
        if p.cu.servesCode then p.setJob (some (.code { j with void := true })) else p.setJob none
      | _ => (p.withdraw .codeEngine).setJob none
    else p
  | _ => p

/-! ## Undo images and stack (R161, R165) -/

/-- An image record replaced. -/
def Chip.setImage (u : Fin 256) (r : ImageRecord) (p : Chip) : Chip :=
  { p with ecu := { p.ecu with images := p.ecu.images.set u r } }

/-- An image marked free. -/
def Chip.freeImage (u : Fin 256) (p : Chip) : Chip := p.setImage u ImageRecord.reset

/-- The lowest-numbered free image (R161). -/
def Ecu.freeImage? (e : Ecu) : Option (Fin 256) :=
  (List.finRange 256).find? fun u => !(e.images[u]).used

/-- The depth of a stack in words. -/
def stackDepth (es : List StackEntry) : Nat := (es.map fun e => e.words.length).sum

/-- The entry is a RUN entry. -/
def StackEntry.isRun : StackEntry → Bool
  | .seg .. => false
  | .run .. => true

/-- The class-6 write of words into the mirror, from a ring index on (R161; the private base is the one held at the
offer, log 21). -/
def Chip.offerMirror (place : Nat) (ws : List Word) (p : Chip) : Chip :=
  p.offer (.mirror (ws.zipIdx.map fun (w, k) => (stackAddr p.cpm.map.privateBase (place + k), w)))

/-- An entry pushed on the stack (R161). -/
def Chip.pushEntry (e : StackEntry) (p : Chip) : Chip :=
  let p := p.offerMirror (p.ecu.bottom + stackDepth p.ecu.stack) e.words
  { p with ecu := { p.ecu with stack := p.ecu.stack ++ [e] } }

/-- The image an entry names freed. -/
def Chip.freeNamed (e : StackEntry) (p : Chip) : Chip :=
  match e with
  | .seg _ u => p.freeImage u
  | .run .. => p

/-- The top entry removed and the image it names freed (R161, R171). -/
def Chip.popEntry (p : Chip) : Chip :=
  match p.ecu.stack.getLast? with
  | none => p
  | some e =>
    let rest := p.ecu.stack.dropLast
    let p := p.offerMirror (p.ecu.bottom + stackDepth rest) (List.replicate e.words.length 0)
    { p with ecu := { p.ecu with stack := rest } }.freeNamed e

/-- The bottom entry removed and the image it names freed (R161, R165). -/
def Chip.dropEntry (p : Chip) : Chip :=
  match p.ecu.stack with
  | [] => p
  | e :: rest =>
    let p := p.offerMirror p.ecu.bottom (List.replicate e.words.length 0)
    { p with
      ecu := { p.ecu with
        stack := rest
        bottom := (p.ecu.bottom + e.words.length) % Config.stackWords } }.freeNamed e

/-- The oldest whole run dropped: the entries from the bottom up to and with the first RUN entry (R165). -/
def Chip.dropRun (p : Chip) : Chip :=
  let size := (p.ecu.stack.takeWhile fun e => !e.isRun).length + 1
  (List.replicate size ()).foldl (fun p _ => p.dropEntry) p

/-- A whole run is on the stack. -/
def Ecu.wholeRun (e : Ecu) : Bool := e.stack.any StackEntry.isRun

/-- Whole runs dropped, oldest first, until a need is met or none is left (R165). The fuel is the number of entries. -/
def secure (met : Ecu → Bool) : Nat → Chip → Chip
  | 0, p => p
  | n + 1, p => if met p.ecu || !p.ecu.wholeRun then p else secure met n p.dropRun

/-- Room for n words on the stack secured (R165). -/
def Chip.secureWords (n : Nat) (p : Chip) : Chip :=
  secure (fun e => stackDepth e.stack + n ≤ Config.stackWords) p.ecu.stack.length p

/-- A free image secured, if one can be (R165). -/
def Chip.secureImage (p : Chip) : Chip :=
  secure (fun e => e.freeImage?.isSome) p.ecu.stack.length p

/-! ## Saves and loads (R164, R169) -/

/-- The save in progress made void: its request is withdrawn, its image is free, and it ends once its evaluations
are in (R164). -/
def Chip.voidSaving (j : SaveJob) (p : Chip) : Chip :=
  let p := p.freeImage j.save.image
  match j.stage with
  | .concealing =>
    let p := { p with ecu := { p.ecu with saving := some { j with void := true } } }
    p.saveProceed
  | _ => { p with ecu := { p.ecu with saving := none } }.withdraw .save

/-- The save of a slot made void (R164). -/
def Chip.voidSave (i : Fin 128) (p : Chip) : Chip :=
  let p := (p.ecu.saves.filter fun x => x.slot == i).foldl (fun p x => p.freeImage x.image) p
  let p := { p with ecu := { p.ecu with saves := p.ecu.saves.filter fun x => x.slot != i } }
  let p := match p.ecu.saving with
    | some j => if j.save.slot = i ∧ j.void = false then p.voidSaving j else p
    | none => p
  p.modSlot i fun s => if s.undoSave = .inProgress then { s with undoSave := .none } else s

/-- A load begun for a slot (R168, R169). -/
def Chip.beginLoad (l : Load) (p : Chip) : Chip :=
  { p with ecu := { p.ecu with loads := p.ecu.loads ++ [l] } }.offer (.load l.slot)

/-- The load of a slot. -/
def Chip.loadOf (p : Chip) (i : Fin 128) : Option Load := p.ecu.loads.find? fun l => l.slot == i

/-- A load out of ECU. -/
def Chip.dropLoad (i : Fin 128) (p : Chip) : Chip :=
  { p with ecu := { p.ecu with loads := p.ecu.loads.filter fun l => l.slot != i } }

/-- The load of a slot made void (R169). -/
def Chip.voidLoad (i : Fin 128) (p : Chip) : Chip :=
  match p.loadOf i with
  | some _ => (p.dropLoad i).withdraw (.load i)
  | none => p

/-! ## The fetch of a WRITE row (R90) -/

/-- The offered fetch withdrawn (R18, R90). -/
def Chip.withdrawFetch (p : Chip) : Chip :=
  match p.dlc.fetch with
  | some _ => { p with dlc := { p.dlc with fetch := none } }.withdraw .rowFetch
  | none => p

/-- The offered fetch withdrawn if it is for a slot (R90). -/
def Chip.withdrawFetchOf (i : Fin 128) (p : Chip) : Chip :=
  match p.dlc.fetch with
  | some f => if f.slot = i then p.withdrawFetch else p
  | none => p

end Sys2Proof.Machine
end

