-- ==== Sys2Proof/Machine/Slots.lean ====
section
/-! DEFINITION. The operations of the slot table: needed pairs, the queue test, closing, discarding, setting aside,
release, claims, acknowledgements (chapter 3, R141, R143, R168, R170). -/

namespace Sys2Proof.Machine

/-! ## The written pairs (R48, R55, R56) -/

/-- The pair of a segment is one of its needed pairs (R48, R144). -/
def RunRecord.needs (r : RunRecord) (segment pair : Nat) : Bool :=
  match r.kind with
  | .record => true
  | .edit => match r.punch with
    | some x => x.inSpan (192 * segment + pair)
    | none => false
  | .play => false
  | .revert => false

/-- The pair is needed by the slot's write side. -/
def Chip.needs (p : Chip) (i : Fin 128) (pair : Nat) : Bool :=
  match p.rc.run with
  | some r => r.needs (p.slot i).segment pair
  | none => false

/-- The channels of needed pairs that are not written. -/
def Chip.unwritten (p : Chip) (i : Fin 128) : Nat :=
  (List.range 384).countP fun k => p.needs i (k / 2) && !((p.slot i).written.getLsbD k)

/-! ## The play side (R53) -/

/-- All 30 rows of the slot are in (R45). -/
def Slot.allIn (s : Slot) : Bool := (List.finRange 30).all fun r => s.rows[r] != .notIn

/-- The play side goes to CHECKING and its decode item is queued (R53). -/
def Chip.queueDecode (i : Fin 128) (p : Chip) : Chip :=
  let s := p.slot i
  (p.setSlot i { s with play := .checking }).queueItem (.decode i s.segment s.serial s.rows)

/-- An ARRIVING play side given up: its rows not in count as void (R53, R116, R121). -/
def Chip.giveUpPlay (i : Fin 128) (p : Chip) : Chip :=
  if (p.slot i).claimed ∧ (p.slot i).play = .arriving then p.queueDecode i else p

/-! ## The queue test (R57) -/

/-- The conditions of R57 hold for a CLOSED slot. -/
def Chip.mayCode (p : Chip) (r : RunRecord) (i : Fin 128) : Bool :=
  match r.kind with
  | .play => false
  | .record => true
  | .edit => (p.slot i).play == .ready && (p.slot i).undoSave != .inProgress
  | .revert => (p.loadOf i).isNone

/-- The code item of a CLOSED slot queued if its conditions hold (R57). -/
def Chip.queueTest (i : Fin 128) (p : Chip) : Chip :=
  let s := p.slot i
  match p.rc.run with
  | none => p
  | some r =>
    if s.claimed ∧ s.write = .closed ∧ p.ce.queue.any (fun e => e.item.codes i) = false ∧ p.mayCode r i then
      p.queueItem (.code i s.segment s.serial s.material (r.writer.getD .record) r.punch)
    else p

/-! ## Release (R49, R50, R117) -/

/-- The lowest position of a slot that has not been released. -/
def Slot.unreleased (s : Slot) : Nat := if s.claimed then s.position else s.nextPosition

/-- The window base: the lowest position not released (R47). -/
def Chip.moveWindow (p : Chip) : Chip :=
  p.modRun fun r =>
    { r with windowBase := allSlots.foldl (fun m i => min m (p.slot i).unreleased) r.length }

/-- A slot released: what serves its claim is withdrawn or made void (R49, R79, R90, R164, R169). -/
def Chip.releaseSlot (i : Fin 128) (p : Chip) : Chip :=
  let p := ((((p.voidDecode i).voidCode i).voidSave i).voidLoad i).withdrawFetchOf i
  p.modSlot i fun s => Slot.releasedWith s.serial s.overrun s.nextPosition

/-- A slot released, and the window base moved (R49). -/
def Chip.release (i : Fin 128) (p : Chip) : Chip := (p.releaseSlot i).moveWindow

/-- The write side is IDLE or DONE. -/
def Slot.writeOver (s : Slot) : Bool := s.write == .idle || s.write == .done

/-- The release conditions of R50, and in a drain the further one of R117. The other releases of REVERT are made where
its write side is discarded and where the cursor passes a gap. -/
def Chip.mayRelease (p : Chip) (i : Fin 128) : Bool :=
  let s := p.slot i
  match p.rc.run with
  | none => false
  | some r =>
    s.claimed &&
      ((match r.kind with
        | .play => s.play == .ready && s.consumed && s.pins == 0
        | .edit => s.play == .ready && s.consumed && s.pins == 0 && s.writeOver
        | .record => s.writeOver
        | .revert => s.write == .done)
      || (p.rc.state == .draining && s.play == .empty && s.writeOver))

/-- The release conditions tested (R50). -/
def Chip.releaseTest (i : Fin 128) (p : Chip) : Chip := if p.mayRelease i then p.release i else p

/-- Every slot released and every overrun record discarded (R62). -/
def Chip.releaseAll (p : Chip) : Chip :=
  let p := allSlots.foldl (fun p i => if (p.slot i).claimed then p.releaseSlot i else p) p
  allSlots.foldl (fun p i =>
    match (p.slot i).overrun with
    | some _ => p.modSlot i fun s => { s with overrun := none }
    | none => p) p

/-! ## Ends of a write side (R59, R141) -/

/-- The write side of an EDIT or REVERT run settled (R151, R171). -/
def Chip.settle (p : Chip) : Chip := p.modRun fun r => { r with settledCount := r.settledCount + 1 }

/-- A write side discarded (R59, log 28): IDLE, its fields cleared, what serves it withdrawn or made void. -/
def Chip.discardWrite (i : Fin 128) (p : Chip) : Chip :=
  let p := (((p.voidCode i).voidSave i).voidLoad i).withdrawFetchOf i
  p.modSlot i fun s => { s with
    write := .idle
    written := 0
    material := .live
    worstGrade := none
    worstSource := none
    analogWritten := false
    rowsAcked := 0
    clipCount := 0
    underrunCount := 0 }

/-- A span write side set aside (R141): IDLE, its fields kept, its save void, settled. -/
def Chip.setAside (i : Fin 128) (p : Chip) : Chip :=
  ((p.voidSave i).modSlot i fun s => { s with write := .idle }).settle

/-- A FILLING slot closed by DUE (R56, R114): the unwritten channels counted, and FILL where no word of a RECORD slot
is written. -/
def Chip.closeByDue (i : Fin 128) (p : Chip) : Chip :=
  let n := p.unwritten i
  let fill : Bool := p.runKind == some .record && (p.slot i).written == 0
  let p := p.modSlot i fun s => { s with
    write := .closed
    underrunCount := s.underrunCount + n
    material := if fill then .fill else s.material }
  (p.bump .underrun 1).queueTest i

/-! ## Claims (R48, R52, R114, R143, R170) -/

/-- The SEG entries of the run a REVERT reverts (R167). -/
def Chip.revertEntries (p : Chip) (r : RunRecord) : List StackEntry :=
  match r.params with
  | .revert _ place count => (p.ecu.stack.drop place).take count
  | _ => []

/-- The image saved for a segment among SEG entries. -/
def imageFor (segment : Nat) (es : List StackEntry) : Option (Fin 256) :=
  es.findSome? fun e => match e with
    | .seg t u => if t = segment then some u else none
    | .run .. => none

/-- How a claim sets a write side: its state, material source and marker base (R48). -/
structure WriteSide where
  write : WriteState
  material : Material
  base : Option Nat
  deriving DecidableEq, Repr

/-- The write side of a position by run kind (R48). -/
def Chip.writeSide (p : Chip) (r : RunRecord) (q : Nat) : WriteSide :=
  match r.kind with
  | .play => ⟨.idle, .live, some 0⟩
  | .record => ⟨.filling, .live, some 0⟩
  | .edit =>
    if r.isSpan q then
      match r.params with
      | .edit _ (some k) .. => ⟨.closed, .clip k, none⟩
      | _ => ⟨.filling, .live, none⟩
    else ⟨.idle, .live, some 0⟩
  | .revert =>
    match imageFor (r.segmentAt q) (p.revertEntries r) with
    | some u => ⟨.closed, .image u, some (p.ecu.images[u]).marker⟩
    | none => ⟨.idle, .live, some 0⟩

/-- The row records a claim starts with: the written-off rows of an overrun record of its segment (R48, R52). -/
def claimedRows (overrun : Option (Nat × BitVec 30)) (segment : Nat) : Vector RowRecord 30 :=
  match overrun with
  | some (t, set) =>
    if t = segment then
      (List.finRange 30).foldl (fun (v : Vector RowRecord 30) (r : Fin 30) => if set.getLsbD r.val then v.set r .writtenOff else v)
        (Vector.replicate 30 .notIn)
    else Vector.replicate 30 .notIn
  | none => Vector.replicate 30 .notIn

/-- The record of a slot claimed for position q (R48). -/
def Chip.claimedSlot (p : Chip) (r : RunRecord) (q : Nat) (old : Slot) : Slot :=
  let side := p.writeSide r q
  let rows := claimedRows old.overrun (r.segmentAt q)
  { Slot.releasedWith (old.serial + 1) none (q + 128) with
    claimed := true
    segment := r.segmentAt q
    position := q
    rows := rows
    play := if (List.finRange 30).any (fun x => rows[x] != .notIn) then .arriving else .empty
    write := side.write
    material := side.material
    markerBase := side.base }

/-- The position is at or below the due horizon. -/
def RunRecord.passed (r : RunRecord) (q : Nat) : Bool :=
  match r.dueHorizon with
  | some h => q ≤ h
  | none => false

/-- What a claim at or below the due horizon does to the write side (R114, R143, R170). -/
def Chip.claimPassed (r : RunRecord) (i : Fin 128) (p : Chip) : Chip :=
  let s := p.slot i
  match r.kind with
  | .play => p
  | .record => p.closeByDue i
  | .edit =>
    if s.write = .idle then p
    else
      (((p.handOmit s.segment).raise (.editBroken s.segment s.play s.write true)).discardWrite i).settle
  | .revert =>
    if s.write = .idle then p
    else (((p.discardWrite i).handOmit s.segment).settle).release i

/-- A REVERT slot with an image begins its load (R168). -/
def Chip.beginLoadOf (i : Fin 128) (p : Chip) : Chip :=
  let s := p.slot i
  match s.material with
  | .image u => p.beginLoad ⟨i, s.serial, u, p.cpm.map.privateBase, 0, none⟩
  | _ => p

/-- A free slot claimed for position q (R48). -/
def Chip.claimSlot (r : RunRecord) (q : Nat) (i : Fin 128) (p : Chip) : Chip :=
  let p := p.setSlot i (p.claimedSlot r q (p.slot i))
  let p := if (p.slot i).allIn then p.queueDecode i else p
  if r.passed q then p.claimPassed r i else p.beginLoadOf i

/-- The slot of position q claimed for it, if it is free (R48). -/
def Chip.claim (q : Nat) (p : Chip) : Chip :=
  match p.rc.run with
  | none => p
  | some r =>
    let i := slotOf (r.segmentAt q)
    if (p.slot i).claimed then p else p.claimSlot r q i

/-! ## Consumption, pins, acknowledgements (R58, R60, R61) -/

/-- A segment handed as consumed (R60). -/
def Chip.consume (segment : Nat) (p : Chip) : Chip :=
  let i := slotOf segment
  if (p.slot i).holds segment then (p.modSlot i fun s => { s with consumed := true }).releaseTest i else p

/-- A slot unpinned (R61). -/
def Chip.unpin (i : Fin 128) (p : Chip) : Chip :=
  (p.modSlot i fun s => { s with pins := s.pins - 1 }).releaseTest i

/-- A write side reaches DONE (R58, R151, R171). -/
def Chip.writeDone (i : Fin 128) (p : Chip) : Chip :=
  let p := p.modSlot i fun s => { s with write := .done }
  let p := p.modRun fun r => { r with doneCount := r.doneCount + 1 }
  let p := match p.runKind with
    | some .edit => p.settle
    | some .revert => p.settle
    | _ => p
  p.releaseTest i

/-- The acknowledgement of a row reported to ST (R58, R91). -/
def Chip.rowAcked (e : Retained) (p : Chip) : Chip :=
  let s := p.slot e.slot
  if s.holds e.segment ∧ s.serial = e.serial ∧ s.write = .sending then
    let acked := s.rowsAcked ||| BitVec.ofNat 30 (2 ^ e.row)
    let p := p.modSlot e.slot fun s => { s with rowsAcked := acked }
    if acked = BitVec.allOnes 30 then p.writeDone e.slot else p
  else p

end Sys2Proof.Machine
end

