-- ==== Sys2Proof/Machine/Runs.lean ====
section
/-! DEFINITION. The operations of the run controller: the send cursor, claims as the window moves, the end of a run,
aborts, drains, run start, and the application of mode values (chapters 5, 6, 9, R26 to R28). -/

namespace Sys2Proof.Machine

/-! ## The send cursor and the claims that follow releases (R48, R89) -/

/-- The cursor passes position c: its rows are all sent, its write side is IDLE, an OMIT was handed for it (R89), or
its slot has been released (log 16). -/
def Chip.cursorPasses (p : Chip) (r : RunRecord) (c : Nat) : Bool :=
  let t := r.segmentAt c
  let s := p.slot (slotOf t)
  p.dlc.cursorRow == 30 || p.dlc.omits.contains t || (s.holds t && s.write == .idle) || c < s.unreleased

/-- The cursor at the next position; a gap of a REVERT run is released at the pass (R89, R168). -/
def Chip.passCursor (r : RunRecord) (p : Chip) : Chip :=
  let t := r.segmentAt p.dlc.cursorPos
  let s := p.slot (slotOf t)
  let p := { p with dlc := { p.dlc with cursorPos := p.dlc.cursorPos + 1, cursorRow := 0 } }
  if r.kind = .revert ∧ s.holds t ∧ s.write = .idle then p.release (slotOf t) else p

/-- One move of the cursor, if it may move. -/
def Chip.cursorStep (p : Chip) : Option Chip :=
  match p.rc.run with
  | none => none
  | some r =>
    if p.rc.state ≠ .idle ∧ p.dlc.cursorStopped = false ∧ p.dlc.cursorPos < r.length
        ∧ p.cursorPasses r p.dlc.cursorPos then
      some (p.passCursor r)
    else none

/-- The lowest position a free slot may be claimed for: its next position, in the window of an ACTIVE run (R48). -/
def Chip.nextClaim (p : Chip) : Option Nat :=
  match p.rc.run with
  | none => none
  | some r =>
    if p.rc.state = .active then
      allSlots.foldl (fun best i =>
        let s := p.slot i
        if s.claimed = false ∧ r.inWindow s.nextPosition then
          match best with
          | none => some s.nextPosition
          | some b => some (min b s.nextPosition)
        else best) none
    else none

/-- The cursor moves and the claims that an event brings about, until none is left. The fuel covers every position of
the run twice. -/
def progressLoop : Nat → Chip → Chip
  | 0, p => p
  | n + 1, p =>
    match p.cursorStep with
    | some p' => progressLoop n p'
    | none =>
      match p.nextClaim with
      | some q => progressLoop n (p.claim q)
      | none => p

/-- The cursor moves and claims of an event (R48, R89, log 27). -/
def Chip.progress (p : Chip) : Chip :=
  match p.rc.run with
  | none => p
  | some r => progressLoop (2 * r.length + 256) p

/-- The segment at the cursor may be fetched for sending (R90). -/
def Chip.maySend (p : Chip) (r : RunRecord) : Bool :=
  let t := r.segmentAt p.dlc.cursorPos
  let s := p.slot (slotOf t)
  p.dlc.linkState == .up && p.dlc.fetch.isNone && !p.dlc.cursorStopped && p.dlc.cursorPos < r.length
    && p.dlc.cursorRow < 30 && s.holds t
    && ((p.rc.state == .active && (s.write == .queued || s.write == .sending))
      || (p.rc.state == .draining && s.write == .sending))
    && 1 ≤ p.dlc.writeCredits && p.dlc.retention.length < Config.retentionMax

/-- The fetch of the cursor's next row offered, if R90 allows one. -/
def Chip.offerFetch (p : Chip) : Chip :=
  match p.rc.run with
  | none => p
  | some r =>
    if p.maySend r then
      let t := r.segmentAt p.dlc.cursorPos
      let i := slotOf t
      { p with
        dlc := { p.dlc with
          fetch := some ⟨i, t, (p.slot i).serial, p.dlc.cursorRow, p.cpm.map.privateBase⟩ } }.offer .rowFetch
    else p

/-! ## Captures abandoned (R156) -/

/-- A clip record replaced. -/
def Chip.setClip (k : Fin 4) (c : Clip) (p : Chip) : Chip :=
  { p with ecu := { p.ecu with clips := p.ecu.clips.set k c } }

/-- The work of an abandoned capture undone: its request withdrawn, its slots unpinned, its clip EMPTY (R156). -/
def Chip.dropCapture (c : Capture) (p : Chip) : Chip :=
  let p := match c.stage with
    | .concealing => p
    | _ => p.withdraw .capture
  let p := { p with ecu := { p.ecu with capture := none } }
  let p := (List.range (c.count - c.segment)).foldl
    (fun p g => p.unpin (slotOf (c.first + c.segment + g))) p
  p.setClip c.clip Clip.reset

/-! ## Mode values applied (R23, R27, R28) -/

/-- The blocks' own fields as a MODE_MAP application leaves them (R20, R28, R39, R160, R161). -/
def Chip.setMap (m : ModeMap) (p : Chip) : Chip :=
  { p with
    ecu := { p.ecu with
      clips := Ecu.reset.clips
      stack := []
      bottom := 0
      images := Ecu.reset.images
      segCount := 0
      partialMark := false
      stoppedMark := false }
    lbp := { p.lbp with strayNoticed := false, outRecord := .none }
    cpm := { p.cpm with
      map := m
      incoming := .unknown
      consumeCount := 0
      readyPrefix := 0
      readyAhead := [] }
    rc := { p.rc with run := none } }

/-- A capture in progress abandoned by a MODE_MAP application (R156). -/
def Chip.endCaptureForMap (p : Chip) : Chip :=
  match p.ecu.capture with
  | some c => (p.dropCapture c).report .aborted c.segment
  | none => p

/-- A MODE_MAP value applied (R20, R28, R39, R104, R122, R137, R160, R161). -/
def Chip.applyMap (m : ModeMap) (p : Chip) : Chip :=
  ((((p.endCaptureForMap.releaseAll).endReadEvals).releaseReads).setMap m).dirtyRunWords

/-- A MODE_SIGNAL value applied. -/
def Chip.applySignal (m : ModeSignal) (p : Chip) : Chip := { p with cpm := { p.cpm with signal := m } }

/-- A MODE_LINK value applied. -/
def Chip.applyLink (m : ModeLink) (p : Chip) : Chip := { p with cpm := { p.cpm with link := m } }

/-- A MODE_EDIT value applied. -/
def Chip.applyEdit (m : ModeEdit) (p : Chip) : Chip := { p with cpm := { p.cpm with edit := m } }

/-- A pending value applied, if there is one. -/
def Chip.applyHeld {α : Type} (held : Option α) (apply : α → Chip → Chip) (p : Chip) : Chip :=
  match held with
  | some m => apply m p
  | none => p

/-- Every pending mode value applied, in their order, and cleared (R27). -/
def Chip.applyPending (p : Chip) : Chip :=
  let c := p.cpm
  let p := { p with
    cpm := { p.cpm with pendingMap := none, pendingSignal := none, pendingLink := none, pendingEdit := none } }
  (((p.applyHeld c.pendingMap Chip.applyMap).applyHeld c.pendingSignal Chip.applySignal).applyHeld
    c.pendingLink Chip.applyLink).applyHeld c.pendingEdit Chip.applyEdit

/-! ## The end of a run (R120, R159, R166, R171) -/

/-- The clip of an EDIT run spent or kept (R159). -/
def Chip.endClip (r : RunRecord) (p : Chip) : Chip :=
  match r.params with
  | .edit _ (some k) .. =>
    let c := p.ecu.clips[k]
    p.setClip k { c with inUse := false, state := if c.singleUse ∧ 0 < r.doneCount then .spent else .ready }
  | _ => p

/-- The lowest T among the SEG entries of the EDIT run in progress; `base` if it has none (R166). -/
def Chip.firstSaved (p : Chip) (base : Nat) : Nat :=
  let ts := (p.ecu.stack.reverse.take p.ecu.segCount).filterMap fun e => match e with
    | .seg t _ => some t
    | .run .. => none
  match ts with
  | [] => base
  | t :: rest => rest.foldl min t

/-- The RUN entry of an EDIT run pushed and its save state cleared (R166). -/
def Chip.endSaves (r : RunRecord) (p : Chip) : Chip :=
  let firstSpan := match r.params with
    | .edit _ _ qa _ _ => qa
    | _ => 0
  let p := p.secureWords 4
  let p := p.pushEntry (.run r.tag (p.firstSaved (r.t0 + firstSpan)) p.ecu.segCount p.ecu.partialMark)
  { p with ecu := { p.ecu with segCount := 0, partialMark := false, stoppedMark := false } }

/-- The count of SEG entries a REVERT run restores. -/
def RunRecord.revertCount (r : RunRecord) : Nat :=
  match r.params with
  | .revert _ _ n => n
  | _ => 0

/-- A REVERT run with this end pops the stack (R171). -/
def RunRecord.pops (r : RunRecord) (cause : EndCause) : Bool :=
  r.kind == .revert && cause == .complete && r.doneCount == r.revertCount

/-- ECU is told that the run has ended (step 2 of R120). -/
def Chip.endEcu (r : RunRecord) (cause : EndCause) (p : Chip) : Chip :=
  match r.kind with
  | .edit => (p.endClip r).endSaves r
  | .revert => if r.pops cause then (List.replicate (r.revertCount + 1) ()).foldl (fun p _ => p.popEntry) p else p
  | .play => p
  | .record => p

/-- The detail of STOP's DONE (spec/11 11.2). -/
def stopDetail (cause : EndCause) (omitted : Nat) : Nat := omitted + 0x1000000 * cause.code

/-- A pending STOP answered (step 5 of R120, R119, R121). -/
def Chip.answerStop (cause : EndCause) (omitted : Nat) (p : Chip) : Chip :=
  match p.cpm.request with
  | some q => if q.kind = some .stop ∧ q.reported = false then p.report .done (stopDetail cause omitted) else p
  | none => p

/-- The run enters IDLE (R120). -/
def Chip.enterIdle (cause : EndCause) (p : Chip) : Chip :=
  match p.rc.run with
  | none => p
  | some r =>
    let p := { p with rc := ⟨.idle, some { r with endCause := cause, drainTimer := none }⟩ }
    let p := p.endEcu r cause
    let p := p.raise (.runEnd r.tag cause r.kind (r.pops cause))
    (p.noteStatus.applyPending).answerStop cause r.omitCount

/-- An ACTIVE run is complete (R109, R112, R151, R171). -/
def RunRecord.complete (r : RunRecord) : Bool :=
  match r.kind with
  | .play => r.readyCount == r.length
  | .record => r.doneCount == r.length
  | .edit =>
    match r.params with
    | .edit _ _ _ _ span => r.readyCount == r.length && r.settledCount == span
    | _ => false
  | .revert => r.settledCount == r.revertCount

/-- Nothing of a draining run is left arriving, checking or sending (R119). -/
def Chip.drained (p : Chip) : Bool :=
  allSlots.all fun i =>
    let s := p.slot i
    !s.claimed || (s.play != .arriving && s.play != .checking && s.writeOver)

/-- The end of a run, if the event has brought it about (R109, R112, R119, R151, R171, log 30). -/
def Chip.checkEnd (p : Chip) : Chip :=
  match p.rc.run with
  | none => p
  | some r =>
    match p.rc.state with
    | .idle => p
    | .active => if r.complete then p.enterIdle .complete else p
    | .draining => if p.drained then p.enterIdle .stopped else p

/-- What follows every event that may move the run: cursor and claims, the run's end, the next fetch, the status. -/
def Chip.finish (p : Chip) : Chip := ((p.progress.checkEnd).offerFetch).noteStatus

/-! ## Drain and abort (R115 to R118, R121) -/

/-- Slots put in order of run position, one at a time. -/
def insertByPosition (p : Chip) (i : Fin 128) : List (Fin 128) → List (Fin 128)
  | [] => [i]
  | j :: rest =>
    if (p.slot i).position ≤ (p.slot j).position then i :: j :: rest else j :: insertByPosition p i rest

/-- The claimed slots in run order. -/
def Chip.claimedInOrder (p : Chip) : List (Fin 128) :=
  (allSlots.filter fun i => (p.slot i).claimed).foldr (insertByPosition p) []

/-- The run's OMIT count advanced (R116, R118). -/
def Chip.countOmit (p : Chip) : Chip := p.modRun fun r => { r with omitCount := r.omitCount + 1 }

/-- The write side of a slot at the start of the drain (R116). -/
def Chip.drainWrite (p : Chip) (i : Fin 128) : Chip :=
  let s := p.slot i
  match s.write with
  | .filling => ((p.discardWrite i).handOmit s.segment).countOmit
  | .closed => ((p.discardWrite i).handOmit s.segment).countOmit
  | .coding => ((p.discardWrite i).handOmit s.segment).countOmit
  | .queued => ((p.discardWrite i).handOmit s.segment).countOmit
  | .idle => p
  | .sending => p
  | .done => p

/-- A release tested while a slot is still claimed, for a list of slots. -/
def Chip.testReleases (slots : List (Fin 128)) (p : Chip) : Chip :=
  slots.foldl (fun p i => p.releaseTest i) p

/-- The drain started (R115, R116). -/
def Chip.startDrain (p : Chip) : Chip :=
  let p := { p with rc := { p.rc with state := .draining } }
  let p := p.modRun fun r => { r with drainTimer := some p.cpm.link.drainTimeout }
  let slots := p.claimedInOrder
  let p := slots.foldl Chip.drainWrite p
  let p := slots.foldl (fun p i => p.giveUpPlay i) p
  p.testReleases slots

/-- A SENDING slot of the run gets an OMIT at the give-up: it has a live retention entry, or rows not yet sent
(R94). -/
def Chip.omittedAtGiveUp (p : Chip) (i : Fin 128) : Bool :=
  let s := p.slot i
  s.write == .sending
    && (p.dlc.retention.any (fun e => e.segment == s.segment && e.words.isSome)
      || p.dlc.cursorPos < s.position || (p.dlc.cursorPos == s.position && p.dlc.cursorRow < 30))

/-- Every retention entry abandoned and taken off the lane (R94). -/
def Chip.abandonRows (p : Chip) : Chip :=
  let p := p.dlc.retention.foldl (fun p e => p.unhandRow e.seq) p
  { p with dlc := { p.dlc with retention := p.dlc.retention.map fun e => { e with words := none } } }

/-- The SENDING write sides given up when the drain timer expires (R94, R118). -/
def Chip.giveUp (p : Chip) : Chip :=
  let slots := p.claimedInOrder.filter fun i => (p.slot i).write == .sending
  if slots.isEmpty then p
  else
    let p := slots.foldl (fun p i =>
      if p.omittedAtGiveUp i then (p.handOmit (p.slot i).segment).countOmit else p) p
    let p := p.abandonRows.withdrawFetch
    let p := { p with dlc := { p.dlc with cursorStopped := true } }
    let p := slots.foldl (fun p i => p.discardWrite i) p
    p.testReleases slots

/-- A slot at an abort: released once it is EMPTY with its write side over, else as R50 tests (R121). -/
def Chip.abortRelease (p : Chip) (i : Fin 128) : Chip :=
  let s := p.slot i
  if s.claimed ∧ s.play = .empty ∧ s.writeOver then p.release i else p.releaseTest i

/-- The run aborted (R121). -/
def Chip.abort (p : Chip) : Chip :=
  match p.rc.state with
  | .idle => p
  | _ =>
    let slots := p.claimedInOrder
    let p := slots.foldl (fun p i => if (p.slot i).writeOver then p else p.discardWrite i) p
    let p := slots.foldl (fun p i => p.giveUpPlay i) p
    let p := slots.foldl Chip.abortRelease p
    p.enterIdle .aborted

/-! ## The link (R84 to R88, R103) -/

/-- The link taken to OPENING (R84, R103); `request` hands a CLEAR before the OPEN (R87). -/
def Chip.openLink (request : Bool) (p : Chip) : Chip :=
  let p := { p with
    dlc := { p.dlc with
      linkState := .opening
      sendSeq := 0
      recvSeq := 0
      writeCredits := 0
      retention := []
      retryCount := 0
      recvWindow := 0
      outstanding := 0
      released := Config.creditMax
      staging := []
      lane := []
      ackTimer := none
      creditTimer := none
      openTimer := some p.cpm.link.openRetry } }
  let p := if request then p.hand .clearLink else p
  p.hand .openLink

/-- DLC's offered staging write and fetch withdrawn (R86, R88). -/
def Chip.withdrawLink (p : Chip) : Chip :=
  let p := if p.dlc.staging.isEmpty then p else p.withdraw .staging
  p.withdrawFetch

/-- The link's queues, window and lane emptied (R86, R88). -/
def Chip.emptyLink (p : Chip) : Chip :=
  { p with dlc := { p.dlc with staging := [], retention := [], recvWindow := 0, lane := [] } }

/-- The link cleared, items 1 to 5 of R86. -/
def Chip.clearLink (request : Bool) (p : Chip) : Chip :=
  let prior := p.dlc.linkState
  let aborted := p.rc.state != .idle
  let p := (p.abort.withdrawLink).emptyLink
  p.raise (.linkCleared request prior aborted)

/-- The link FAILED (R88, R103). -/
def Chip.failLink (p : Chip) : Chip :=
  let limit := p.cpm.link.retryLimit
  let entries := p.dlc.retention.length
  let p := (p.abort.withdrawLink).emptyLink
  let p := { p with
    dlc := { p.dlc with linkState := .failed, ackTimer := none, creditTimer := none, openTimer := none } }
  p.raise (.linkFailed limit entries)

/-! ## READY entered (R26) -/

/-- The part enters READY (R20, R26, R39, R84). -/
def Chip.enterReady (p : Chip) : Chip :=
  let p := { p with
    cpm := { p.cpm with
      partState := .ready
      counters := Vector.replicate 16 0
      overflow := 0
      writeIndex := 0
      publishedIndex := 0
      readIndex := 0
      notice := false
      consumeCount := 0
      readyPrefix := 0
      readyAhead := []
      request := none
      pendingMap := none
      pendingSignal := none
      pendingLink := none
      pendingEdit := none
      indexDue := true }
    lbp := { p.lbp with strayNoticed := false } }
  let p := p.openLink false
  let p := { p with
    cpm := { p.cpm with
      statusHeld := statusNumbers.foldl (fun v i => v.setIfInBounds i (p.statusWord i)) p.cpm.statusHeld } }
  p.markDirty statusNumbers

/-- The written-set holds all four marks (R26). -/
def WrittenSet.full (w : WrittenSet) : Bool := w.map && w.signal && w.link && w.edit

/-- A mode value taken at its copy (R23, R27): applied at once, with its mark set while UNCONFIGURED, or held. -/
def Chip.takeMode (apply hold : Chip → Chip) (mark : WrittenSet → WrittenSet) (p : Chip) : Chip :=
  match p.cpm.partState with
  | .unconfigured =>
    let p := apply p
    let p := { p with cpm := { p.cpm with writtenSet := mark p.cpm.writtenSet } }
    if p.cpm.writtenSet.full then p.enterReady else p
  | .ready =>
    match p.rc.state with
    | .idle => apply p
    | _ => hold p

/-! ## Run start (R107, R139, R167) -/

/-- The first position that names a segment of a slot (R48). -/
def RunRecord.firstPosition (r : RunRecord) (i : Fin 128) : Nat :=
  if r.backward then (r.t0 + 128 - i.val) % 128 else (i.val + 128 - r.t0 % 128) % 128

/-- The claimed slots READY and not consumed (step 2 of R107). -/
def Chip.unconsumed (p : Chip) : Nat :=
  allSlots.countP fun i => (p.slot i).claimed && (p.slot i).play == .ready && !(p.slot i).consumed

/-- The EDIT run's own steps between 4 and 5 of R107 (R139). -/
def Chip.startEdit (r : RunRecord) (p : Chip) : Chip :=
  match r.params with
  | .edit _ clip .. =>
    let p := { p with ecu := { p.ecu with segCount := 0, partialMark := false, stoppedMark := false } }
    match clip with
    | some k => p.setClip k { p.ecu.clips[k] with inUse := true }
    | none => p
  | _ => p

/-- The slot table as a run start leaves it before the claims. -/
def Chip.placeSlots (r : RunRecord) (p : Chip) : Chip :=
  allSlots.foldl (fun p i => p.modSlot i fun s => { s with nextPosition := r.firstPosition i }) p

/-- A run start that has passed every check (R107). -/
def Chip.startRun (r : RunRecord) (p : Chip) : Chip :=
  let n := p.unconsumed
  let p := (p.releaseAll.endReadEvals).releaseReads
  let p := { p with
    lbp := { p.lbp with strayNoticed := false, outRecord := .none }
    cpm := { p.cpm with consumeCount := 0, readyPrefix := 0, readyAhead := [] }
    rc := ⟨.active, some r⟩
    dlc := { p.dlc with cursorPos := 0, cursorRow := 0, cursorStopped := false, omits := [] } }
  let p := (p.startEdit r).placeSlots r
  let p := (List.range (min 128 r.length)).foldl (fun p q => p.claim q) p
  (p.dirtyRunWords.report .done n).finish

/-- A new run record (step 4 of R107). -/
def newRun (kind : RunKind) (tag t0 : Nat) (backward : Bool) (length rate : Nat) (writer : Option WriterKind)
    (params : RunParams) : RunRecord where
  kind := kind
  tag := tag
  t0 := t0
  backward := backward
  length := length
  rate := rate
  writer := writer
  params := params
  windowBase := 0
  readyCount := 0
  doneCount := 0
  settledCount := 0
  dueHorizon := none
  omitCount := 0
  drainTimer := none
  endCause := .none

end Sys2Proof.Machine
end

