-- ==== Sys2Proof/Machine/Bus.lean ====
section
/-! DEFINITION. The commands of the local bus: reset, acceptance, the grants of plain and audio-view traffic
(chapter 1, chapter 10). -/

namespace Sys2Proof.Machine

/-- What a command answers. -/
abbrev Out := Host.Outcome State Fault Refusal

/-- The part changed, DRAM and the waiting commands as they were. -/
def State.onChip (s : State) (f : Chip → Chip) : State := { s with toChip := f s.toChip }

/-! ## Reset -/

/-- PIN_RESET (R18, R19, R39, R62, R80, R103, R122, R137, R152, R161). DRAM, the waiting commands and what the ports
have already put out stay (log 33). -/
def execPinReset (s : State) : Out :=
  .next { s with
    toChip := { Chip.reset with
      lbp := { Lbp.reset with responses := s.lbp.responses }
      dlc := { Dlc.reset with sent := s.dlc.sent } } }

/-! ## Acceptance -/

/-- An illegal write discarded at acceptance (R2). -/
def Chip.rejectWrite (initiator : Fin 8) (addr : Nat) (p : Chip) : Chip :=
  (p.raise (.busFault addr initiator.val)).noteStatus

/-- A write to the private region discarded at acceptance (R5). -/
def Chip.protectWrite (initiator : Fin 8) (addr : Nat) (p : Chip) : Chip :=
  ((p.bump .protect 1).raise (.protect addr initiator.val)).noteStatus

/-- A write placed in the posted-write queue, and offered if it is the head (R11). -/
def Chip.post (initiator : Fin 8) (addr : Nat) (data : List Word) (range : Range) (p : Chip) : Chip :=
  let w : PostedWrite := ⟨p.lbp.nextWrite, initiator, addr, data, range⟩
  let head := p.lbp.posted.isEmpty
  let p := { p with lbp := { p.lbp with posted := p.lbp.posted ++ [w], nextWrite := p.lbp.nextWrite + 1 } }
  if head then p.offer .postedWrite else p

/-- WRITE_ACCEPT (R1, R2, R3, R5, R11). A write for which the queue has no entry waits at the port (log 9). -/
def execWriteAccept (initiator : Fin 8) (addr : BusAddr) (data : List Word) (s : State) : Out :=
  let a := addr.toNat
  if legalBurst a data.length = false then .next (s.onChip fun p => p.begin.rejectWrite initiator a)
  else
    match s.toChip.rangeOf a with
    | .privateRegion => .next (s.onChip fun p => p.begin.protectWrite initiator a)
    | range =>
      if s.lbp.posted.length < Config.postedEntries then
        .next (s.onChip fun p => p.begin.post initiator a data range)
      else .next s

/-- The words of an audio-view write lie, as outgoing words, among the words a private read covers (R14). -/
def Chip.writesInto (p : Chip) (w : PostedWrite) (addr len : Nat) : Bool :=
  match w.range with
  | .audioView place =>
    (List.range w.data.length).any fun k =>
      let x := outgoingAddr p.cpm.map.privateBase place.slot (place.imageWord + k)
      addr ≤ x && x < addr + 4 * len
  | _ => false

/-- The groups a request of CPM writes to, with its id (R14). -/
def Chip.cpmGroups (p : Chip) : Req → Option (Nat × List Nat)
  | .result id _ _ => some (id, [groupOf resultCell])
  | .status id =>
    some (id, p.cpm.dirty.map (fun i => groupOf (statusWordAddr i))
      ++ (if p.cpm.indexDue then [groupOf writeIndexCell] else []))
  | .notice id index _ _ => some (id, [groupOf (noticeEntryAddr index), groupOf writeIndexCell])
  | _ => none

/-- The posted writes to the group of an address (R14). -/
def Chip.groupWaits (p : Chip) (addr : Nat) : List Wait :=
  (p.lbp.posted.filter fun w => groupOf w.addr == groupOf addr).map fun w => .posted w.id

/-- The writes of CPM to the group of an address (R14). -/
def Chip.cpmWaits (p : Chip) (addr : Nat) : List Wait :=
  p.mp.queues[(6 : Fin 7)].filterMap fun o =>
    match p.cpmGroups o.req with
    | some (id, gs) => if gs.contains (groupOf addr) then some (.cpm id) else none
    | none => none

/-- The writes a read must follow (R14). -/
def Chip.waitsOf (p : Chip) (range : Range) (addr len : Nat) : List Wait :=
  match range with
  | .plain => p.groupWaits addr
  | .audioView _ => p.groupWaits addr
  | .controlPage => p.groupWaits addr ++ p.cpmWaits addr
  | .privateRegion => (p.lbp.posted.filter fun w => p.writesInto w addr len).map fun w => .posted w.id

/-- A read taken into a tracker entry: WAITING, or OFFERED at once (R12, R14). -/
def Chip.track (e : Fin 8) (initiator : Fin 8) (tag addr len : Nat) (p : Chip) : Chip :=
  let range := p.rangeOf addr
  let waits := p.waitsOf range addr len
  let p := p.setRead e (some {
    initiator := initiator, tag := tag, addr := addr, len := len, range := range
    state := .waiting, waits := waits, values := List.replicate len none
    holdTimer := none, late := false, lateCounted := false, material := .none })
  if waits.isEmpty then p.offerRead e else p

/-- READ_ACCEPT (R1, R2, R3, R12, R14). A read for which the tracker has no entry waits at the port (log 9). -/
def execReadAccept (initiator : Fin 8) (tag : Nat) (addr : BusAddr) (len : Nat) (s : State) : Out :=
  let a := addr.toNat
  if legalBurst a len = false then .next (s.onChip fun p => p.begin.respond (.fault initiator tag))
  else
    match allEntries.find? fun e => (s.toChip.read e).isNone with
    | some e => .next (s.onChip fun p => p.begin.track e initiator tag a len)
    | none => .next s

/-! ## Grants of the posted-write head -/

/-- The words of a control-page copy placed in the shadows (R21). -/
def Chip.placeShadow (w : PostedWrite) (p : Chip) : Chip :=
  { p with
    cpm := { p.cpm with
      cells := (placeWords w.addr w.data).foldl
        (fun v aw => if aw.1 < 0xA0 then v.setIfInBounds (aw.1 / 4) aw.2 else v) p.cpm.cells } }

/-- The head leaves the posted-write queue: reads that waited on it go on, the next entry is offered (R11, R14). -/
def Chip.leaveQueue (w : PostedWrite) (p : Chip) : Chip :=
  let rest := p.lbp.posted.tail
  let p := { p with lbp := { p.lbp with posted := rest } }.endWait (.posted w.id)
  if rest.isEmpty then p else p.offer .postedWrite

/-- The head of the posted-write queue granted as the row `want`: it is written to DRAM, CPM places its copy and acts
on it, and it leaves the queue (R4, R11, R21). A grant that is not the next one is turned away (log 5). -/
def State.grantHead (want : WriteAct) (effect : PostedWrite → Chip → Chip) (s : State) : Out :=
  match s.lbp.posted with
  | [] => .next s
  | w :: _ =>
    if w.act = want ∧ s.mp.mayGrant .postedWrite then
      let p := (s.toChip.beginGrant .postedWrite).placeShadow w
      .next { s with
        toChip := ((effect w p).leaveQueue w).noteStatus
        mem := Memory.writeWords s.mem (placeWords w.addr w.data) }
    else .next s

/-- WRITE_GRANT (R4, R22): no cell has a behaviour for the write. -/
def execWriteGrant (s : State) : Out := s.grantHead .plain fun _ p => p

/-! ## AUDIO_VIEW_WRITE -/

/-- A stray word (R7). -/
def Chip.strayWord (w : PostedWrite) (i : Fin 128) (p : Chip) : Chip :=
  let p := p.bump .stray 1
  if p.lbp.strayNoticed then p
  else
    ({ p with lbp := { p.lbp with strayNoticed := true } }).raise (.stray (p.slot i).segment w.initiator.val)

/-- An accepted word: limited, counted if it clamps, marked written; the clip count stops at the top of its range
(R8, R45, R55, log 42). -/
def Chip.acceptWord (place : ViewPlace) (data : Word) (p : Chip) : Chip :=
  let v := writtenSample data
  let clamp := if limit v = v then 0 else 1
  let bit := BitVec.ofNat 384 (2 ^ (2 * place.pair + place.channel))
  (p.modSlot place.slot fun s => { s with
    written := s.written ||| bit
    clipCount := min Config.clipCountMax (s.clipCount + clamp) }).bump .clippedSamples clamp

/-- A word of an audio-view write is accepted (R7). -/
def Chip.acceptsWord (p : Chip) (place : ViewPlace) : Bool :=
  (p.slot place.slot).write == .filling && p.needs place.slot place.pair

/-- The words of the burst decided one by one (R7, R8); the answer's list is the outgoing words written. -/
def Chip.takeWords (w : PostedWrite) (place : ViewPlace) (p : Chip) : Chip × List (Nat × Word) :=
  w.data.zipIdx.foldl (fun (acc : Chip × List (Nat × Word)) dk =>
    let spot := place.advance dk.2
    if acc.1.acceptsWord spot then
      (acc.1.acceptWord spot dk.1,
        acc.2 ++ [(outgoingAddr p.cpm.map.privateBase spot.slot spot.imageWord,
          word (codeOfSample (limit (writtenSample dk.1))))])
    else (acc.1.strayWord w spot.slot, acc.2)) (p, [])

/-- The material grade of a burst; none is refused (R173). -/
def Chip.materialGrade (p : Chip) (initiator : Fin 8) : Option Grade :=
  if initiator.val = p.cpm.map.digitalIn then p.cpm.incoming.material else some p.cpm.signal.policy

/-- The source of a burst (R173). -/
def Chip.sourceOf (p : Chip) (initiator : Fin 8) : Source :=
  if initiator.val = p.cpm.map.digitalIn then .digital else .analog

/-- A burst folded into its slot (R174); a refused one folds NONE and DIGITAL. -/
def Chip.foldBurst (initiator : Fin 8) (i : Fin 128) (p : Chip) : Chip :=
  let g := (p.materialGrade initiator).getD .none
  let c := p.sourceOf initiator
  p.modSlot i fun s => { s with
    worstGrade := some (foldGrade s.worstGrade g)
    worstSource := foldSource s.worstGrade s.worstSource g c
    analogWritten := s.analogWritten || c == .analog }

/-- A refused burst (R175, R176). -/
def Chip.refuse (initiator : Fin 8) (i : Fin 128) (p : Chip) : Chip :=
  let s := p.slot i
  let note (kind : RunKind) (p : Chip) : Chip :=
    (p.raise (.refused s.segment kind initiator.val p.cpm.incoming s.analogWritten)).bump .refusedSegments 1
  match p.runKind with
  | some .edit => ((note .edit p).setAside i).releaseTest i
  | _ =>
    let p := p.modSlot i fun x => { x with material := .fill }
    if s.material = .fill then p else note .record p

/-- A FILLING slot whose needed pairs are all written closes (R55). -/
def Chip.closeIfComplete (i : Fin 128) (p : Chip) : Chip :=
  if (p.slot i).write = .filling ∧ p.unwritten i = 0 then
    (p.modSlot i fun s => { s with write := .closed }).queueTest i
  else p

/-- What follows the words of a burst with an accepted word: the fold, a refusal, the close (R55, R174 to R176). -/
def Chip.endBurst (initiator : Fin 8) (i : Fin 128) (p : Chip) : Chip :=
  let refused := (p.materialGrade initiator).isNone
  let p := p.foldBurst initiator i
  let p := if refused then p.refuse initiator i else p
  p.closeIfComplete i

/-- AUDIO_VIEW_WRITE (R7, R8, R55, R173 to R177). -/
def execAudioViewWrite (s : State) : Out :=
  match s.lbp.posted with
  | [] => .next s
  | w :: _ =>
    match w.act with
    | .audioView place =>
      if s.mp.mayGrant .postedWrite then
        let (p, writes) := (s.toChip.beginGrant .postedWrite).takeWords w place
        let p := if writes.isEmpty then p else p.endBurst w.initiator place.slot
        .next { s with toChip := (p.leaveQueue w).finish, mem := Memory.writeWords s.mem writes }
      else .next s
    | _ => .next s

/-! ## Grants of reads -/

/-- The read is one of the output status cell by the digital-output initiator (R4, R182). -/
def Chip.substitutes (p : Chip) (r : Read) : Bool :=
  r.range == .controlPage && r.initiator.val == p.cpm.map.digitalOut && r.addr ≤ outputStatusCell
    && outputStatusCell < r.addr + 4 * r.len

/-- The grade the output segment record gives (R182). -/
def OutRecord.outputGrade : OutRecord → Grade
  | .grade g => g
  | .unrecovered => .none
  | .none => .none

/-- The grade field of an output status word replaced (R182, R186). -/
def substituteGrade (w : Word) (g : Grade) : Word := (w &&& 0xFFFFFFFC#32) ||| BitVec.ofNat 32 g.code

/-- The read is offered and its grant may be the next. -/
def Chip.readGrantable (p : Chip) (e : Fin 8) (r : Read) : Bool :=
  r.state == .offered && p.mp.mayGrant (.read e)

/-- READ_GRANT (R4, R5, R12): a plain, control-page or private read is performed and completes. -/
def execReadGrant (e : Fin 8) (s : State) : Out :=
  match s.toChip.read e with
  | none => .next s
  | some r =>
    match r.range with
    | .audioView _ => .next s
    | _ =>
      if s.toChip.readGrantable e r ∧ s.toChip.substitutes r = false then
        let ws := Memory.readWords s.mem (wordAddrs r.addr r.len)
        .next (s.onChip fun p => (p.beginGrant (.read e)).completeRead e ws .none)
      else .next s

/-- The words of a status-cell read, the output status word substituted (R182). -/
def Chip.substituted (p : Chip) (r : Read) (ws : List Word) : List Word :=
  (placeWords r.addr ws).map fun aw =>
    if aw.1 = outputStatusCell then substituteGrade aw.2 p.lbp.outRecord.outputGrade else aw.2

/-- OUTPUT_STATUS_READ (R182). -/
def execOutputStatusRead (e : Fin 8) (s : State) : Out :=
  match s.toChip.read e with
  | none => .next s
  | some r =>
    if s.toChip.readGrantable e r ∧ s.toChip.substitutes r = true then
      let ws := s.toChip.substituted r (Memory.readWords s.mem (wordAddrs r.addr r.len))
      .next (s.onChip fun p => (p.beginGrant (.read e)).completeRead e ws .none)
    else .next s

/-! ## AUDIO_VIEW_FETCH -/

/-- The flag of image word i of the playback image of a slot, read from its flag map (R6). -/
def flagAt (m : Memory) (base slot i : Nat) : WordFlag :=
  flagIn (m.readWord (playbackAddr base slot (flagWordOf i))) (i % 16)

/-- A stored word and its flag. -/
def playedWord (m : Memory) (base slot i : Nat) : Nat × WordFlag :=
  ((m.readWord (playbackAddr base slot i)).toNat, flagAt m base slot i)

/-- The words and flags of a read in a READY slot (R9). -/
def playedWords (m : Memory) (base : Nat) (place : ViewPlace) (len : Nat) : List (Nat × WordFlag) :=
  (List.range len).map fun k => playedWord m base place.slot (place.imageWord + k)

/-- The value of a word by its flag; a LOST one has none yet (R9). -/
def playedValue (wf : Nat × WordFlag) : Option Word :=
  match wf.2 with
  | .lost => none
  | _ => some (sampleWord (sampleOfCode wf.1))

/-- The LOST words of a read handed to CU (R9, R123). -/
def Chip.concealWords (e : Fin 8) (segment : Nat) (place : ViewPlace) (ws : List (Nat × WordFlag)) (p : Chip) : Chip :=
  ws.zipIdx.foldl (fun p wk =>
    match wk.1.2 with
    | .lost => p.startEval segment (place.advance wk.2).pair (place.advance wk.2).channel (.read e wk.2)
    | _ => p) p

/-- A fetch that found its slot READY (R9). -/
def Chip.takeFetched (e : Fin 8) (place : ViewPlace) (ws : List (Nat × WordFlag)) (p : Chip) : Chip :=
  let s := p.slot place.slot
  let p := p.modRead e fun r =>
    { r with state := .concealing, values := ws.map playedValue, material := s.recovered.outRecord }
  if ws.any (fun wf => wf.2 == .lost) then
    ((p.bump .concealedReads 1).concealWords e s.segment place ws).readProceed e
  else p.readProceed e

/-- A fetch that found its slot ARRIVING or CHECKING: the read is held, or, when it is late, resolved at once (R13). -/
def Chip.holdOnSlot (e : Fin 8) (p : Chip) : Chip :=
  if p.isLate e then (p.countLate e).completeZeros e else p.holdRead e .heldOnSlot

/-- The play state a fetch finds; an unclaimed slot is read as EMPTY (R9). -/
def Slot.readable (s : Slot) : PlayState := if s.claimed then s.play else .empty

/-- AUDIO_VIEW_FETCH (R9, R10, R13, R123). -/
def execAudioViewFetch (e : Fin 8) (s : State) : Out :=
  match s.toChip.read e with
  | none => .next s
  | some r =>
    match r.range with
    | .audioView place =>
      if s.toChip.readGrantable e r then
        let ws := playedWords s.mem s.cpm.map.privateBase place r.len
        .next (s.onChip fun p =>
          let p := p.beginGrant (.read e)
          (match (p.slot place.slot).readable with
            | .ready => p.takeFetched e place ws
            | .arriving => p.holdOnSlot e
            | .checking => p.holdOnSlot e
            | .empty => p.completeZeros e).noteStatus)
      else .next s
    | _ => .next s

end Sys2Proof.Machine
end

