-- ==== Sys2Proof/Machine/Control.lean ====
section
/-! DEFINITION. The commands that act on the watched cells of the control page: the mode words, the consume count, the
input status and the notice read index (chapter 2), and the writes of CPM itself. -/

namespace Sys2Proof.Machine

/-! ## Mode words (R23 to R28) -/

/-- The clamp notice of a mode word (R24). -/
def Chip.noteClamp (mode : Nat) (marks : Nat) (p : Chip) : Chip :=
  if marks = 0 then p else p.raise (.clamped mode marks)

/-- A MODE_MAP value written (R24, R25). -/
def Chip.writeMap (w : PostedWrite) (p : Chip) : Chip :=
  let m := p.cpm.readMap
  let marks := mapRejectMarks m.audioBase m.privateBase
  if marks ≠ 0 then p.raise (.mapRejected w.initiator.val marks)
  else
    (p.noteClamp 0 (p.cpm.clampMarks 0 mapRanges)).takeMode (Chip.applyMap m)
      (fun p => { p with cpm := { p.cpm with pendingMap := some m } }) (fun x => { x with map := true })

/-- MODE_MAP_WRITE (R21, R23 to R28). -/
def execModeMapWrite (s : State) : Out := s.grantHead .modeMap Chip.writeMap

/-- A MODE_SIGNAL value written (R24). -/
def Chip.writeSignal (p : Chip) : Chip :=
  let m := p.cpm.readSignal
  (p.noteClamp 1 (p.cpm.clampMarks 1 signalRanges)).takeMode (Chip.applySignal m)
    (fun p => { p with cpm := { p.cpm with pendingSignal := some m } }) (fun x => { x with signal := true })

/-- MODE_SIGNAL_WRITE (R21, R23, R24, R26, R27). -/
def execModeSignalWrite (s : State) : Out := s.grantHead .modeSignal fun _ p => p.writeSignal

/-- A MODE_LINK value written (R24). -/
def Chip.writeLink (p : Chip) : Chip :=
  let m := p.cpm.readLink
  (p.noteClamp 2 (p.cpm.clampMarks 2 linkRanges)).takeMode (Chip.applyLink m)
    (fun p => { p with cpm := { p.cpm with pendingLink := some m } }) (fun x => { x with link := true })

/-- MODE_LINK_WRITE (R21, R23, R24, R26, R27). -/
def execModeLinkWrite (s : State) : Out := s.grantHead .modeLink fun _ p => p.writeLink

/-- A MODE_EDIT value written (R24). -/
def Chip.writeEdit (p : Chip) : Chip :=
  let m := p.cpm.readEdit
  (p.noteClamp 3 (p.cpm.clampMarks 3 editRanges)).takeMode (Chip.applyEdit m)
    (fun p => { p with cpm := { p.cpm with pendingEdit := some m } }) (fun x => { x with edit := true })

/-- MODE_EDIT_WRITE (R21, R23, R24, R26, R27). -/
def execModeEditWrite (s : State) : Out := s.grantHead .modeEdit fun _ p => p.writeEdit

/-! ## Consume count (R33) -/

/-- The segments at positions a to b - 1 handed to ST as consumed (R33). -/
def Chip.consumeRange (r : RunRecord) (a b : Nat) (p : Chip) : Chip :=
  (List.range (b - a)).foldl (fun p k => p.consume (r.segmentAt (a + k))) p

/-- A consume count written (R33). -/
def Chip.writeConsume (v : Nat) (p : Chip) : Chip :=
  if v ≤ p.cpm.consumeCount then p
  else
    let old := p.cpm.consumeCount
    let new := min v p.cpm.readyPrefix
    let p := { p with cpm := { p.cpm with consumeCount := new } }
    match p.rc.run with
    | some r => (p.consumeRange r old new).finish
    | none => p

/-- CONSUME_COUNT_WRITE (R33, R60). -/
def execConsumeCountWrite (s : State) : Out :=
  s.grantHead .consumeCount fun w p => p.writeConsume (w.wordAt consumeCell).toNat

/-! ## Input status (R34) -/

/-- The incoming grade an input status word gives: the lock mark is bit 31, the grade field bits 1..0 (R34, R186). -/
def incomingOf (w : Word) : Incoming :=
  if w.getLsbD 31 then .known (Grade.ofField (w.toNat % 4)) else .unknown

/-- An input status word copied (R34). -/
def Chip.writeInput (initiator : Fin 8) (w : Word) (p : Chip) : Chip :=
  match p.cpm.partState with
  | .unconfigured => p
  | .ready =>
    if initiator.val = p.cpm.map.digitalIn then { p with cpm := { p.cpm with incoming := incomingOf w } } else p

/-- INPUT_STATUS_WRITE (R34). -/
def execInputStatusWrite (s : State) : Out :=
  s.grantHead .inputStatus fun w p => p.writeInput w.initiator (w.wordAt inputStatusCell)

/-! ## Notice read index (R38) -/

/-- The index lies from the shadow forward to the published index, inclusive (R38). -/
def Cpm.mayRead (c : Cpm) (v : Nat) : Bool :=
  v < Config.ringEntries
    && (v + Config.ringEntries - c.readIndex) % Config.ringEntries
      ≤ (c.publishedIndex + Config.ringEntries - c.readIndex) % Config.ringEntries

/-- A notice read index written (R38). -/
def Chip.writeReadIndex (v : Nat) (p : Chip) : Chip :=
  if p.cpm.mayRead v then
    { p with cpm := { p.cpm with readIndex := v, notice := p.cpm.publishedIndex != v } }
  else p

/-- NOTICE_READ_INDEX_WRITE (R38). -/
def execNoticeReadIndexWrite (s : State) : Out :=
  s.grantHead .readIndex fun w p => p.writeReadIndex (w.wordAt readIndexCell).toNat

/-! ## The writes of CPM (R32, R35, R37) -/

/-- The request at the front of class 7; CPM's requests keep their order (log 8). -/
def Mp.cpmFront (m : Mp) : Option Req := (m.queues[(6 : Fin 7)]).head?.map Offer.req

/-- A final result granted: its request is no longer pending (R29). -/
def Chip.closeRequest (closes : Option Nat) (p : Chip) : Chip :=
  match closes, p.cpm.request with
  | some id, some q => if q.id = id then { p with cpm := { p.cpm with request := none } } else p
  | _, _ => p

/-- RESULT_WRITE (R29, R32): the whole result cell is written. -/
def execResultWrite (s : State) : Out :=
  match s.mp.cpmFront with
  | some (.result id r closes) =>
    if s.mp.mayGrant (.result id r closes) then
      .next { s with
        toChip := ((s.toChip.beginGrant (.result id r closes)).endWait (.cpm id)).closeRequest closes
        mem := Memory.writeWords s.mem (placeWords resultCell r.words) }
    else .next s
  | _ => .next s

/-- The words a status request writes (R26, R35). -/
def Cpm.statusWrites (c : Cpm) : List (Nat × Word) :=
  c.dirty.map (fun i => (statusWordAddr i, c.statusHeld.getD i 0))
    ++ (if c.indexDue then [(writeIndexCell, 0)] else [])

/-- The dirty set emptied as its request is granted (R35). -/
def Chip.emptyDirty (p : Chip) : Chip :=
  { p with cpm := { p.cpm with dirty := [], statusOffered := none, indexDue := false } }

/-- STATUS_WRITE (R35). -/
def execStatusWrite (s : State) : Out :=
  match s.mp.cpmFront with
  | some (.status id) =>
    if s.mp.mayGrant (.status id) then
      .next { s with
        toChip := ((s.toChip.beginGrant (.status id)).endWait (.cpm id)).emptyDirty
        mem := Memory.writeWords s.mem s.cpm.statusWrites }
    else .next s
  | _ => .next s

/-- The published write index takes the value written, and NOTICE follows (R37, R38). -/
def Chip.publish (index : Nat) (p : Chip) : Chip :=
  let w := (index + 1) % Config.ringEntries
  { p with cpm := { p.cpm with publishedIndex := w, notice := w != p.cpm.readIndex } }

/-- The words a notice request writes (R37). -/
def noticeWrites (index : Nat) (word0 word1 : Word) : List (Nat × Word) :=
  [(noticeEntryAddr index, word0), (noticeEntryAddr index + 4, word1),
    (writeIndexCell, word ((index + 1) % Config.ringEntries))]

/-- NOTICE_WRITE (R37, R38). -/
def execNoticeWrite (s : State) : Out :=
  match s.mp.cpmFront with
  | some (.notice id index a b) =>
    if s.mp.mayGrant (.notice id index a b) then
      .next { s with
        toChip := ((s.toChip.beginGrant (.notice id index a b)).endWait (.cpm id)).publish index
        mem := Memory.writeWords s.mem (noticeWrites index a b) }
    else .next s
  | _ => .next s

end Sys2Proof.Machine
end

