-- ==== Sys2Proof/Machine/Requests.lean ====
section
/-! DEFINITION. The requests of the request cell (R29 to R32): run starts, STOP, clips, MARK, LINKCLEAR. -/

namespace Sys2Proof.Machine

/-! ## Taking a request word (R29, R30) -/

/-- The kinds whose request word abandons a capture (R30). -/
def RequestKind.abandons : RequestKind → Bool
  | .play => true
  | .record => true
  | .edit => true
  | .revert => true
  | .stop => true
  | .capture => false
  | .dropClip => false
  | .mark => false
  | .linkClear => false

/-- A request word written while a request is PENDING (R29). -/
def Chip.ignoreRequest (tag : Nat) (p : Chip) : Chip := (p.bump .ignored 1).raise (.ignored tag)

/-- A request taken and its PENDING result offered (R29, R32). -/
def Chip.takePending (kind : RequestKind) (tag : Nat) (p : Chip) : Chip :=
  (p.takeRequest (some kind) tag).offerResult ⟨tag, .pending, 0⟩ none

/-- The capture abandoned for a new request: ABORTED is its result, and what the unpinned slots bring about comes
before the new request is checked (R30, R156, log 37). -/
def Chip.abandonFor (c : Capture) (tag : Nat) (p : Chip) : Chip :=
  ((p.dropCapture c).offerResult ⟨tag, .aborted, c.segment⟩ none).finish

/-- A request word of a known kind with a tag of 1 to 255, decided at its copy (R29, R30). -/
def Chip.requestWord (kind : RequestKind) (tag : Nat) (act : Chip → Chip) (p : Chip) : Chip :=
  match p.cpm.partState with
  | .unconfigured => p
  | .ready =>
    match p.cpm.request with
    | none => act (p.takePending kind tag)
    | some q =>
      match p.ecu.capture with
      | some c =>
        if kind.abandons ∧ q.kind = some .capture ∧ q.reported = false then
          act ((p.abandonFor c q.tag).takePending kind tag)
        else p.ignoreRequest tag
      | none => p.ignoreRequest tag

/-- A command that is a request: the posted-write head granted with the request word of its kind (R21, R29). -/
def State.grantRequest (kind : RequestKind) (act : Nat → Chip → Chip) (s : State) : Out :=
  s.grantHead (.request kind) fun w p =>
    let tag := requestTag (w.wordAt (cellWordAddr 4 7))
    p.requestWord kind tag (act tag)

/-- BADREQ: tag 0 or an unknown kind (R29, R32, R186). -/
def Chip.refuseWord (tag : Nat) (p : Chip) : Chip :=
  match p.cpm.partState with
  | .unconfigured => p
  | .ready =>
    match p.cpm.request with
    | none => (p.takeRequest none tag).report .badReq 0
    | some _ => p.ignoreRequest tag

/-- BADREQ (R29). -/
def execBadReq (s : State) : Out :=
  s.grantHead .badRequest fun w p => p.refuseWord (requestTag (w.wordAt (cellWordAddr 4 7)))

/-! ## Run starts (R31, R106) -/

/-- The checks of CPM and the NOLINK check before a run start reaches its own checks (R31, R106). `range` is the first
and the last segment number of the range tested; a range with no last number is empty of numbers out of range. -/
def Chip.startChecked (range : Option (Int × Int)) (act : Chip → Chip) (p : Chip) : Chip :=
  let outside : Bool := match range with
    | some (lo, hi) => lo < 0 || (Config.maxSegment : Int) < hi
    | none => false
  if p.rc.state ≠ .idle then p.report .busy 0
  else if outside then p.report .range 0
  else if p.dlc.linkState ≠ .up then p.report .noLink p.dlc.linkState.code
  else act p

/-- The range tested for a forward run of n segments; of T0 alone when n is 0 (R106, R138). -/
def forwardRange (t0 n : Nat) : Option (Int × Int) :=
  some (t0, if n = 0 then t0 else (t0 : Int) + n - 1)

/-- The range tested for a reverse run (R106). -/
def reverseRange (t0 n : Nat) : Option (Int × Int) :=
  some (if n = 0 then (t0 : Int) else (t0 : Int) - n + 1, t0)

/-- The length of a run (step 1 of R107). -/
def runLength (t0 n : Nat) (backward : Bool) : Nat :=
  if n = 0 then (if backward then t0 + 1 else Config.maxSegment + 1 - t0) else n

/-- PLAY dispatched (R106 to R108). -/
def Chip.startPlay (tag : Nat) (p : Chip) : Chip :=
  let t0 := p.cpm.arg 0
  let n := p.cpm.arg 1
  let dir := p.cpm.arg 2
  let backward := dir == 1
  p.startChecked (if backward then reverseRange t0 n else forwardRange t0 n) fun p =>
    if 1 < dir then p.report .range 0
    else p.startRun (newRun .play tag t0 backward (runLength t0 n backward) p.cpm.signal.rate none .none)

/-- PLAY (R29 to R32, R106 to R108). -/
def execPlay (s : State) : Out := s.grantRequest .play Chip.startPlay

/-- RECORD dispatched (R106, R107, R111). -/
def Chip.startRecord (tag : Nat) (p : Chip) : Chip :=
  let t0 := p.cpm.arg 0
  let n := p.cpm.arg 1
  p.startChecked (forwardRange t0 n) fun p =>
    p.startRun (newRun .record tag t0 false (runLength t0 n false) p.cpm.signal.rate (some .record) .none)

/-- RECORD (R29 to R32, R106, R107, R111). -/
def execRecord (s : State) : Out := s.grantRequest .record Chip.startRecord

/-- The arguments of an EDIT, with f as word 4 or MODE_EDIT gives it (R138). -/
structure EditArgs where
  t0 : Nat
  n : Nat
  pin : Nat
  pout : Nat
  fWord : Nat
  f : Nat
  material : Nat
  k : Nat
  deriving DecidableEq, Repr

/-- The arguments of the request cell (R138). -/
def Chip.editArgs (p : Chip) : EditArgs where
  t0 := p.cpm.arg 0
  n := p.cpm.arg 1
  pin := p.cpm.arg 2
  pout := p.cpm.arg 3
  fWord := p.cpm.arg 4
  f := if p.cpm.arg 4 = 0 then p.cpm.edit.defaultF else p.cpm.arg 4
  material := p.cpm.arg 5
  k := p.cpm.arg 6

/-- The clip an EDIT names, if its material is CLIP. -/
def EditArgs.clip (a : EditArgs) : Option (Fin 4) := if a.material = 1 then some (Fin.ofNat 4 a.k) else none

/-- Checks 7 to 9 of R138. -/
def EditArgs.clipRefusal (a : EditArgs) (clips : Vector Clip 4) : Option (ReqOutcome × Nat) :=
  match a.clip with
  | none => none
  | some k =>
    if (clips[k]).state = .spent then some (.copy, 1)
    else if (clips[k]).state = .empty then some (.badState, 1)
    else if 192 * (clips[k]).length < a.pout + 2 ^ a.f - a.pin then some (.range, 7)
    else none

/-- The checks of R138, in order: the refusal they give, if one does. -/
def EditArgs.refusal (a : EditArgs) (clips : Vector Clip 4) : Option (ReqOutcome × Nat) :=
  if a.n = 0 then some (.range, 1)
  else if a.fWord ≠ 0 ∧ (a.fWord < 4 ∨ 10 < a.fWord) then some (.range, 2)
  else if a.pout ≤ a.pin ∨ a.pout - a.pin < 2 ^ a.f then some (.range, 3)
  else if a.pin < 192 * a.t0 ∨ 192 * (a.t0 + a.n) ≤ a.pin then some (.range, 4)
  else if 192 * (a.t0 + a.n) < a.pout + 2 ^ a.f then some (.range, 5)
  else if 1 < a.material ∨ (a.material = 1 ∧ 3 < a.k) then some (.range, 6)
  else a.clipRefusal clips

/-- The kind parameters of an EDIT (R139). -/
def EditArgs.params (a : EditArgs) : RunParams :=
  let qa := a.pin / 192 - a.t0
  let qb := (a.pout + 2 ^ a.f - 1) / 192 - a.t0
  .edit ⟨a.pin, a.pout, a.f⟩ a.clip qa qb (qb - qa + 1)

/-- EDIT dispatched (R138, R139). -/
def Chip.startEditRun (tag : Nat) (p : Chip) : Chip :=
  let a := p.editArgs
  p.startChecked (forwardRange a.t0 a.n) fun p =>
    match a.refusal p.ecu.clips with
    | some (o, d) => p.report o d
    | none => p.startRun (newRun .edit tag a.t0 false a.n p.cpm.signal.rate (some .edit) a.params)

/-- EDIT (R29 to R32, R138 to R140). -/
def execEdit (s : State) : Out := s.grantRequest .edit Chip.startEditRun

/-- The top run of the stack: its RUN entry, the place of its first SEG entry, and its SEG entries (R161, R167). -/
structure TopRun where
  tag : Nat
  first : Nat
  count : Nat
  partialMark : Bool
  place : Nat
  segments : List Nat
  deriving DecidableEq, Repr

/-- The run on top of the stack. -/
def topRun (stack : List StackEntry) : Option TopRun :=
  match stack.getLast? with
  | some (.run tag first count partialMark) =>
    let place := stack.length - 1 - count
    some ⟨tag, first, count, partialMark, place, ((stack.dropLast).drop place).filterMap fun e => match e with
      | .seg t _ => some t
      | .run .. => none⟩
  | _ => none

/-- The highest T among the SEG entries of a run (R167). -/
def TopRun.highest (t : TopRun) : Nat := t.segments.foldl max t.first

/-- The range CPM tests for a REVERT (R167). -/
def revertRange (stack : List StackEntry) : Option (Int × Int) :=
  match topRun stack with
  | some t => if t.count = 0 then none else some (t.first, t.highest)
  | none => none

/-- REVERT dispatched (R167). -/
def Chip.startRevert (tag : Nat) (p : Chip) : Chip :=
  p.startChecked (revertRange p.ecu.stack) fun p =>
    match topRun p.ecu.stack with
    | none => p.report .noUndo 0
    | some t =>
      if t.partialMark then p.report .badState (detailWith 1 t.tag)
      else if t.count = 0 then p.popEntry.report .done 0
      else
        p.startRun (newRun .revert tag t.first false (t.highest - t.first + 1) p.cpm.signal.rate (some .revert)
          (.revert t.tag t.place t.count))

/-- REVERT (R29 to R32, R167, R168). -/
def execRevert (s : State) : Out := s.grantRequest .revert Chip.startRevert

/-! ## STOP (R115) -/

/-- STOP dispatched: the drain starts; what ends it answers the STOP (R115, R119). -/
def Chip.stopRun (p : Chip) : Chip :=
  match p.rc.state with
  | .active => p.startDrain.finish
  | _ => p.report .badState 0

/-- STOP (R29, R30, R115, R116). -/
def execStop (s : State) : Out := s.grantRequest .stop fun _ p => p.stopRun

/-! ## CAPTURE, DROPCLIP, MARK (R150, R153, R157) -/

/-- A slot is claimed for a segment with play state READY. -/
def Chip.isReady (p : Chip) (segment : Nat) : Bool :=
  let s := p.slot (slotOf segment)
  s.holds segment && s.play == .ready

/-- The grade of a captured segment; none is refused (R153, R181). -/
def Chip.captureGrade (p : Chip) (segment : Nat) : Option Grade :=
  (p.slot (slotOf segment)).recovered.grade.gen

/-- The checks of R153, in order: the refusal they give, if one does. -/
def Chip.captureRefusal (p : Chip) (t count k : Nat) : Option (ReqOutcome × Nat) :=
  if 3 < k then some (.range, 1)
  else if count = 0 ∨ 64 < count then some (.range, 2)
  else if Config.maxSegment < t + count - 1 then some (.range, 3)
  else
    let c := p.ecu.clips[Fin.ofNat 4 k]
    if c.state ≠ .empty then some (.badState, detailWith 1 c.state.code)
    else
      match (List.range count).find? fun g => !(p.isReady (t + g)) with
      | some g => some (.badState, detailWith 2 g)
      | none =>
        match (List.range count).find? fun g => (p.captureGrade (t + g)).isNone with
        | some g => some (.copy, g)
        | none => none

/-- The grade a clip takes from the segments of its capture (R154, R181). -/
def Chip.clipGrade (p : Chip) (t count : Nat) : Grade :=
  (List.range count).foldl (fun g k => g.max ((p.captureGrade (t + k)).getD .none)) .free

/-- A CAPTURE that passes every check (R154). -/
def Chip.beginCapture (t count : Nat) (k : Fin 4) (p : Chip) : Chip :=
  let grade := p.clipGrade t count
  let p := (List.range count).foldl
    (fun p g => p.modSlot (slotOf (t + g)) fun s => { s with pins := s.pins + 1 }) p
  let p := p.setClip k { p.ecu.clips[k] with state := .filling, length := count }
  let c : Capture := ⟨p.ecu.nextCapture, k, t, count, grade, p.cpm.map.privateBase, 0, 0, .reading, []⟩
  { p with ecu := { p.ecu with capture := some c, nextCapture := p.ecu.nextCapture + 1 } }.offer .capture

/-- CAPTURE dispatched (R153, R154). -/
def Chip.captureClip (p : Chip) : Chip :=
  let t := p.cpm.arg 0
  let count := p.cpm.arg 1
  let k := p.cpm.arg 2
  match p.captureRefusal t count k with
  | some (o, d) => p.report o d
  | none => p.beginCapture t count (Fin.ofNat 4 k)

/-- CAPTURE (R29, R31, R32, R153, R154, R181). -/
def execCapture (s : State) : Out := s.grantRequest .capture fun _ p => p.captureClip

/-- DROPCLIP dispatched (R157). -/
def Chip.dropClip (p : Chip) : Chip :=
  let k := p.cpm.arg 0
  if 3 < k then p.report .range 1
  else
    let c := p.ecu.clips[Fin.ofNat 4 k]
    if c.inUse then p.report .busy 1
    else (p.setClip (Fin.ofNat 4 k) Clip.reset).report .done c.state.code

/-- DROPCLIP (R29, R31, R32, R157). -/
def execDropClip (s : State) : Out := s.grantRequest .dropClip fun _ p => p.dropClip

/-- The operation a MARK names (R150). -/
def markOp : Nat → MarkOp
  | 0 => .and
  | 1 => .or
  | _ => .xor

/-- The detail of MARK's DONE (R150, spec/11 11.2). -/
def Slot.markDetail (s : Slot) : Nat :=
  match s.markerBase with
  | some b => applyEffect s.markerEffect b
  | none => 0x10000

/-- MARK dispatched (R57, R150). -/
def Chip.markSegment (p : Chip) : Chip :=
  let t := p.cpm.arg 0
  let op := p.cpm.arg 1
  let mask := p.cpm.arg 2
  let i := slotOf t
  let s := p.slot i
  if Config.maxSegment < t then p.report .range 1
  else if 2 < op then p.report .range 2
  else if 65535 < mask then p.report .range 3
  else if s.holds t = false then p.report .badState 255
  else if s.write ≠ .filling ∧ s.write ≠ .closed then p.report .badState s.write.code
  else
    let s := { s with markerEffect := composeMark s.markerEffect (markOp op) mask }
    (p.setSlot i s).report .done s.markDetail

/-- MARK (R29, R31, R32, R57, R150). -/
def execMark (s : State) : Out := s.grantRequest .mark fun _ p => p.markSegment

/-! ## LINKCLEAR (R87) -/

/-- LINKCLEAR dispatched (R87). -/
def Chip.linkClearRequest (p : Chip) : Chip :=
  let prior := p.dlc.linkState
  let p := match prior with
    | .up => p.clearLink true
    | .failed => p.clearLink true
    | .opening => p
    | .down => p
  (p.openLink true).report .done prior.code

/-- LINKCLEAR (R29, R31, R32, R87). -/
def execLinkClear (s : State) : Out := s.grantRequest .linkClear fun _ p => p.linkClearRequest

end Sys2Proof.Machine
end

