-- ==== Sys2Proof/Machine/Concealment.lean ====
section
/-! DEFINITION. The commands of the concealment unit: neighbour fetches, and reads becoming late (chapter 7, R13). -/

namespace Sys2Proof.Machine

/-- The words and flags of one channel of a block, pair slot by pair slot (R125). -/
def channelWords (m : Memory) (f : BlockFetch) (channel : Nat) : List (Nat × WordFlag) :=
  (List.range 12).map fun q => playedWord m f.base (slotOf f.segment) (30 * f.block + 2 * q + channel)

/-- The block a fetch was granted for (R124, R125). -/
def Chip.fetched (p : Chip) (m : Memory) (f : BlockFetch) (channel : Nat) : Fetched :=
  ⟨f.segment, f.block, p.slot (slotOf f.segment), channelWords m f channel⟩

/-- NEIGHBOUR_FETCH (R124 to R129, R133, R135): the scan goes on over the granted block. -/
def execNeighbourFetch (evaluation : Nat) (s : State) : Out :=
  match s.toChip.evaluation evaluation with
  | none => .next s
  | some e =>
    match e.fetch with
    | none => .next s
    | some f =>
      if s.mp.mayGrant (.neighbour evaluation) then
        let p := s.toChip.beginGrant (.neighbour evaluation)
        let r := { e with fetch := none }.scan (p.askerLate e.asker) (some (p.fetched s.mem f e.channel))
        .next { s with toChip := ((p.applyScan evaluation e.asker r).proceed e.asker).noteStatus }
      else .next s

/-- A read becomes late: its hold, if it is in one, is resolved (R13, R134). -/
def Chip.becomeLate (e : Fin 8) (r : Read) (p : Chip) : Chip :=
  let p := p.setRead e (some { r with late := true })
  match r.state with
  | .heldOnSlot => (p.countLate e).completeZeros e
  | .heldOnNeighbour =>
    if p.cu.evals.any (fun x => x.stage == .held && (match x.asker with
      | .read y _ => y == e
      | _ => false)) then
      ((p.countLate e).endHeldOf e).readProceed e
    else p
  | .waiting => p
  | .offered => p
  | .concealing => p

/-- READ_LATE (R13, R134, R136): the hold timer of a read has reached the read-hold limit (log 6). -/
def execReadLate (e : Fin 8) (s : State) : Out :=
  match s.toChip.read e with
  | none => .next s
  | some r =>
    if r.holdTimer = some 0 ∧ r.late = false then
      .next (s.onChip fun p => (p.begin.becomeLate e r).noteStatus)
    else .next s

end Sys2Proof.Machine
end

