-- ==== Sys2Proof/Machine/Coding.lean ====
section
/-! DEFINITION. The commands of the code engine (chapter 4, R54, R58, R144 to R149, R178 to R180). -/

namespace Sys2Proof.Machine

/-! ## Decode items (R76) -/

/-- CE_TAKE_DECODE_ITEM (R76, R78): the item is at the front of the queue and no item is in progress (log 26). -/
def execCeTakeDecodeItem (slot : Fin 128) (s : State) : Out :=
  match s.ce.job, s.ce.front.find? (CeItem.decodes slot) with
  | none, some (.decode i segment serial rows) =>
    .next (s.onChip fun p =>
      (p.begin.takeItem (.decode i segment serial rows)
        (.decode ⟨i, segment, serial, rows, p.cpm.map.privateBase, 0, .blockRead, [], [], 0, 0, .absent, false⟩)).offer
          .codeEngine)
  | _, _ => .next s

/-- The words of a block of a playback image. -/
def playedBlock (m : Memory) (base slot block : Nat) : List Nat :=
  (Memory.readWords m (wordAddrs (playbackAddr base slot (30 * block)) 30)).map BitVec.toNat

/-- The counters advanced for the flags of a decided block (R75). -/
def Chip.countFlags (fs : List WordFlag) (p : Chip) : Chip :=
  ((p.bump .fixedWords (fs.count .fixed)).bump .lostWords (fs.count .lost)).bump .uncheckedWords (fs.count .unchecked)

/-- A block decided: its write is offered, or a void item goes on (R75, R76, R79). -/
def Chip.decideBlock (j : DecodeJob) (d : Decoded) (p : Chip) : Chip :=
  let p := p.countFlags d.flags
  let j := { j with
    flags := j.flags ++ d.flags
    aux := j.aux ++ [d.aux]
    fixedCount := j.fixedCount + d.flags.count .fixed
    lostCount := j.lostCount + d.flags.count .lost }
  if j.void then p.decodeAdvance j
  else (p.setJob (some (.decode { j with stage := .blockWrite d.words }))).offer .codeEngine

/-- DECODE_BLOCK_READ (R69 to R76). -/
def execDecodeBlockRead (s : State) : Out :=
  match s.ce.job with
  | some (.decode j) =>
    if j.stage = .blockRead ∧ s.mp.mayGrant .codeEngine then
      let d := decodeBlock j.rows j.block (playedBlock s.mem j.base j.slot j.block)
      .next (s.onChip fun p => ((p.beginGrant .codeEngine).decideBlock j d).noteStatus)
    else .next s
  | _ => .next s

/-- The write of a decided block; block 0's clears the valid mark too (R76). -/
def DecodeJob.blockWrites (j : DecodeJob) (ws : List Nat) : List (Nat × Word) :=
  placeWords (playbackAddr j.base j.slot (30 * j.block)) (ws.map word)
    ++ (if j.block = 0 then [(playbackAddr j.base j.slot 510, word (summaryWord j.segment false))] else [])

/-- DECODE_BLOCK_WRITE (R43, R44, R76). -/
def execDecodeBlockWrite (s : State) : Out :=
  match s.ce.job with
  | some (.decode j) =>
    match j.stage with
    | .blockWrite ws =>
      if s.mp.mayGrant .codeEngine then
        .next { s with
          toChip := ((s.toChip.beginGrant .codeEngine).decodeAdvance j).noteStatus
          mem := Memory.writeWords s.mem (j.blockWrites ws) }
      else .next s
    | _ => .next s
  | _ => .next s

/-- The words of the final write: flag map, summary, decode word (R76). -/
def DecodeJob.finalWrites (j : DecodeJob) : List (Nat × Word) :=
  placeWords (playbackAddr j.base j.slot 480)
    (flagWords 30 j.flags
      ++ [word (summaryWord j.segment true), word (decodeWord j.recovered j.fixedCount j.lostCount)])

/-- The ready prefix extended over every position filled from the start; the fuel is the number of positions beyond it
(R33). -/
def extendPrefix : Nat → Nat → List Nat → Nat
  | 0, n, _ => n
  | fuel + 1, n, ahead => if ahead.contains n then extendPrefix fuel (n + 1) ahead else n

/-- A position of the current run has reached READY (R33, R105). -/
def Chip.noteReady (q : Nat) (p : Chip) : Chip :=
  let ahead := p.cpm.readyAhead ++ [q]
  let n := extendPrefix ahead.length p.cpm.readyPrefix ahead
  let p := { p with cpm := { p.cpm with readyPrefix := n, readyAhead := ahead.filter fun x => n ≤ x } }
  p.modRun fun r => { r with readyCount := r.readyCount + 1 }

/-- The save point of a span slot (R162). -/
def Chip.savePoint (i : Fin 128) (p : Chip) : Chip :=
  let fail (p : Chip) : Chip := { p with ecu := { p.ecu with partialMark := true } }
  if p.cpm.edit.undo = false then fail p
  else if p.ecu.stoppedMark then fail p
  else
    let p := p.secureImage
    match p.ecu.freeImage? with
    | none => fail { p with ecu := { p.ecu with stoppedMark := true } }
    | some u =>
      let s := p.slot i
      let p := (p.setImage u { ImageRecord.reset with used := true }).setSlot i { s with undoSave := .inProgress }
      { p with ecu := { p.ecu with saves := p.ecu.saves ++ [⟨i, s.segment, s.serial, u⟩] } }

/-- The rates differ: the aux was recovered and its rate code is not the run's (R141). -/
def Recovered.rateDiffers (r : Recovered) (rate : Nat) : Bool :=
  match r with
  | .recovered _ _ _ _ _ x _ => x != rate
  | _ => false

/-- The recovered rate code, 0 where there is none. -/
def Recovered.rateCode : Recovered → Nat
  | .recovered _ _ _ _ _ x _ => x
  | _ => 0

/-- The write side of an EDIT span slot as its play side becomes READY: the rate test, then the save point (R141,
R162). -/
def Chip.readyWriteSide (i : Fin 128) (p : Chip) : Chip :=
  let s := p.slot i
  match p.rc.run with
  | none => p
  | some r =>
    if r.kind = .edit ∧ (s.write = .filling ∨ s.write = .closed) then
      if s.recovered.rateDiffers r.rate then
        (p.raise (.rateMismatch s.segment s.recovered.rateCode r.rate)).setAside i
      else p.savePoint i
    else p

/-- A decode report taken: the slot READY and what follows from it (R54). -/
def Chip.takeReport (i : Fin 128) (recovered : Recovered) (p : Chip) : Chip :=
  let p := p.modSlot i fun s => { s with
    play := .ready
    recovered := recovered
    markerBase := some (s.markerBase.getD recovered.marker) }
  let s := p.slot i
  let p := (((p.noteReady s.position).reofferHeld i).resumeHeld s.segment).readyWriteSide i
  ((p.queueTest i).releaseTest i).finish

/-- The report of a decode offered to ST (R54, R76). -/
def Chip.reportDecode (j : DecodeJob) (p : Chip) : Chip :=
  let p := p.setJob none
  let s := p.slot j.slot
  if s.holds j.segment ∧ s.serial = j.serial ∧ s.play = .checking then p.takeReport j.slot j.recovered
  else p

/-- DECODE_FINAL_WRITE (R44, R54, R76, R109, R119, R141, R162). -/
def execDecodeFinalWrite (s : State) : Out :=
  match s.ce.job with
  | some (.decode j) =>
    if j.stage = .finalWrite ∧ s.mp.mayGrant .codeEngine then
      .next { s with
        toChip := (s.toChip.beginGrant .codeEngine).reportDecode j
        mem := Memory.writeWords s.mem j.finalWrites }
    else .next s
  | _ => .next s

/-! ## Code items (R65) -/

/-- The copy word of a RECORD slot at CE's take (R178). -/
def Slot.recordCopyWord (s : Slot) : Nat :=
  match s.worstGrade with
  | some g =>
    if s.material = .fill then copyWordOf .none .digital true false
    else copyWordOf g ((s.worstSource.getD .analog).toClass) false false
  | none => copyWordOf .free .analog false false

/-- The copy word of a REVERT slot at CE's take (R180). -/
def ImageRecord.copyWord (r : ImageRecord) : Nat := copyWordOf r.grade .restore false r.baked

/-- The copy word CCU gives at the take (R178, R180); an EDIT's is given at its flag-map read (R179). -/
def Chip.copyWordAtTake (p : Chip) (s : Slot) (material : Material) (writer : WriterKind) : Nat :=
  match writer with
  | .record => s.recordCopyWord
  | .edit => 0
  | .revert =>
    match material with
    | .image u => (p.ecu.images[u]).copyWord
    | _ => 0

/-- The item in progress as CE takes it, with the values that stay fixed (R42, R65). -/
def Chip.codeJob (p : Chip) (i : Fin 128) (segment serial : Nat) (material : Material) (writer : WriterKind)
    (punch : Option Punch) : CodeJob :=
  let s := p.slot i
  { slot := i, segment := segment, serial := serial, material := material, writer := writer, punch := punch
    written := s.written
    rate := match p.rc.run with
      | some r => r.rate
      | none => 0
    marker := s.outgoingMarker
    clipCount := s.clipCount
    underrunCount := s.underrunCount
    base := p.cpm.map.privateBase
    copyWord := p.copyWordAtTake s material writer
    flags := [], block := 0, stage := .flagMapRead, old := [], new := [], void := false }

/-- A code item's first request: an EDIT reads the flag map, another begins block 0 (R65). -/
def Chip.beginCoding (j : CodeJob) (p : Chip) : Chip :=
  match j.punch with
  | some _ => (p.setJob (some (.code j))).offer .codeEngine
  | none => p.beginCodeBlock j

/-- CE_TAKE_CODE_ITEM (R42, R58, R65, R78, R178, R180). -/
def execCeTakeCodeItem (slot : Fin 128) (s : State) : Out :=
  match s.ce.job, s.ce.front.find? (CeItem.codes slot) with
  | none, some (.code i segment serial material writer punch) =>
    .next (s.onChip fun p =>
      let j := p.codeJob i segment serial material writer punch
      ((p.begin.takeItem (.code i segment serial material writer punch) (.code j)).modSlot i
        fun x => { x with write := .coding }).beginCoding j)
  | _, _ => .next s

/-- The flags of the 480 words of a playback image (R65). -/
def flagMap (m : Memory) (base slot : Nat) : List WordFlag :=
  (List.range 480).map fun i => flagAt m base slot i

/-- An old word is used by the coding: its output depends on it (R148). -/
def CodeJob.uses (j : CodeJob) (pair channel : Nat) : Bool :=
  match j.punch with
  | none => false
  | some x =>
    match x.region (192 * j.segment + pair) with
    | .new => j.material == .live && !(j.written.getLsbD (2 * pair + channel))
    | _ => true

/-- The image word of channel c of pair n (R6). -/
def imageWordOf (pair channel : Nat) : Nat := 30 * (pair / 12) + 2 * (pair % 12) + channel

/-- The words an EDIT's coding uses, as pair and channel (R148). -/
def CodeJob.usedWords (j : CodeJob) : List (Nat × Nat) :=
  ((List.range 384).map fun k => (k / 2, k % 2)).filter fun w => j.uses w.1 w.2

/-- The LOST words used (R148). -/
def CodeJob.lostUsed (j : CodeJob) (flags : List WordFlag) : Nat :=
  j.usedWords.countP fun w => flags.getD (imageWordOf w.1 w.2) .lost == .lost

/-- The copy word of an EDIT slot (R179). -/
def Chip.editCopyWord (p : Chip) (j : CodeJob) (baked : Bool) : Nat :=
  let s := p.slot j.slot
  let old := s.recovered.grade
  match j.material with
  | .clip k => copyWordOf (old.maxOpt (p.ecu.clips[k]).grade) .tape false baked
  | _ =>
    copyWordOf (old.maxOpt s.worstGrade)
      (match s.worstSource with
        | some c => c.toClass
        | none => .tape) false baked

/-- The start of an EDIT's coding: the copy word fixed, CONCEAL_BAKED raised, block 0 begun (R65, R148, R179). -/
def Chip.startEditCoding (j : CodeJob) (flags : List WordFlag) (p : Chip) : Chip :=
  let lost := j.lostUsed flags
  let baked := lost != 0 || (!j.usedWords.isEmpty && (p.slot j.slot).recovered.baked)
  let p := if lost = 0 then p else p.raise (.concealBaked j.segment lost)
  p.beginCodeBlock { j with flags := flags, copyWord := p.editCopyWord j baked }

/-- CODE_FLAG_MAP_READ (R65, R148, R179). -/
def execCodeFlagMapRead (s : State) : Out :=
  match s.ce.job with
  | some (.code j) =>
    if j.stage = .flagMapRead ∧ s.mp.mayGrant .codeEngine then
      let flags := flagMap s.mem j.base j.slot
      .next (s.onChip fun p => ((p.beginGrant .codeEngine).startEditCoding j flags).noteStatus)
    else .next s
  | _ => .next s

/-- A code value read for coding, as a sample; CE's values are residues (R63, log 29). -/
def codedSample (w : Word) : Int := sampleOfCode (residue w.toNat)

/-- The clip-store address of the new value of channel c of the pair of absolute index A (R144). -/
def clipWordAddr (base : Nat) (k : Fin 4) (x : Punch) (A c : Nat) : Nat :=
  clipAddr base k ((A - x.pin) / 192) (2 * ((A - x.pin) % 192) + c)

/-- The new value at position i of the block, where the material gives one (R66, R144). -/
def CodeJob.newValue (j : CodeJob) (m : Memory) (i : Nat) : Option Int :=
  let pair := 12 * j.block + i / 2
  let A := 192 * j.segment + pair
  let outgoing := codedSample (m.readWord (outgoingAddr j.base j.slot (30 * j.block + i)))
  match j.material with
  | .fill => none
  | .image _ => some outgoing
  | .live => if j.written.getLsbD (2 * pair + i % 2) then some outgoing else none
  | .clip k =>
    match j.punch with
    | some x => if x.inSpan A then some (codedSample (m.readWord (clipWordAddr j.base k x A (i % 2)))) else none
    | none => none

/-- The new values of the block (R66, R144). -/
def CodeJob.newValues (j : CodeJob) (m : Memory) : List (Option Int) := (List.range 24).map (j.newValue m)

/-- The flag of the old word at position i of the block. -/
def CodeJob.oldFlag (j : CodeJob) (i : Nat) : WordFlag := j.flags.getD (30 * j.block + i) .lost

/-- The old values of the block; none where CU has to evaluate the word (R144). -/
def CodeJob.oldValues (j : CodeJob) (m : Memory) : List (Option Int) :=
  (List.range 24).map fun i =>
    match j.oldFlag i with
    | .lost => none
    | _ => some (codedSample (m.readWord (playbackAddr j.base j.slot (30 * j.block + i))))

/-- The inputs of a block gathered: its LOST old words go to CU, or the block is formed at once (R65, R66, R135). -/
def Chip.gatherBlock (j : CodeJob) (p : Chip) : Chip :=
  match j.punch with
  | none => p.offerCodeWrite j
  | some _ =>
    let p := p.setJob (some (.code { j with stage := .concealing }))
    let p := ((List.range 24).filter fun i => j.oldFlag i == .lost).foldl
      (fun p i => p.startEval j.segment (12 * j.block + i / 2) (i % 2) (.codeEngine i)) p
    p.codeProceed

/-- CODE_BLOCK_READ (R66, R144 to R146). -/
def execCodeBlockRead (s : State) : Out :=
  match s.ce.job with
  | some (.code j) =>
    if j.stage = .blockRead ∧ s.mp.mayGrant .codeEngine then
      let j := { j with old := j.oldValues s.mem, new := j.newValues s.mem }
      .next (s.onChip fun p => (p.beginGrant .codeEngine).gatherBlock j)
    else .next s
  | _ => .next s

/-- The write of a coded block; block 0's clears the valid mark too (R67). -/
def CodeJob.blockWrites (j : CodeJob) (ws : List Nat) : List (Nat × Word) :=
  placeWords (outgoingAddr j.base j.slot (30 * j.block)) (ws.map word)
    ++ (if j.block = 0 then [(outgoingAddr j.base j.slot 510, word (summaryWord j.segment false))] else [])

/-- A coded block written: the next one is begun, or the summary write offered (R67). -/
def Chip.codeAdvance (j : CodeJob) (p : Chip) : Chip :=
  if j.block < 15 then p.beginCodeBlock { j with block := j.block + 1 }
  else (p.setJob (some (.code { j with stage := .summaryWrite }))).offer .codeEngine

/-- CODE_BLOCK_WRITE (R64, R67). -/
def execCodeBlockWrite (s : State) : Out :=
  match s.ce.job with
  | some (.code j) =>
    match j.stage with
    | .blockWrite ws =>
      if s.mp.mayGrant .codeEngine then
        .next { s with
          toChip := (s.toChip.beginGrant .codeEngine).codeAdvance j
          mem := Memory.writeWords s.mem (j.blockWrites ws) }
      else .next s
    | _ => .next s
  | _ => .next s

/-- The summary write (R67). -/
def CodeJob.summaryWrites (j : CodeJob) : List (Nat × Word) :=
  [(outgoingAddr j.base j.slot 510, word (summaryWord j.segment true)),
    (outgoingAddr j.base j.slot 511, word (codeWord j.copyWord j.clipCount j.underrunCount))]

/-- The report of coding offered to ST (R58, R67). -/
def Chip.reportCode (j : CodeJob) (p : Chip) : Chip :=
  let p := p.setJob none
  let s := p.slot j.slot
  if s.holds j.segment ∧ s.serial = j.serial ∧ s.write = .coding then
    (p.modSlot j.slot fun x => { x with write := .queued }).finish
  else p

/-- CODE_SUMMARY_WRITE (R58, R67, R112). -/
def execCodeSummaryWrite (s : State) : Out :=
  match s.ce.job with
  | some (.code j) =>
    if j.stage = .summaryWrite ∧ s.mp.mayGrant .codeEngine then
      .next { s with
        toChip := (s.toChip.beginGrant .codeEngine).reportCode j
        mem := Memory.writeWords s.mem j.summaryWrites }
    else .next s
  | _ => .next s

end Sys2Proof.Machine
end

