-- ==== Sys2Proof/Machine/Copies.lean ====
section
/-! DEFINITION. The commands of the edit and clip unit: captures, saves, loads, the stack mirror (chapters 8 and 9). -/

namespace Sys2Proof.Machine

/-! ## Block reads shared by captures and saves (R154, R163) -/

/-- The audio words and flags of a block of a playback image. -/
def audioBlock (m : Memory) (base slot block : Nat) : List (Nat × WordFlag) :=
  (List.range 24).map fun i => playedWord m base slot (30 * block + i)

/-- The code value a copy takes from a word; a LOST one has none yet. -/
def copiedValue (wf : Nat × WordFlag) : Option Nat :=
  match wf.2 with
  | .lost => none
  | _ => some wf.1

/-- The positions of the LOST words of a block. -/
def lostPositions (ws : List (Nat × WordFlag)) : List Nat :=
  (List.range 24).filter fun i => (ws.getD i (0, .clean)).2 == .lost

/-- The LOST words of a block handed to CU for internal evaluations (R135). -/
def Chip.concealBlock (segment block : Nat) (asker : Nat → Asker) (ws : List (Nat × WordFlag)) (p : Chip) : Chip :=
  (lostPositions ws).foldl
    (fun p i => p.startEval segment (12 * block + i / 2) (i % 2) (asker i)) p

/-! ## Captures (R154, R155) -/

/-- The slot a capture copies from. -/
def Capture.slot (c : Capture) : Fin 128 := slotOf (c.first + c.segment)

/-- A block of the capture read (R154). -/
def Chip.captureRead (c : Capture) (ws : List (Nat × WordFlag)) (p : Chip) : Chip :=
  let c := { c with stage := .concealing, values := ws.map copiedValue }
  let p := { p with ecu := { p.ecu with capture := some c } }
  (p.concealBlock (c.first + c.segment) c.block (.capture c.id) ws).captureProceed c.id

/-- CAPTURE_BLOCK_READ (R154). -/
def execCaptureBlockRead (s : State) : Out :=
  match s.ecu.capture with
  | some c =>
    if c.stage = .reading ∧ s.mp.mayGrant .capture then
      let ws := audioBlock s.mem c.base c.slot c.block
      .next (s.onChip fun p => (p.beginGrant .capture).captureRead c ws)
    else .next s
  | none => .next s

/-- The capture goes on to its next read. -/
def Chip.nextCapture (c : Capture) (segment block : Nat) (p : Chip) : Chip :=
  { p with
    ecu := { p.ecu with
      capture := some { c with segment := segment, block := block, stage := .reading, values := [] } } }.offer .capture

/-- The clip as the end of its capture leaves it (R155). -/
def Clip.captured (old : Clip) (c : Capture) : Clip :=
  { old with state := .ready, length := c.count, grade := some c.grade, singleUse := c.grade == .none }

/-- The detail of CAPTURE's DONE (R155, spec/11 11.2). -/
def captureDetail (c : Capture) : Nat := c.count + 256 * c.grade.code

/-- The capture ends (R155). -/
def Chip.endCapture (c : Capture) (p : Chip) : Chip :=
  let p := { p with ecu := { p.ecu with capture := none } }
  (p.setClip c.clip ((p.ecu.clips[c.clip]).captured c)).report .done (captureDetail c)

/-- A clip block written (R154, R155). -/
def Chip.captureWritten (c : Capture) (p : Chip) : Chip :=
  if c.block < 15 then p.nextCapture c c.segment (c.block + 1)
  else
    let p := if c.segment + 1 < c.count then p.nextCapture c (c.segment + 1) 0 else p.endCapture c
    (p.unpin c.slot).finish

/-- The clip words of a block (R154). -/
def Capture.writes (c : Capture) : List (Nat × Word) :=
  placeWords (clipAddr c.base c.clip c.segment (24 * c.block)) (c.values.map fun v => word (v.getD 0))

/-- CAPTURE_BLOCK_WRITE (R61, R154, R155). -/
def execCaptureBlockWrite (s : State) : Out :=
  match s.ecu.capture with
  | some c =>
    if c.stage = .writing ∧ s.mp.mayGrant .capture then
      .next { s with
        toChip := (s.toChip.beginGrant .capture).captureWritten c
        mem := Memory.writeWords s.mem c.writes }
    else .next s
  | none => .next s

/-! ## Saves (R163) -/

/-- The save at the head of the queue begun (R163, log 22). -/
def Chip.takeSave (v : Save) (rest : List Save) (p : Chip) : Chip :=
  { p with
    ecu := { p.ecu with
      saves := rest
      saving := some ⟨v, p.cpm.map.privateBase, 0, .reading, [], false, false⟩ } }.offer .save

/-- SAVE_TAKE (R163): no save is in progress (log 26). -/
def execSaveTake (s : State) : Out :=
  match s.ecu.saving, s.ecu.saves with
  | none, v :: rest => .next (s.onChip fun p => p.begin.takeSave v rest)
  | _, _ => .next s

/-- A block of the save read (R163). -/
def Chip.saveRead (j : SaveJob) (ws : List (Nat × WordFlag)) (p : Chip) : Chip :=
  let j := { j with
    stage := .concealing
    values := ws.map copiedValue
    concealed := j.concealed || ws.any (fun wf => wf.2 == .lost) }
  let p := { p with ecu := { p.ecu with saving := some j } }
  (p.concealBlock j.save.segment j.block .save ws).saveProceed

/-- SAVE_BLOCK_READ (R163). -/
def execSaveBlockRead (s : State) : Out :=
  match s.ecu.saving with
  | some j =>
    if j.stage = .reading ∧ s.mp.mayGrant .save then
      let ws := audioBlock s.mem j.base j.save.slot j.block
      .next (s.onChip fun p => (p.beginGrant .save).saveRead j ws)
    else .next s
  | none => .next s

/-- The image record of a save whose blocks are copied (R163). -/
def SaveJob.record (j : SaveJob) (r : Recovered) : ImageRecord where
  used := true
  segment := j.save.segment
  grade := r.grade
  unrecovered := r == .unrecovered
  baked := j.concealed || r.baked
  marker := r.marker

/-- An undo block written: the next is read, or the closing write offered and the image record set (R163). -/
def Chip.saveWritten (j : SaveJob) (p : Chip) : Chip :=
  if j.block < 15 then
    { p with
      ecu := { p.ecu with
        saving := some { j with block := j.block + 1, stage := .reading, values := [] } } }.offer .save
  else
    let p := p.setImage j.save.image (j.record (p.slot j.save.slot).recovered)
    { p with ecu := { p.ecu with saving := some { j with stage := .closing } } }.offer .save

/-- The undo words of a block (R163). -/
def SaveJob.writes (j : SaveJob) : List (Nat × Word) :=
  placeWords (undoAddr j.base j.save.image (30 * j.block)) (j.values.map fun v => word (v.getD 0))

/-- SAVE_BLOCK_WRITE (R163). -/
def execSaveBlockWrite (s : State) : Out :=
  match s.ecu.saving with
  | some j =>
    if j.stage = .writing ∧ s.mp.mayGrant .save then
      .next { s with
        toChip := (s.toChip.beginGrant .save).saveWritten j
        mem := Memory.writeWords s.mem j.writes }
    else .next s
  | none => .next s

/-- The closing write: summary and saved copy word (R163). -/
def closingWrites (j : SaveJob) (r : ImageRecord) : List (Nat × Word) :=
  [(undoAddr j.base j.save.image 510, word (summaryWord j.save.segment true)),
    (undoAddr j.base j.save.image 511, word (savedCopyWord r))]

/-- The save ends: its SEG entry is pushed (R163, R165). -/
def Chip.endSave (j : SaveJob) (p : Chip) : Chip :=
  let p := (p.secureWords 2).pushEntry (.seg j.save.segment j.save.image)
  let p := { p with ecu := { p.ecu with segCount := p.ecu.segCount + 1, saving := none } }
  (p.modSlot j.save.slot fun s => { s with undoSave := .ended }).queueTest j.save.slot

/-- SAVE_CLOSING_WRITE (R57, R163, R165). -/
def execSaveClosingWrite (s : State) : Out :=
  match s.ecu.saving with
  | some j =>
    if j.stage = .closing ∧ s.mp.mayGrant .save then
      .next { s with
        toChip := (s.toChip.beginGrant .save).endSave j
        mem := Memory.writeWords s.mem (closingWrites j (s.ecu.images[j.save.image])) }
    else .next s
  | none => .next s

/-! ## Loads (R169) -/

/-- A load replaced by its next state. -/
def Chip.putLoad (l : Load) (p : Chip) : Chip :=
  { p with ecu := { p.ecu with loads := p.ecu.loads.map fun x => if x.slot == l.slot then l else x } }

/-- LOAD_BLOCK_READ (R169). -/
def execLoadBlockRead (slot : Fin 128) (s : State) : Out :=
  match s.toChip.loadOf slot with
  | some l =>
    if l.values = none ∧ s.mp.mayGrant (.load slot) then
      let ws := Memory.readWords s.mem (wordAddrs (undoAddr l.base l.image (30 * l.block)) 24)
      .next (s.onChip fun p =>
        ((p.beginGrant (.load slot)).putLoad { l with values := some ws }).offer (.load slot))
    else .next s
  | none => .next s

/-- An outgoing block of a load written: the next is read, or the load ends (R57, R169). -/
def Chip.loadWritten (l : Load) (p : Chip) : Chip :=
  if l.block < 15 then (p.putLoad { l with block := l.block + 1, values := none }).offer (.load l.slot)
  else (p.dropLoad l.slot).queueTest l.slot

/-- LOAD_BLOCK_WRITE (R57, R169). -/
def execLoadBlockWrite (slot : Fin 128) (s : State) : Out :=
  match s.toChip.loadOf slot with
  | some l =>
    match l.values with
    | some ws =>
      if s.mp.mayGrant (.load slot) then
        .next { s with
          toChip := (s.toChip.beginGrant (.load slot)).loadWritten l
          mem := Memory.writeWords s.mem (placeWords (outgoingAddr l.base l.slot (30 * l.block)) ws) }
      else .next s
    | none => .next s
  | none => .next s

/-! ## The stack mirror (R161) -/

/-- The mirror write at the front of class 6; mirror writes keep their order (log 8). -/
def Mp.mirrorFront (m : Mp) : Option Req := (frontGroup m.queues[(5 : Fin 7)]).find? Req.ordered

/-- STACK_MIRROR_WRITE (R161). -/
def execStackMirrorWrite (s : State) : Out :=
  match s.mp.mirrorFront with
  | some (.mirror writes) =>
    if s.mp.mayGrant (.mirror writes) then
      .next { s with
        toChip := s.toChip.beginGrant (.mirror writes)
        mem := Memory.writeWords s.mem writes }
    else .next s
  | _ => .next s

end Sys2Proof.Machine
end

