-- ==== Sys2Proof/Machine/Link.lean ====
section
/-! DEFINITION. The commands of the drum link: staging writes, row fetches, received frames, frames leaving, timers
(chapter 5), with the DUE decisions of the run kinds (R113, R142, R170). -/

namespace Sys2Proof.Machine

/-! ## STAGING_WRITE (R51, R52, R98) -/

/-- ST's decision on a staged row (R51). -/
inductive RowDecision where
  | outOfWindow
  | overrun
  | accepted
  | late
  deriving DecidableEq, Repr

/-- The run takes rows of a segment: it is ACTIVE, PLAY or EDIT, and the position is in its window (R51). -/
def Chip.takesRows (p : Chip) (segment : Nat) : Bool :=
  match p.rc.run with
  | none => false
  | some r =>
    p.rc.state == .active && (r.kind == .play || r.kind == .edit)
      && (match r.positionOf segment with
        | some q => r.inWindow q
        | none => false)

/-- The decision on a row (R51). -/
def Chip.decideRow (p : Chip) (row : StagedRow) : RowDecision :=
  let s := p.slot (slotOf row.segment)
  if p.takesRows row.segment = false then .outOfWindow
  else if s.claimed ∧ s.segment ≠ row.segment then .overrun
  else if s.claimed ∧ (s.play = .empty ∨ s.play = .arriving) ∧ s.rows[Fin.ofNat 30 row.row] = .notIn then .accepted
  else .late

/-- An accepted row: arrived, and the decode queued if it is the last to come in (R51, R53). -/
def Chip.acceptRow (row : StagedRow) (p : Chip) : Chip :=
  let i := slotOf row.segment
  let p := p.modSlot i fun s =>
    { s with
      rows := s.rows.set (Fin.ofNat 30 row.row) (.arrived row.void row.mask)
      play := .arriving }
  if (p.slot i).allIn then p.queueDecode i else p

/-- The words of an accepted row at their places in the playback image (R41, R51). -/
def rowWrites (base : Nat) (row : StagedRow) : List (Nat × Word) :=
  row.words.zipIdx.map fun (w, k) => (playbackAddr base (slotOf row.segment) (rowImageWord row.row k), w)

/-- An overrun row recorded; the first of its segment raises OVERRUN (R52, R98). A record of another segment is replaced
(the model's choice, log 44). -/
def Chip.noteOverrun (row : StagedRow) (p : Chip) : Chip :=
  let i := slotOf row.segment
  let bit := BitVec.ofNat 30 (2 ^ row.row)
  let p := p.bump .overrun 1
  let fresh (p : Chip) : Chip :=
    (p.modSlot i fun s => { s with overrun := some (row.segment, bit) }).raise
      (.overrun row.segment i.val (p.slot i).segment)
  match (p.slot i).overrun with
  | some (t, set) =>
    if t = row.segment then p.modSlot i fun s => { s with overrun := some (t, set ||| bit) } else fresh p
  | none => fresh p

/-- ST's part of a staging grant (R51, R52). -/
def Chip.stageRow (row : StagedRow) (p : Chip) : Chip :=
  match p.decideRow row with
  | .accepted => p.acceptRow row
  | .overrun => p.noteOverrun row
  | .outOfWindow => p
  | .late => p

/-- A credit released; at 8 or more a GRANT is handed (R98, R99). -/
def Chip.releaseCredit (p : Chip) : Chip :=
  let p := { p with dlc := { p.dlc with released := p.dlc.released + 1 } }
  if Config.grantThreshold ≤ p.dlc.released then p.handGrant else p

/-- DLC's part of a staging grant: the row leaves the FIFO and its credit is released (R98). -/
def Chip.unstage (rest : List StagedRow) (p : Chip) : Chip :=
  let p := ({ p with dlc := { p.dlc with staging := rest } }).releaseCredit
  if rest.isEmpty then p else p.offer .staging

/-- The words a staging grant writes: those of an accepted row (R51). -/
def Chip.stagedWrites (p : Chip) (row : StagedRow) : List (Nat × Word) :=
  match p.decideRow row with
  | .accepted => rowWrites p.cpm.map.privateBase row
  | .overrun => []
  | .outOfWindow => []
  | .late => []

/-- STAGING_WRITE (R41, R51 to R53, R98). -/
def execStagingWrite (s : State) : Out :=
  match s.dlc.staging with
  | [] => .next s
  | row :: rest =>
    if s.mp.mayGrant .staging then
      .next { s with
        toChip := (((s.toChip.beginGrant .staging).stageRow row).unstage rest).noteStatus
        mem := Memory.writeWords s.mem (s.toChip.stagedWrites row) }
    else .next s

/-! ## ROW_FETCH (R90) -/

/-- The slot still matches a fetch (R90). -/
def Chip.fetchMatches (p : Chip) (f : RowFetch) : Bool :=
  let s := p.slot f.slot
  s.holds f.segment && s.serial == f.serial && (s.write == .queued || s.write == .sending)

/-- A WRITE row sent under a credit and retained (R90, R93). -/
def Chip.sendRow (f : RowFetch) (words : List Word) (p : Chip) : Chip :=
  let d := p.dlc
  let e : Retained := ⟨d.sendSeq, f.segment, f.row, f.slot, f.serial, some words⟩
  let p := { p with
    dlc := { d with
      sendSeq := d.sendSeq + 1
      writeCredits := d.writeCredits - 1
      retention := d.retention ++ [e]
      cursorRow := d.cursorRow + 1
      ackTimer := if d.retention.isEmpty then some p.cpm.link.ackTimeout else d.ackTimer } }
  let p := p.hand (.row e.seq f.segment f.row words)
  if f.row = 0 then p.modSlot f.slot fun s => { s with write := .sending } else p

/-- The outgoing words of a row (R41, R90). -/
def rowWords (m : Memory) (f : RowFetch) : List Word :=
  (List.range 16).map fun k => m.readWord (outgoingAddr f.base f.slot (rowImageWord f.row k))

/-- ROW_FETCH (R41, R89, R90). -/
def execRowFetch (s : State) : Out :=
  match s.dlc.fetch with
  | none => .next s
  | some f =>
    if s.mp.mayGrant .rowFetch then
      let words := rowWords s.mem f
      .next (s.onChip fun p =>
        let p := p.beginGrant .rowFetch
        let p := { p with dlc := { p.dlc with fetch := none } }
        (if p.fetchMatches f then p.sendRow f words else p).finish)
    else .next s

/-! ## OPENED, CLEAR (R85, R86) -/

/-- The link comes UP (R85, R103). -/
def Chip.comeUp (p : Chip) : Chip :=
  let p := { p with
    dlc := { p.dlc with
      linkState := .up
      sendSeq := 0
      recvSeq := 0
      writeCredits := 0
      retention := []
      retryCount := 0
      recvWindow := 0
      outstanding := 0
      released := Config.creditMax
      staging := []
      lane := []
      ackTimer := none
      creditTimer := none
      openTimer := none } }
  (p.handGrant).raise .linkUp

/-- OPENED_RECEIVED (R83, R85). -/
def execOpenedReceived (frame : List Byte) (s : State) : Out :=
  if receive frame = .frame .opened ∧ s.dlc.linkState = .opening then
    .next (s.onChip fun p => (p.begin.comeUp).noteStatus)
  else .next s

/-- CLEAR_RECEIVED (R83, R84, R86). -/
def execClearReceived (frame : List Byte) (s : State) : Out :=
  if receive frame = .frame .clearLink ∧ (s.dlc.linkState = .up ∨ s.dlc.linkState = .failed) then
    .next (s.onChip fun p => ((p.begin.clearLink false).openLink false).noteStatus)
  else .next s

/-! ## PLAY_ROW_RECEIVED (R96, R97) -/

/-- The receive seq and window after the row at e: e passes every seq that follows without a gap (R96). -/
def advanceSeq : Nat → BitVec 3 → BitVec 8 → BitVec 3 × BitVec 8
  | 0, e, w => (e, w)
  | n + 1, e, w =>
    if w.getLsbD e.toNat then advanceSeq n (e + 1) (w &&& ~~~(BitVec.ofNat 8 (2 ^ e.toNat))) else (e, w)

/-- The seqs from e on, a of them, that are not in the window (R96). -/
def missingFlags (e : BitVec 3) (a : Nat) (w : BitVec 8) : BitVec 8 :=
  (List.range a).foldl (fun (f : BitVec 8) k =>
    let q := (e + BitVec.ofNat 3 k).toNat
    if w.getLsbD q then f else f ||| BitVec.ofNat 8 (2 ^ q)) 0

/-- The flag of a received seq cleared in a waiting MISSING (R82). -/
def Chip.clearMissing (seq : BitVec 3) (p : Chip) : Chip :=
  { p with
    dlc := { p.dlc with
      lane := p.dlc.lane.map fun e =>
        match e.frame with
        | .missing f => { e with frame := .missing (f &&& ~~~(BitVec.ofNat 8 (2 ^ seq.toNat))) }
        | _ => e } }

/-- The row is a duplicate (R96). -/
def Dlc.isDuplicate (d : Dlc) (seq : BitVec 3) : Bool :=
  let a := (seq - d.recvSeq).toNat
  a == 7 || (1 ≤ a && d.recvWindow.getLsbD seq.toNat)

/-- The row is malformed (R96, R187). -/
def StagedRow.malformed (row : StagedRow) : Bool := 29 < row.row || Config.maxSegment < row.segment

/-- Step 2 of R96: a malformed row returns its credit, another enters the staging FIFO. -/
def Chip.enterStaging (row : StagedRow) (p : Chip) : Chip :=
  if row.malformed then p.releaseCredit
  else
    let head := p.dlc.staging.isEmpty
    let p := { p with dlc := { p.dlc with staging := p.dlc.staging ++ [row] } }
    if head then p.offer .staging else p

/-- Step 3 of R96: the receive seq and window, and the MISSING a gap asks for. -/
def Chip.takeSeq (seq : BitVec 3) (p : Chip) : Chip :=
  let d := p.dlc
  let a := (seq - d.recvSeq).toNat
  if a = 0 then
    let ew := advanceSeq 7 (d.recvSeq + 1) d.recvWindow
    { p with dlc := { d with recvSeq := ew.1, recvWindow := ew.2 } }
  else
    let w := d.recvWindow ||| BitVec.ofNat 8 (2 ^ seq.toNat)
    ({ p with dlc := { d with recvWindow := w } }).handMissing (missingFlags d.recvSeq a w)

/-- A new row (R96). One dropped for want of credit keeps its flag in a waiting MISSING (the model's choice, log 45). -/
def Chip.newRow (seq : BitVec 3) (row : StagedRow) (p : Chip) : Chip :=
  if p.dlc.outstanding = 0 then p
  else
    let p := { p with dlc := { p.dlc with outstanding := p.dlc.outstanding - 1 } }
    ((p.clearMissing seq).enterStaging row).takeSeq seq

/-- A PLAY row received in UP (R96, R97). -/
def Chip.playRow (seq : BitVec 3) (row : StagedRow) (p : Chip) : Chip :=
  let p := p.bump .rowsReceived 1
  if p.dlc.isDuplicate seq then p.handGrant else p.newRow seq row

/-- PLAY_ROW_RECEIVED (R83, R96, R97). -/
def execPlayRowReceived (frame : List Byte) (s : State) : Out :=
  match receive frame with
  | .frame (.playRow seq t row void mask words) =>
    if s.dlc.linkState = .up then
      .next (s.onChip fun p => (p.begin.playRow seq ⟨t.toNat, row.toNat, void, mask, words⟩).noteStatus)
    else .next s
  | _ => .next s

/-! ## GRANT and MISSING (R91, R92) -/

/-- The base of the retention queue (spec/05 5.3). -/
def Dlc.base (d : Dlc) : BitVec 3 :=
  match d.retention with
  | [] => d.sendSeq
  | e :: _ => e.seq

/-- The d oldest entries acknowledged: an advance (R91). -/
def Chip.acknowledge (n : Nat) (p : Chip) : Chip :=
  let freed := p.dlc.retention.take n
  let rest := p.dlc.retention.drop n
  let p := { p with
    dlc := { p.dlc with
      retention := rest
      retryCount := 0
      ackTimer := if rest.isEmpty then none else some p.cpm.link.ackTimeout } }
  let p := freed.foldl (fun p e => p.unhandRow e.seq) p
  freed.foldl (fun p e => if e.words.isSome then p.rowAcked e else p) p

/-- A GRANT received in UP (R91). -/
def Chip.takeGrant (next : BitVec 3) (credits : Nat) (p : Chip) : Chip :=
  let p := { p with dlc := { p.dlc with writeCredits := min Config.creditMax (p.dlc.writeCredits + credits) } }
  let d := (next - p.dlc.base).toNat
  if 1 ≤ d ∧ d ≤ p.dlc.retention.length then p.acknowledge d else p

/-- GRANT_RECEIVED (R58, R83, R91). -/
def execGrantReceived (frame : List Byte) (s : State) : Out :=
  match receive frame with
  | .frame (.grant next credits) =>
    if s.dlc.linkState = .up then .next (s.onChip fun p => (p.begin.takeGrant next credits.toNat).finish) else .next s
  | _ => .next s

/-- A MISSING received in UP (R92). -/
def Chip.takeMissing (flags : BitVec 8) (p : Chip) : Chip :=
  (p.dlc.retention.filter fun e => flags.getLsbD e.seq.toNat).foldl Chip.resend p

/-- MISSING_RECEIVED (R83, R92). -/
def execMissingReceived (frame : List Byte) (s : State) : Out :=
  match receive frame with
  | .frame (.missing flags) =>
    if s.dlc.linkState = .up then .next (s.onChip fun p => (p.begin.takeMissing flags).noteStatus) else .next s
  | _ => .next s

/-! ## DUE (R101, R110, R113, R142, R170) -/

/-- What a DUE finds before the write side is looked at: no segment of the run, a released position, a position whose
slot is not claimed for it, or the slot claimed for it. -/
inductive DuePlace where
  | foreign
  | released
  | unclaimed (q : Nat)
  | claimed (slot : Fin 128)
  deriving DecidableEq, Repr

/-- The place of a DUE's segment in the run (R113, R142, R170). -/
def Chip.duePlace (p : Chip) (r : RunRecord) (segment : Nat) : DuePlace :=
  match r.positionOf segment with
  | none => .foreign
  | some q =>
    let i := slotOf segment
    let s := p.slot i
    if s.holds segment then .claimed i
    else if q < s.unreleased then .released
    else .unclaimed q

/-- The due horizon raised to a position (R113, R114). -/
def Chip.raiseHorizon (q : Nat) (p : Chip) : Chip :=
  p.modRun fun r => { r with
    dueHorizon := match r.dueHorizon with
      | none => some q
      | some h => some (max h q) }

/-- A DUE in a RECORD run, the slot claimed for its segment (R113). -/
def Chip.dueRecord (i : Fin 128) (p : Chip) : Chip :=
  match (p.slot i).write with
  | .filling => p.closeByDue i
  | _ => p

/-- A write side broken by its DUE: OMIT, discard, EDIT_BROKEN, settled (R142). -/
def Chip.breakEdit (i : Fin 128) (p : Chip) : Chip :=
  let s := p.slot i
  let p := (p.handOmit s.segment).discardWrite i
  ((p.raise (.editBroken s.segment s.play s.write false)).settle).releaseTest i

/-- A DUE in an EDIT run, the slot claimed for its segment (R142). -/
def Chip.dueEdit (i : Fin 128) (p : Chip) : Chip :=
  let s := p.slot i
  match s.write with
  | .idle => p.handOmit s.segment
  | .filling => if s.play = .ready then p.closeByDue i else p.breakEdit i
  | .closed => if s.play = .ready then p else p.breakEdit i
  | .coding => p
  | .queued => p
  | .sending => p
  | .done => p

/-- A DUE in a REVERT run, the slot claimed for its segment (R170). -/
def Chip.dueRevert (i : Fin 128) (p : Chip) : Chip :=
  match (p.slot i).write with
  | .idle => p.handOmit (p.slot i).segment
  | _ => p

/-- A DUE by run kind, the slot claimed for its segment. -/
def Chip.dueClaimed (kind : RunKind) (i : Fin 128) (p : Chip) : Chip :=
  match kind with
  | .play => p
  | .record => p.dueRecord i
  | .edit => p.dueEdit i
  | .revert => p.dueRevert i

/-- A DUE handed to RC (R110): only an ACTIVE run with write sides acts on it. -/
def Chip.takeDue (segment : Nat) (p : Chip) : Chip :=
  match p.rc.run with
  | none => p
  | some r =>
    if p.rc.state = .active ∧ r.kind ≠ .play then
      (match p.duePlace r segment with
        | .foreign => p.raise (.dueStray segment 0)
        | .released => p.raise (.dueStray segment 2)
        | .unclaimed q => (p.raise (.dueStray segment 1)).raiseHorizon q
        | .claimed i => p.dueClaimed r.kind i).finish
    else p

/-- DUE_RECEIVED (R83, R101, R110). -/
def execDueReceived (frame : List Byte) (s : State) : Out :=
  match receive frame with
  | .frame (.due t) =>
    if s.dlc.linkState = .up then .next (s.onChip fun p => p.begin.takeDue t.toNat) else .next s
  | _ => .next s

/-! ## Frames dropped (R81, R83, R84) -/

/-- A frame dropped for its CRC or its length (R81, R187); not counted in DOWN (R84). -/
def Chip.dropBad (p : Chip) : Chip :=
  match p.dlc.linkState with
  | .down => p
  | _ => p.bump .badCrcRows 1

/-- BAD_CRC_FRAME (R81, R84, R187). -/
def execBadCrcFrame (frame : List Byte) (s : State) : Out :=
  if receive frame = .bad then .next (s.onChip fun p => (p.begin.dropBad).noteStatus) else .next s

/-- A received frame of this kind is dropped in a link state (R81, R83). -/
def Frame.dropped (f : Frame) (l : LinkState) : Bool :=
  match f with
  | .opened => l != .opening
  | .clearLink => l != .up && l != .failed
  | .playRow .. => l != .up
  | .grant .. => l != .up
  | .missing _ => l != .up
  | .due _ => l != .up
  | .writeRow .. => true
  | .omitSegment _ => true
  | .openLink => true

/-- What the lane received is dropped in a link state (R81, R83). -/
def Reception.dropped (r : Reception) (l : LinkState) : Bool :=
  match r with
  | .bad => false
  | .unknownKind => true
  | .frame f => f.dropped l

/-- DROPPED_FRAME (R81, R83, R84): nothing changes but the count of events. -/
def execDroppedFrame (frame : List Byte) (s : State) : Out :=
  if (receive frame).dropped s.dlc.linkState then .next (s.onChip fun p => p.begin) else .next s

/-! ## FRAME_LEAVES (R82, R99, R187) -/

/-- A waiting frame that may not keep its place: a GRANT or a MISSING (R82, log 35). -/
def LaneFrame.isControl : LaneFrame → Bool
  | .grant => true
  | .missing _ => true
  | _ => false

/-- The frame that leaves next, and the frames that stay: the first, or, of a GRANT and a MISSING handed together at the
front, the second (R82, log 35). -/
def nextFrame (lane : List LaneEntry) (second : Bool) : Option (LaneFrame × List LaneEntry) :=
  match lane, second with
  | a :: rest, false => some (a.frame, rest)
  | a :: b :: rest, true =>
    if a.stamp = b.stamp ∧ a.frame.isControl ∧ b.frame.isControl then some (b.frame, a :: rest) else none
  | _, _ => none

/-- A frame put out on the lane (R187). -/
def Chip.send (f : Frame) (p : Chip) : Chip :=
  { p with dlc := { p.dlc with sent := p.dlc.sent ++ [f.bytes] } }

/-- A GRANT starts to leave: it takes its fields, and the released credits become outstanding (R99). -/
def Chip.sendGrant (p : Chip) : Chip :=
  let d := p.dlc
  let p := p.send (.grant d.recvSeq (BitVec.ofNat 6 d.released))
  { p with
    dlc := { p.dlc with
      outstanding := d.outstanding + d.released
      released := 0
      creditTimer := some p.cpm.link.creditInterval } }

/-- A waiting frame leaves; a MISSING left with no flag is not sent (R82). -/
def Chip.leave (f : LaneFrame) (p : Chip) : Chip :=
  match f with
  | .grant => p.sendGrant
  | .missing flags => if flags = 0 then p else p.send (.missing flags)
  | .row seq t row words => p.send (.writeRow seq (BitVec.ofNat 24 t) (BitVec.ofNat 5 row) words)
  | .openLink => p.send .openLink
  | .omitSegment t => p.send (.omitSegment (BitVec.ofNat 24 t))
  | .clearLink => p.send .clearLink

/-- FRAME_LEAVES (R82, R99, R187). -/
def execFrameLeaves (second : Bool) (s : State) : Out :=
  match nextFrame s.dlc.lane second with
  | none => .next s
  | some (f, rest) =>
    .next (s.onChip fun p =>
      let p := p.begin
      ({ p with dlc := { p.dlc with lane := rest } }).leave f)

/-! ## Timers (R84, R93, R99, R118, log 6) -/

/-- OPEN_RETRY_EXPIRY (R84). -/
def execOpenRetryExpiry (s : State) : Out :=
  if s.dlc.linkState = .opening ∧ s.dlc.openTimer = some 0 then
    .next (s.onChip fun p =>
      let p := p.begin.handOpen
      { p with dlc := { p.dlc with openTimer := some p.cpm.link.openRetry } })
  else .next s

/-- The acknowledgement timer expires (R93): at the retry limit, or above one lowered since (log 38), the link fails. -/
def Chip.ackExpired (p : Chip) : Chip :=
  if p.cpm.link.retryLimit ≤ p.dlc.retryCount then p.failLink
  else
    let p := { p with
      dlc := { p.dlc with
        retryCount := p.dlc.retryCount + 1
        ackTimer := some p.cpm.link.ackTimeout } }
    p.dlc.retention.foldl Chip.resend p

/-- ACK_TIMER_EXPIRY (R88, R93). -/
def execAckTimerExpiry (s : State) : Out :=
  if s.dlc.linkState = .up ∧ s.dlc.ackTimer = some 0 then
    .next (s.onChip fun p => (p.begin.ackExpired).noteStatus)
  else .next s

/-- CREDIT_TIMER_EXPIRY (R99): the timer starts again when the GRANT leaves. -/
def execCreditTimerExpiry (s : State) : Out :=
  if s.dlc.linkState = .up ∧ s.dlc.creditTimer = some 0 then
    .next (s.onChip fun p =>
      let p := p.begin.handGrant
      { p with dlc := { p.dlc with creditTimer := none } })
  else .next s

/-- The drain timer of the run, if there is one. -/
def Chip.drainTimer (p : Chip) : Option Nat := p.rc.run.bind RunRecord.drainTimer

/-- The drain timer expires (R118, R119). -/
def Chip.drainExpired (p : Chip) : Chip :=
  ((p.modRun fun r => { r with drainTimer := none }).giveUp).finish

/-- DRAIN_TIMER_EXPIRY (R94, R118, R119). -/
def execDrainTimerExpiry (s : State) : Out :=
  if s.rc.state = .draining ∧ s.toChip.drainTimer = some 0 then .next (s.onChip fun p => p.begin.drainExpired)
  else .next s

end Sys2Proof.Machine
end

