-- ==== Sys2Proof/Machine/Dispatch.lean ====
section
/-! DEFINITION. The meaning of each command: one arm per row of the table. -/

namespace Sys2Proof.Machine

/-- A command's effect on everything but the queue of waiting commands. -/
def exec (i : Instr) (s : State) : Host.Outcome State Fault Refusal :=
  match i with
  | .pinReset => Sys2Proof.Machine.execPinReset s
  | .writeAccept initiator addr data => Sys2Proof.Machine.execWriteAccept initiator addr data s
  | .readAccept initiator tag addr len => Sys2Proof.Machine.execReadAccept initiator tag addr len s
  | .writeGrant => Sys2Proof.Machine.execWriteGrant s
  | .audioViewWrite => Sys2Proof.Machine.execAudioViewWrite s
  | .modeMapWrite => Sys2Proof.Machine.execModeMapWrite s
  | .modeSignalWrite => Sys2Proof.Machine.execModeSignalWrite s
  | .modeLinkWrite => Sys2Proof.Machine.execModeLinkWrite s
  | .modeEditWrite => Sys2Proof.Machine.execModeEditWrite s
  | .play => Sys2Proof.Machine.execPlay s
  | .record => Sys2Proof.Machine.execRecord s
  | .edit => Sys2Proof.Machine.execEdit s
  | .revert => Sys2Proof.Machine.execRevert s
  | .stop => Sys2Proof.Machine.execStop s
  | .capture => Sys2Proof.Machine.execCapture s
  | .dropClip => Sys2Proof.Machine.execDropClip s
  | .mark => Sys2Proof.Machine.execMark s
  | .linkClear => Sys2Proof.Machine.execLinkClear s
  | .badReq => Sys2Proof.Machine.execBadReq s
  | .consumeCountWrite => Sys2Proof.Machine.execConsumeCountWrite s
  | .inputStatusWrite => Sys2Proof.Machine.execInputStatusWrite s
  | .noticeReadIndexWrite => Sys2Proof.Machine.execNoticeReadIndexWrite s
  | .readGrant entry => Sys2Proof.Machine.execReadGrant entry s
  | .outputStatusRead entry => Sys2Proof.Machine.execOutputStatusRead entry s
  | .audioViewFetch entry => Sys2Proof.Machine.execAudioViewFetch entry s
  | .neighbourFetch evaluation => Sys2Proof.Machine.execNeighbourFetch evaluation s
  | .readLate entry => Sys2Proof.Machine.execReadLate entry s
  | .stagingWrite => Sys2Proof.Machine.execStagingWrite s
  | .rowFetch => Sys2Proof.Machine.execRowFetch s
  | .ceTakeDecodeItem slot => Sys2Proof.Machine.execCeTakeDecodeItem slot s
  | .ceTakeCodeItem slot => Sys2Proof.Machine.execCeTakeCodeItem slot s
  | .decodeBlockRead => Sys2Proof.Machine.execDecodeBlockRead s
  | .decodeBlockWrite => Sys2Proof.Machine.execDecodeBlockWrite s
  | .decodeFinalWrite => Sys2Proof.Machine.execDecodeFinalWrite s
  | .codeFlagMapRead => Sys2Proof.Machine.execCodeFlagMapRead s
  | .codeBlockRead => Sys2Proof.Machine.execCodeBlockRead s
  | .codeBlockWrite => Sys2Proof.Machine.execCodeBlockWrite s
  | .codeSummaryWrite => Sys2Proof.Machine.execCodeSummaryWrite s
  | .captureBlockRead => Sys2Proof.Machine.execCaptureBlockRead s
  | .captureBlockWrite => Sys2Proof.Machine.execCaptureBlockWrite s
  | .saveTake => Sys2Proof.Machine.execSaveTake s
  | .saveBlockRead => Sys2Proof.Machine.execSaveBlockRead s
  | .saveBlockWrite => Sys2Proof.Machine.execSaveBlockWrite s
  | .saveClosingWrite => Sys2Proof.Machine.execSaveClosingWrite s
  | .loadBlockRead slot => Sys2Proof.Machine.execLoadBlockRead slot s
  | .loadBlockWrite slot => Sys2Proof.Machine.execLoadBlockWrite slot s
  | .stackMirrorWrite => Sys2Proof.Machine.execStackMirrorWrite s
  | .resultWrite => Sys2Proof.Machine.execResultWrite s
  | .statusWrite => Sys2Proof.Machine.execStatusWrite s
  | .noticeWrite => Sys2Proof.Machine.execNoticeWrite s
  | .openedReceived frame => Sys2Proof.Machine.execOpenedReceived frame s
  | .clearReceived frame => Sys2Proof.Machine.execClearReceived frame s
  | .playRowReceived frame => Sys2Proof.Machine.execPlayRowReceived frame s
  | .grantReceived frame => Sys2Proof.Machine.execGrantReceived frame s
  | .missingReceived frame => Sys2Proof.Machine.execMissingReceived frame s
  | .dueReceived frame => Sys2Proof.Machine.execDueReceived frame s
  | .badCrcFrame frame => Sys2Proof.Machine.execBadCrcFrame frame s
  | .droppedFrame frame => Sys2Proof.Machine.execDroppedFrame frame s
  | .frameLeaves second => Sys2Proof.Machine.execFrameLeaves second s
  | .openRetryExpiry => Sys2Proof.Machine.execOpenRetryExpiry s
  | .ackTimerExpiry => Sys2Proof.Machine.execAckTimerExpiry s
  | .creditTimerExpiry => Sys2Proof.Machine.execCreditTimerExpiry s
  | .drainTimerExpiry => Sys2Proof.Machine.execDrainTimerExpiry s

end Sys2Proof.Machine
end

