-- ==== Sys2Proof/Machine/Ticks.lean ====
section
/-! DEFINITION. What a step does on an empty queue: one microsecond of the reference timebase (log 6). -/

namespace Sys2Proof.Machine

/-- A timer after one more microsecond. -/
def tickTimer (t : Option Nat) : Option Nat := t.map fun n => n - 1

/-- A read after one more microsecond. -/
def Read.tick (r : Read) : Read := { r with holdTimer := tickTimer r.holdTimer }

/-- The reads after one more microsecond. -/
def Lbp.tick (l : Lbp) : Lbp :=
  { l with
    reads := allEntries.foldl
      (fun (v : Vector (Option Read) 8) (e : Fin 8) => v.set e ((l.reads[e]).map Read.tick)) l.reads }

/-- The link timers after one more microsecond. -/
def Dlc.tick (d : Dlc) : Dlc :=
  { d with
    ackTimer := tickTimer d.ackTimer
    creditTimer := tickTimer d.creditTimer
    openTimer := tickTimer d.openTimer }

/-- The run record after one more microsecond. -/
def RunRecord.tick (r : RunRecord) : RunRecord := { r with drainTimer := tickTimer r.drainTimer }

/-- The part after one more microsecond: every running timer is one lower, down to 0. -/
def Chip.tick (p : Chip) : Chip :=
  { p with lbp := p.lbp.tick, dlc := p.dlc.tick, rc := { p.rc with run := p.rc.run.map RunRecord.tick } }

/-- A microsecond passes. -/
def execTick (s : State) : Out := .next { s with toChip := s.toChip.tick }

end Sys2Proof.Machine
end

