-- ==== Sys2Proof/Safety.lean ====
section
/-! DEFINITION. What a sound state of the part is, and what a command leaves alone, in the terms the statements use. -/

namespace Sys2Proof.Machine

/-! ## Sound states -/

/-- Outstanding PLAY credits, staged rows and released credits sum to at most 32, and to 32 in every link state but
FAILED (R100, R103, log 41). -/
def CreditsBalance (p : Chip) : Prop :=
  p.dlc.outstanding + p.dlc.staging.length + p.dlc.released ≤ Config.creditMax ∧
    (p.dlc.linkState ≠ .failed →
      p.dlc.outstanding + p.dlc.staging.length + p.dlc.released = Config.creditMax)

/-- At most 7 WRITE rows are retained, and a fetch stands offered only with the link UP, a write credit unused and room
for its row (R90, R95). An unconfigured part has its link DOWN (R84). -/
def RetentionBounded (p : Chip) : Prop :=
  (p.cpm.partState = .unconfigured → p.dlc.linkState = .down) ∧ p.dlc.retention.length ≤ Config.retentionMax ∧
    (p.dlc.fetch.isSome = true →
      p.dlc.linkState = .up ∧ 1 ≤ p.dlc.writeCredits ∧ p.dlc.retention.length < Config.retentionMax)

/-- NOTICE is asserted while the published write index differs from the read index shadow (R38). -/
def NoticeFollows (p : Chip) : Prop := p.cpm.notice = (p.cpm.publishedIndex != p.cpm.readIndex)

/-- The posted-write queue holds at most 16 entries, each a legal burst (R2, R11). -/
def PostedBounded (p : Chip) : Prop :=
  p.lbp.posted.length ≤ Config.postedEntries ∧ ∀ w ∈ p.lbp.posted, legalBurst w.addr w.data.length = true

/-- Every counter and the overflow count lie in 0 to 4,294,967,295 (R36, R37). -/
def CountersBounded (p : Chip) : Prop :=
  (∀ c : Fin 16, p.cpm.counters[c] ≤ Config.counterMax) ∧ p.cpm.overflow ≤ Config.counterMax

/-- Pass-over counts lie in 0 to 8 (R17), write credits in 0 to 32 (R91), ring indices in 0 to 63 (R37, R38). -/
def CountsBounded (p : Chip) : Prop :=
  CountersBounded p ∧ (∀ c : Fin 7, p.mp.passOver[c] ≤ Config.passOverMax) ∧ p.dlc.writeCredits ≤ Config.creditMax ∧
    p.cpm.writeIndex < Config.ringEntries ∧ p.cpm.publishedIndex < Config.ringEntries ∧
    p.cpm.readIndex < Config.ringEntries

/-- A run that is not IDLE has its record (R105); an unconfigured part has no run in progress (R122). -/
def RunRecorded (p : Chip) : Prop :=
  (p.rc.state ≠ .idle → p.rc.run.isSome = true) ∧ (p.cpm.partState = .unconfigured → p.rc.state = .idle)

/-- A claimed slot s holds a segment T with T mod 128 = s (R46). -/
def SlotsPlaced (p : Chip) : Prop := ∀ i, (p.slot i).claimed = true → slotOf (p.slot i).segment = i

/-! ## What a command leaves alone -/

/-- CPM is as before but for what it reports: status words and notices on their way (R35, R37). -/
def Cpm.SameButReports (a b : Cpm) : Prop :=
  b = { a with
    statusHeld := b.statusHeld, dirty := b.dirty, statusOffered := b.statusOffered, writeIndex := b.writeIndex
    overflow := b.overflow, nextWrite := b.nextWrite }

/-- CPM is as before but for its counters and what it reports. -/
def Cpm.SameButCounters (a b : Cpm) : Prop := Cpm.SameButReports { a with counters := b.counters } b

/-- The tape side of the part is as before: slots, coding, concealment, runs, clips and undo. -/
def Chip.SameTape (a b : Chip) : Prop := b.slots = a.slots ∧ b.ce = a.ce ∧ b.cu = a.cu ∧ b.rc = a.rc ∧ b.ecu = a.ecu

/-- Every other tracker entry is as before. -/
def Chip.SameReadsBut (e : Fin 8) (a b : Chip) : Prop := ∀ x, x ≠ e → b.read x = a.read x

/-- A slot other than i is as before. -/
def Chip.SameSlotsBut (i : Fin 128) (a b : Chip) : Prop := ∀ j, j ≠ i → b.slot j = a.slot j

/-- The words of a list are stored, and no byte outside them changes. -/
def Stored (before after : Memory) (ws : List (Nat × Word)) : Prop :=
  (∀ aw ∈ ws, after.readWord aw.1 = aw.2) ∧
    ∀ b, (∀ aw ∈ ws, b < aw.1 ∨ aw.1 + 4 ≤ b) → after.readByte b = before.readByte b

/-- Words that do not overlap. -/
def Apart (ws : List (Nat × Word)) : Prop := ws.Pairwise fun x y => x.1 + 4 ≤ y.1 ∨ y.1 + 4 ≤ x.1

/-- A request waits in its class of MP. -/
def Chip.Offers (p : Chip) (r : Req) : Prop := ∃ o ∈ p.mp.queues[r.cls], o.req = r

/-- A notice raised between two states waits to be written; its id is a new one (R37). -/
def Chip.Raises (before after : Chip) (n : Notice) : Prop :=
  ∃ id index, before.cpm.nextWrite ≤ id ∧ after.Offers (.notice id index n.word0 n.word1)

/-- The notice ring has room for one more notice (R37). -/
def Chip.RingRoom (p : Chip) : Prop := (p.cpm.writeIndex + 1) % Config.ringEntries ≠ p.cpm.readIndex

/-- A request taken between two states has its final result waiting to be written (R29, R32). -/
def Chip.Answers (before after : Chip) (tag : Nat) (outcome : ReqOutcome) (detail : Nat) : Prop :=
  ∃ q id, after.cpm.request = some q ∧ q.id = before.cpm.nextRequest ∧ q.tag = tag ∧ q.reported = true ∧
    before.cpm.nextWrite ≤ id ∧ after.Offers (.result id ⟨tag, outcome, detail⟩ (some q.id))

/-- A counter advanced by n, up to its maximum, and every other counter as before (R36). -/
def Chip.Counted (before after : Chip) (c : Counter) (n : Nat) : Prop :=
  after.counter c = min Config.counterMax (before.counter c + n) ∧ ∀ k, k ≠ c → after.counter k = before.counter k

/-- Reads held, or with words in CU, have completed with zeros (R13, R20, R137). -/
def Chip.Releases (before after : Chip) : Prop :=
  ∀ e r, before.read e = some r →
    (r.state = .heldOnSlot ∨ r.state = .heldOnNeighbour ∨ r.state = .concealing) →
    after.read e = none ∧ .data r.initiator r.tag (List.replicate r.len 0) ∈ after.lbp.responses

/-- An evaluation of a word has begun: the fetch of the block before it is offered (R123, R125, R126). -/
def Chip.Evaluates (p : Chip) (asker : Asker) (index channel : Nat) : Prop :=
  ∃ ev ∈ p.cu.evals, ev.asker = asker ∧ ev.index = index ∧ ev.channel = channel ∧ ev.stage = .lookBehind ∧
    ev.distance = 1 ∧ ev.fetch = some ⟨(index - 1) / 192, (index - 1) % 192 / 12, p.cpm.map.privateBase⟩ ∧
    p.Offers (.neighbour ev.id)

/-- The notice ring has room for n more notices (R37). -/
def Chip.RingHolds (p : Chip) (n : Nat) : Prop :=
  ∀ k, k < n → (p.cpm.writeIndex + k + 1) % Config.ringEntries ≠ p.cpm.readIndex

/-- The notice ring has room for n more notices beside those that releases of slots raise: a decode item made void at
its last block raises at most two (R44, R79), another none. -/
def Chip.RoomAfterReleases (p : Chip) (n : Nat) : Prop :=
  p.RingHolds n ∧ (p.RingHolds (n + 2) ∨ ∀ j, p.ce.job = some (.decode j) → j.void = false → j.block < 15)

/-! ## The mirror of the undo stack -/

/-- The class-6 write of words into the stack area, from a place of the ring on (R161). -/
def mirrorWrite (base place : Nat) (ws : List Word) : Req :=
  .mirror (ws.zipIdx.map fun wk => (base + 0x180000 + 4 * ((place + wk.2) % 1024), wk.1))

/-- The words of a SEG entry, bottom to top (spec/11 11.1). -/
def segWords (t : Nat) (u : Fin 256) : List Word := [word t, word (1 + 16 * 2 + 0x100 * u.val)]

/-- The words of a RUN entry, bottom to top (spec/11 11.1). -/
def runWordsOf (tag first count : Nat) (partialMark : Bool) : List Word :=
  [word tag, word first, word count, word (2 + 16 * 4 + 0x10000 * (if partialMark then 1 else 0))]

/-- A run of n SEG entries has been removed whose lowest word lay `place` words above the bottom index: a write of 0
into the words of each entry waits (R161). -/
def Chip.RemovalMirrored (before after : Chip) (place n : Nat) : Prop :=
  let zeros (at' size : Nat) := after.Offers (mirrorWrite before.cpm.map.privateBase (before.ecu.bottom + place + at')
    (List.replicate size 0))
  (∀ k, k < n → zeros (2 * k) 2) ∧ zeros (2 * n) 4

/-! ## The end of a run -/

/-- The claims still to come settle no write side: no position is at or below the due horizon, or none is left to claim
(R114, R143, R170). -/
def Chip.ClaimsSettled (p : Chip) (r : RunRecord) : Prop :=
  r.dueHorizon = none ∨ ∀ i, r.length ≤ (p.slot i).nextPosition

/-- The stack begins with a whole run, its oldest: SEG entries, then their RUN entry (spec/09 9.1, R165). -/
def OldestRun (stack oldest rest : List StackEntry) : Prop :=
  (∀ e ∈ oldest, ∃ t u, e = .seg t u) ∧ ∃ tag first count p, stack = oldest ++ .run tag first count p :: rest

/-- What a push of n words, at most 4, finds on the stack: all of it where they fit or no whole run is left; else the
oldest whole run has been dropped (R165). -/
def KeptForPush (n : Nat) (stack kept : List StackEntry) : Prop :=
  ((stackDepth stack + n ≤ 1024 ∨ ∀ e ∈ stack, e.isRun = false) → kept = stack) ∧
    ∀ oldest rest, OldestRun stack oldest rest → stackDepth stack ≤ 1024 → 1024 < stackDepth stack + n → kept = rest

/-- What ECU makes of the clip and of the stack as an EDIT run ends: the clip is spent or kept (R159); the RUN entry
is pushed and mirrored, as is what a drop for want of room removes (R161, R165), its first T the lowest of the run's
own SEG entries, or that of its first span segment; the save state is clear (R166). `clip` and `qa` are those of the
run's parameters, `done` its DONE count at the end. -/
def Chip.EditEnds (before after : Chip) (r : RunRecord) (clip : Option (Fin 4)) (qa done : Nat) : Prop :=
  (∀ k, clip = some k → after.ecu.clips[k] = { before.ecu.clips[k] with
    inUse := false
    state := if (before.ecu.clips[k]).singleUse = true ∧ 0 < done then .spent else .ready }) ∧
  (∀ k : Fin 4, clip ≠ some k → after.ecu.clips[k] = before.ecu.clips[k]) ∧
  (∃ kept first, KeptForPush 4 before.ecu.stack kept ∧
    after.ecu.stack = kept ++ [.run r.tag first before.ecu.segCount before.ecu.partialMark] ∧
    after.Offers (mirrorWrite before.cpm.map.privateBase (after.ecu.bottom + stackDepth kept)
      (runWordsOf r.tag first before.ecu.segCount before.ecu.partialMark)) ∧
    (∀ oldest rest, OldestRun before.ecu.stack oldest rest → stackDepth before.ecu.stack ≤ 1024 →
      1024 < stackDepth before.ecu.stack + 4 → before.RemovalMirrored after 0 oldest.length) ∧
    (∀ t u, .seg t u ∈ kept.reverse.take before.ecu.segCount → first ≤ t) ∧
    ((∃ u, .seg first u ∈ kept.reverse.take before.ecu.segCount) ∨
      ((∀ t u, .seg t u ∉ kept.reverse.take before.ecu.segCount) ∧ first = r.t0 + qa))) ∧
  after.ecu.segCount = 0 ∧ after.ecu.partialMark = false ∧ after.ecu.stoppedMark = false

/-- Every pending mode value is in force and none is pending (R27, step 4 of R120). -/
def Chip.PendingApplied (before after : Chip) : Prop :=
  after.cpm.pendingMap = none ∧ after.cpm.pendingSignal = none ∧ after.cpm.pendingLink = none ∧
    after.cpm.pendingEdit = none ∧ after.cpm.map = before.cpm.pendingMap.getD before.cpm.map ∧
    after.cpm.signal = before.cpm.pendingSignal.getD before.cpm.signal ∧
    after.cpm.link = before.cpm.pendingLink.getD before.cpm.link ∧
    after.cpm.edit = before.cpm.pendingEdit.getD before.cpm.edit

/-- What a MODE_MAP application leaves: every slot free, every clip EMPTY, stack and images empty, no run record, the
counts 0 and the incoming grade UNKNOWN (R20, R28, R39, R160, R161). -/
def Chip.MapDropped (after : Chip) : Prop :=
  (∀ i, (after.slot i).claimed = false ∧ (after.slot i).overrun = none) ∧
    (∀ k : Fin 4, after.ecu.clips[k] = ⟨.empty, 0, none, false, false⟩) ∧ after.ecu.stack = [] ∧
    (∀ u : Fin 256, (after.ecu.images[u]).used = false) ∧ after.rc.run = none ∧ after.lbp.outRecord = .none ∧
    after.lbp.strayNoticed = false ∧ after.cpm.incoming = .unknown ∧ after.cpm.consumeCount = 0 ∧
    after.cpm.readyPrefix = 0

/-- A run aborted in one step: every write side that is not IDLE or DONE discarded, every ARRIVING play side given up
with its decode queued, and what is then left of a slot released, the run IDLE with ABORTED, a pending STOP answered
DONE with it (R121), and the rest as at every end (R120, R159, R166). -/
def Chip.Aborts (before after : Chip) (r : RunRecord) : Prop :=
  after.rc.state = .idle ∧ before.PendingApplied after ∧
  (before.cpm.partState = .ready → before.RoomAfterReleases 1 →
    before.Raises after (.runEnd r.tag .aborted r.kind false)) ∧
  (∀ m, before.cpm.pendingMap = some m → after.MapDropped) ∧
  (before.cpm.pendingMap = none →
    (∃ r', after.rc.run = some r' ∧ r' = { r with
      windowBase := r'.windowBase, endCause := .aborted, drainTimer := none }) ∧
    (∀ q, before.cpm.request = some q → q.kind = some .stop → q.reported = false →
      after.cpm.request = some { q with reported := true } ∧
        ∃ id, after.Offers (.result id ⟨q.tag, .done, r.omitCount + 0x1000000 * 3⟩ (some q.id))) ∧
    (r.kind ≠ .edit → after.ecu.stack = before.ecu.stack ∧ after.ecu.clips = before.ecu.clips) ∧
    (∀ p clip qa qb n, r.kind = .edit → r.params = .edit p clip qa qb n →
      before.EditEnds after r clip qa r.doneCount) ∧
    ∀ i,
      let x := before.slot i
      let y := after.slot i
      let plays := r.kind = .play ∨ r.kind = .edit
      let played := x.play = .ready ∧ x.consumed = true ∧ x.pins = 0
      (x.claimed = false → y = x) ∧
      (x.claimed = true → (x.play = .empty ∨ r.kind = .record ∨ (plays ∧ played)) → y.claimed = false) ∧
      (x.claimed = true → plays → x.play ≠ .empty → ¬played →
        y.claimed = true ∧ y.segment = x.segment ∧ y.serial = x.serial ∧
        y.play = (if x.play = .arriving then .checking else x.play) ∧
        y.write = (if x.write = .done then .done else .idle) ∧
        (x.play = .arriving → ∃ e ∈ after.ce.queue, e.item = .decode i x.segment x.serial x.rows)))

/-- A capture abandoned: it is over, its request to MP is withdrawn, and every slot not yet unpinned is (R156). -/
def Chip.CaptureAbandoned (before after : Chip) (c : Capture) : Prop :=
  after.ecu.capture = none ∧
    ((before.mp.queues[(5 : Fin 7)]).countP (fun o => o.req == .capture) = (if c.stage = .concealing then 0 else 1) →
      ¬after.Offers .capture) ∧
    (c.count ≤ 64 → ∀ g, c.segment ≤ g → g < c.count →
      let i := slotOf (c.first + g)
      (after.slot i).pins = (before.slot i).pins - 1 ∨ (after.slot i).claimed = false ∨
        (before.slot i).serial < (after.slot i).serial)

/-! ## When a command finds its event -/

/-- The head of the posted-write queue is w, it is a write of the given row, and its grant is the next one. -/
def State.Heads (s : State) (w : PostedWrite) (act : WriteAct) : Prop :=
  s.lbp.posted.head? = some w ∧ w.act = act ∧ s.mp.mayGrant .postedWrite = true

/-- The head is the request word of a kind, the part is READY and no request is PENDING (R29). -/
def State.Asks (s : State) (w : PostedWrite) (kind : RequestKind) : Prop :=
  s.Heads w (.request kind) ∧ s.cpm.partState = .ready ∧ s.cpm.request = none

/-- The tag of a request word write. -/
def PostedWrite.tag (w : PostedWrite) : Nat := requestTag (w.wordAt (cellWordAddr 4 7))

/-- CPM's shadows once the copy of a write has been placed (R21). -/
def State.shadowed (s : State) (w : PostedWrite) : Cpm := (s.toChip.placeShadow w).cpm

/-- A request was taken and answered, and nothing else changed but what is reported. -/
def State.JustAnswers (s t : State) (w : PostedWrite) (outcome : ReqOutcome) (detail : Nat) : Prop :=
  s.toChip.Answers t.toChip w.tag outcome detail ∧
    Cpm.SameButReports { s.cpm with
      cells := (s.shadowed w).cells, request := t.cpm.request, nextRequest := s.cpm.nextRequest + 1 } t.cpm ∧
    Chip.SameTape s.toChip t.toChip ∧ t.dlc = s.dlc ∧ t.lbp.responses = s.lbp.responses

/-- A mode value written now is applied at its copy, and does not complete the written-set (R23, R26). -/
def State.AppliesNow (s : State) (marked : WrittenSet) : Prop :=
  (s.cpm.partState = .ready ∧ s.rc.state = .idle) ∨ (s.cpm.partState = .unconfigured ∧ marked.full = false)

/-- The written-set after an application (R26). -/
def State.markedAs (s : State) (marked : WrittenSet) : WrittenSet :=
  if s.cpm.partState = .unconfigured then marked else s.cpm.writtenSet

/-- The tracker entry holds a read that is offered, and its grant is the next one. -/
def State.ReadNext (s : State) (e : Fin 8) (r : Read) : Prop :=
  s.toChip.read e = some r ∧ r.state = .offered ∧ s.mp.mayGrant (.read e) = true

end Sys2Proof.Machine

namespace Sys2Proof

open Sys2Proof.Machine

/-- The commands that write no word of DRAM in any state. -/
def Instr.silent : Instr → Bool
  | .pinReset => true
  | .writeAccept .. => true
  | .readAccept .. => true
  | .readGrant _ => true
  | .outputStatusRead _ => true
  | .audioViewFetch _ => true
  | .neighbourFetch _ => true
  | .readLate _ => true
  | .rowFetch => true
  | .ceTakeDecodeItem _ => true
  | .ceTakeCodeItem _ => true
  | .decodeBlockRead => true
  | .codeFlagMapRead => true
  | .codeBlockRead => true
  | .captureBlockRead => true
  | .saveTake => true
  | .saveBlockRead => true
  | .loadBlockRead _ => true
  | .openedReceived _ => true
  | .clearReceived _ => true
  | .playRowReceived _ => true
  | .grantReceived _ => true
  | .missingReceived _ => true
  | .dueReceived _ => true
  | .badCrcFrame _ => true
  | .droppedFrame _ => true
  | .frameLeaves _ => true
  | .openRetryExpiry => true
  | .ackTimerExpiry => true
  | .creditTimerExpiry => true
  | .drainTimerExpiry => true
  | _ => false

/-- The row of a posted write that a command grants, for the commands that grant one by its row alone. -/
def Instr.headRow : Instr → Option WriteAct
  | .writeGrant => some .plain
  | .modeMapWrite => some .modeMap
  | .modeSignalWrite => some .modeSignal
  | .modeLinkWrite => some .modeLink
  | .modeEditWrite => some .modeEdit
  | .play => some (.request .play)
  | .record => some (.request .record)
  | .edit => some (.request .edit)
  | .revert => some (.request .revert)
  | .stop => some (.request .stop)
  | .capture => some (.request .capture)
  | .dropClip => some (.request .dropClip)
  | .mark => some (.request .mark)
  | .linkClear => some (.request .linkClear)
  | .badReq => some .badRequest
  | .consumeCountWrite => some .consumeCount
  | .inputStatusWrite => some .inputStatus
  | .noticeReadIndexWrite => some .readIndex
  | _ => none

end Sys2Proof
end

