-- ==== Sys2Proof/Certificates/Slice0/Obligations.lean ====
section
/-! DEFINITION. The statements for the provers. Where a statement is about every state, it holds in unreachable ones
too; what it needs of a state it takes as a premise. `t` is the next state. -/

open Sys2Proof Sys2Proof.Machine

/-! ## Steps -/

/-- A step with a command at the front of the queue is the command's exec on the queue's rest (the model's form of a
program, log 31). -/
def Obligations.StepRunsFrontCommand : Prop :=
  ∀ (s : State) (c : Instr) (rest : List Instr), step (s.withPending (c :: rest)) = exec c (s.withPending rest)

/-- A step on an empty queue takes one microsecond off every running timer and changes nothing else (the model's choice,
log 6). -/
def Obligations.IdleStepIsOneMicrosecond : Prop :=
  ∀ s : State, s.pending = [] → ∃ t, step s = .next t ∧
    (∀ e, t.toChip.read e = (s.toChip.read e).map fun r => { r with holdTimer := r.holdTimer.map (· - 1) }) ∧
    t.lbp = { s.lbp with reads := t.lbp.reads } ∧
    t.dlc = { s.dlc with
      ackTimer := s.dlc.ackTimer.map (· - 1)
      creditTimer := s.dlc.creditTimer.map (· - 1)
      openTimer := s.dlc.openTimer.map (· - 1) } ∧
    t.rc = { s.rc with run := s.rc.run.map fun r => { r with drainTimer := r.drainTimer.map (· - 1) } } ∧
    t.event = s.event ∧ t.mp = s.mp ∧ t.cpm = s.cpm ∧ t.slots = s.slots ∧ t.ce = s.ce ∧ t.cu = s.cu ∧
    t.ecu = s.ecu ∧ t.mem = s.mem ∧ t.pending = s.pending

/-- Every command, in every state, answers a next state, and leaves the queue of waiting commands alone: every error the
manual names is an effect on the part, and an event the state does not offer is turned away (the model's choice, log 5). -/
def Obligations.EveryCommandAnswers : Prop :=
  ∀ (c : Instr) (s : State), ∃ t, exec c s = .next t ∧ t.pending = s.pending

/-- A command that is no grant of a write changes no byte of DRAM (R16). -/
def Obligations.SilentCommandsKeepMemory : Prop :=
  ∀ (c : Instr) (s t : State), c.silent = true → exec c s = .next t → t.mem = s.mem

/-! ## Invariants -/

/-- Every step keeps DRAM in its canonical form (the model's own form, log 1). -/
def Obligations.EveryStepKeepsMemoryForm : Prop :=
  ∀ s t : State, Memory.wf s.mem = true → step s = .next t → Memory.wf t.mem = true

/-- Every step keeps outstanding PLAY credits, staged rows and released credits at a sum of at most 32, and of 32 in
every link state but FAILED (R100, R103; FAILED as log 41 reads them). -/
def Obligations.EveryStepKeepsCreditsBalance : Prop :=
  ∀ s t : State, CreditsBalance s.toChip → step s = .next t → CreditsBalance t.toChip

/-- Every step keeps the retention queue within 7 rows, and a fetch on offer within its credit (R95). -/
def Obligations.EveryStepKeepsRetentionBound : Prop :=
  ∀ s t : State, RetentionBounded s.toChip → step s = .next t → RetentionBounded t.toChip

/-- Every step keeps every count in its range (R17, R36, R37, R91), the posted-write queue within 16 legal bursts (R2,
R11), and NOTICE asserted exactly while the two indices differ (R38). -/
def Obligations.EveryStepKeepsBoundsAndNotice : Prop :=
  ∀ s t : State, step s = .next t → (CountsBounded s.toChip → CountsBounded t.toChip) ∧
    (PostedBounded s.toChip → PostedBounded t.toChip) ∧ (NoticeFollows s.toChip → NoticeFollows t.toChip)

/-- Every step keeps every claimed slot at its segment's place, so no segment is held by two slots (R46), and the run
record of a run in progress (R105, R122). -/
def Obligations.EveryStepKeepsSlotsAndRun : Prop :=
  (∀ s t : State, step s = .next t → (SlotsPlaced s.toChip → SlotsPlaced t.toChip) ∧
    (RunRecorded s.toChip → RunRecorded t.toChip)) ∧
    ∀ (p : Chip) (i j : Fin 128), SlotsPlaced p → (p.slot i).claimed = true → (p.slot j).claimed = true →
      (p.slot i).segment = (p.slot j).segment → i = j

/-- No command but PIN_RESET makes a counter of a READY part fall, or takes it out of READY (R26, R36). -/
def Obligations.CountersNeverFallWhileReady : Prop :=
  ∀ (c : Instr) (s t : State), c ≠ .pinReset → s.cpm.partState = .ready → CountersBounded s.toChip →
    exec c s = .next t → t.cpm.partState = .ready ∧ ∀ k : Counter, s.toChip.counter k ≤ t.toChip.counter k

/-- The machine after reset meets every invariant above (R19, R39, R62, R103, R122; DRAM empty by log 1). -/
def Obligations.ResetMeetsInvariants : Prop :=
  Memory.wf State.reset.mem = true ∧ CreditsBalance State.reset.toChip ∧ RetentionBounded State.reset.toChip ∧
    NoticeFollows State.reset.toChip ∧ PostedBounded State.reset.toChip ∧ CountsBounded State.reset.toChip ∧
    RunRecorded State.reset.toChip ∧ SlotsPlaced State.reset.toChip

/-! ## Reset and acceptance -/

/-- PIN_RESET leaves every block as the manual gives it after pin reset (R18, R19, R39, R45, R62, R80, R103, R122,
R137, R152, R161), and DRAM and the queue as they were (the model's choice, log 33; the shadows' 0 is R39's). -/
def Obligations.PinResetState : Prop :=
  ∀ s : State, ∃ t, exec .pinReset s = .next t ∧ t.mem = s.mem ∧ t.pending = s.pending ∧
    t.lbp.posted = [] ∧ (∀ e, t.toChip.read e = none) ∧ t.lbp.strayNoticed = false ∧ t.lbp.outRecord = .none ∧
    (∀ c : Fin 7, t.mp.queues[c] = [] ∧ t.mp.passOver[c] = 0) ∧
    t.cpm.partState = .unconfigured ∧ t.cpm.writtenSet = ⟨false, false, false, false⟩ ∧
    (∀ k : Fin 40, t.cpm.cells[k] = 0) ∧ t.cpm.pendingMap = none ∧ t.cpm.pendingSignal = none ∧
    t.cpm.pendingLink = none ∧ t.cpm.pendingEdit = none ∧ t.cpm.request = none ∧ t.cpm.consumeCount = 0 ∧
    t.cpm.readyPrefix = 0 ∧ t.cpm.incoming = .unknown ∧ t.cpm.writeIndex = 0 ∧ t.cpm.publishedIndex = 0 ∧
    t.cpm.readIndex = 0 ∧ t.cpm.notice = false ∧ t.cpm.dirty = [] ∧
    (∀ i, t.toChip.slot i = {
      claimed := false, segment := 0, position := 0, serial := 0, play := .empty, rows := Vector.replicate 30 .notIn
      overrun := none, recovered := .absent, consumed := false, pins := 0, write := .idle, written := 0
      material := .live, worstGrade := none, worstSource := none, analogWritten := false, markerBase := some 0
      markerEffect := List.replicate 16 .keep, rowsAcked := 0, clipCount := 0, underrunCount := 0, undoSave := .none
      nextPosition := (t.toChip.slot i).nextPosition }) ∧
    t.ce.queue = [] ∧ t.ce.job = none ∧ t.cu.evals = [] ∧
    t.dlc.linkState = .down ∧ t.dlc.sendSeq = 0 ∧ t.dlc.recvSeq = 0 ∧ t.dlc.writeCredits = 0 ∧
    t.dlc.retention = [] ∧ t.dlc.retryCount = 0 ∧ t.dlc.recvWindow = 0 ∧ t.dlc.outstanding = 0 ∧
    t.dlc.released = 32 ∧ t.dlc.staging = [] ∧ t.dlc.ackTimer = none ∧ t.dlc.creditTimer = none ∧
    t.dlc.openTimer = none ∧ t.dlc.lane = [] ∧ t.dlc.fetch = none ∧
    t.rc.state = .idle ∧ t.rc.run = none ∧ (∀ k : Fin 4, t.ecu.clips[k] = ⟨.empty, 0, none, false, false⟩) ∧
    t.ecu.capture = none ∧ t.ecu.stack = [] ∧ t.ecu.bottom = 0 ∧ t.ecu.saves = [] ∧ t.ecu.saving = none ∧
    t.ecu.segCount = 0 ∧ t.ecu.partialMark = false ∧ t.ecu.stoppedMark = false ∧ t.ecu.loads = [] ∧
    ∀ u : Fin 256, (t.ecu.images[u]).used = false

/-- WRITE_ACCEPT: an illegal burst is discarded with a BUS_FAULT while READY (R2); a legal one to the private region is
discarded with PROTECT (R5); any other joins the posted-write queue with the range it is given (R3, R11), if an entry is
free. In no case does anything else move. -/
def Obligations.WriteAcceptDecides : Prop :=
  ∀ (s : State) (i : Fin 8) (a : BusAddr) (d : List Word),
    (legalBurst a.toNat d.length = false → ∃ t, exec (.writeAccept i a d) s = .next t ∧ t.mem = s.mem ∧
      t.lbp = s.lbp ∧ Chip.SameTape s.toChip t.toChip ∧ t.dlc = s.dlc ∧ Cpm.SameButReports s.cpm t.cpm ∧
      (s.cpm.partState = .ready → s.toChip.RingRoom → s.toChip.Raises t.toChip (.busFault a.toNat i.val)) ∧
      (s.cpm.partState = .unconfigured → t.cpm = s.cpm ∧ t.mp = s.mp)) ∧
    (legalBurst a.toNat d.length = true → s.toChip.rangeOf a.toNat = .privateRegion →
      ∃ t, exec (.writeAccept i a d) s = .next t ∧ t.mem = s.mem ∧ t.lbp = s.lbp ∧
        Chip.SameTape s.toChip t.toChip ∧ t.dlc = s.dlc ∧ Cpm.SameButCounters s.cpm t.cpm ∧
        t.toChip.counter .protect = min Config.counterMax (s.toChip.counter .protect + 1) ∧
        (∀ k, k ≠ Counter.protect → t.toChip.counter k = s.toChip.counter k) ∧
        (s.toChip.RingRoom → s.toChip.Raises t.toChip (.protect a.toNat i.val))) ∧
    (legalBurst a.toNat d.length = true → s.toChip.rangeOf a.toNat ≠ .privateRegion → s.lbp.posted.length < 16 →
      ∃ t w, exec (.writeAccept i a d) s = .next t ∧ t.mem = s.mem ∧ t.lbp.posted = s.lbp.posted ++ [w] ∧
        w.initiator = i ∧ w.addr = a.toNat ∧ w.data = d ∧ w.range = s.toChip.rangeOf a.toNat ∧
        (s.lbp.posted = [] → t.toChip.Offers .postedWrite) ∧ (s.lbp.posted ≠ [] → t.mp = s.mp) ∧
        t.lbp.reads = s.lbp.reads ∧ t.lbp.responses = s.lbp.responses ∧ t.cpm = s.cpm ∧
        Chip.SameTape s.toChip t.toChip ∧ t.dlc = s.dlc)

/-- READ_ACCEPT: an illegal burst is answered with a FAULT (R2); a legal one takes a free tracker entry with the range
it is given (R3, R12), WAITING exactly while a write it must follow is queued (R14). -/
def Obligations.ReadAcceptDecides : Prop :=
  ∀ (s : State) (i : Fin 8) (g : Nat) (a : BusAddr) (n : Nat),
    (legalBurst a.toNat n = false → ∃ t, exec (.readAccept i g a n) s = .next t ∧ t.mem = s.mem ∧
      t.lbp = { s.lbp with responses := s.lbp.responses ++ [.fault i g] } ∧ t.mp = s.mp ∧ t.cpm = s.cpm ∧
      Chip.SameTape s.toChip t.toChip ∧ t.dlc = s.dlc) ∧
    (legalBurst a.toNat n = true → (∃ x, s.toChip.read x = none) →
      ∃ t e r, exec (.readAccept i g a n) s = .next t ∧ t.mem = s.mem ∧ s.toChip.read e = none ∧
        t.toChip.read e = some r ∧ r.initiator = i ∧ r.tag = g ∧ r.addr = a.toNat ∧ r.len = n ∧
        r.range = s.toChip.rangeOf a.toNat ∧ r.late = false ∧ r.holdTimer = none ∧
        ((r.state = .offered ∧ s.toChip.waitsOf r.range a.toNat n = [] ∧ t.toChip.Offers (.read e)) ∨
          (r.state = .waiting ∧ r.waits = s.toChip.waitsOf r.range a.toNat n ∧ r.waits ≠ [] ∧ t.mp = s.mp)) ∧
        Chip.SameReadsBut e s.toChip t.toChip ∧ t.lbp.posted = s.lbp.posted ∧ t.lbp.responses = s.lbp.responses ∧
        t.cpm = s.cpm ∧ Chip.SameTape s.toChip t.toChip ∧ t.dlc = s.dlc)

/-! ## Grants of the posted-write head -/

/-- Each of the 18 commands that grant the head by its row stores the burst at its own address and takes the entry off
the queue (R4, R11, R21). -/
def Obligations.HeadGrantStoresBurst : Prop :=
  ∀ (c : Instr) (act : WriteAct) (s : State) (w : PostedWrite), c.headRow = some act → s.Heads w act →
    Memory.wf s.mem = true →
    ∃ t, exec c s = .next t ∧ Stored s.mem t.mem (placeWords w.addr w.data) ∧ t.lbp.posted = s.lbp.posted.tail

/-- WRITE_GRANT: besides DRAM and the queue, only the shadows the burst covers change (R21, R22), and a read that waits
on this write alone is offered (R14). -/
def Obligations.WriteGrantLeavesTheRest : Prop :=
  ∀ (s : State) (w : PostedWrite), s.Heads w .plain → w.addr % 4 = 0 → Memory.wf s.mem = true →
    ∃ t, exec .writeGrant s = .next t ∧ Stored s.mem t.mem (placeWords w.addr w.data) ∧
      t.lbp.posted = s.lbp.posted.tail ∧ (s.lbp.posted.tail ≠ [] → t.toChip.Offers .postedWrite) ∧
      (∀ e r, s.toChip.read e = some r → r.state = .waiting → r.waits = [.posted w.id] →
        t.toChip.read e = some { r with state := .offered, waits := [] } ∧ t.toChip.Offers (.read e)) ∧
      (∀ e, (∀ r, s.toChip.read e = some r → r.state ≠ .waiting) → t.toChip.read e = s.toChip.read e) ∧
      (∀ k : Fin 40, t.cpm.cells[k] = if w.covers (4 * k.val) then w.wordAt (4 * k.val) else s.cpm.cells[k]) ∧
      Cpm.SameButReports { s.cpm with cells := t.cpm.cells } t.cpm ∧ Chip.SameTape s.toChip t.toChip ∧
      t.dlc = s.dlc ∧ t.lbp.responses = s.lbp.responses

/-- AUDIO_VIEW_WRITE: word k of the burst is accepted where the slot is FILLING and the word's pair needed, and stray
elsewhere (R7). Exactly the accepted words are stored, each as the code of its limited sample (R8); STRAY advances for
each stray word and clipped samples for each clamp; the entry leaves the queue (R11). The first stray word is noticed
(R7). The slot marks the accepted words written and counts its clamps (R55; the count stops at 384 by log 42), folds the
burst's grade and source (R173, R174), and closes once every needed word is written (R55, R57). A refused burst makes a
RECORD slot FILL, noticed and counted the first time (R175), and sets the write side of an EDIT slot aside (R141, R176). -/
def Obligations.AudioViewWriteTakesWords : Prop :=
  ∀ (s : State) (w : PostedWrite) (place : ViewPlace), s.Heads w (.audioView place) → Memory.wf s.mem = true →
    CountersBounded s.toChip →
    let i := place.slot
    let x := s.toChip.slot i
    let accepted := w.data.zipIdx.filter fun dk =>
      x.write == .filling && s.toChip.needs i (place.advance dk.2).pair
    let clamps := accepted.countP fun dk => limit (writtenSample dk.1) != writtenSample dk.1
    let writes (k : Nat) : Bool := x.written.getLsbD k ||
      accepted.any fun dk => 2 * (place.advance dk.2).pair + (place.advance dk.2).channel == k
    let complete := ∀ k, k < 384 → s.toChip.needs i (k / 2) = true → writes k = true
    let digital := w.initiator.val = s.cpm.map.digitalIn
    let source : Source := if digital then .digital else .analog
    let grade : Option Grade :=
      if digital then
        (match s.cpm.incoming with
          | .known .free => some .free
          | .known .one => some .none
          | .known .none => none
          | .unknown => none)
      else some s.cpm.signal.policy
    let g := grade.getD .none
    let noted := s.cpm.partState = .ready ∧ s.toChip.RingRoom ∧
      (s.lbp.strayNoticed = true ∨ accepted.length = w.data.length)
    ∃ t, exec .audioViewWrite s = .next t ∧ t.lbp.posted = s.lbp.posted.tail ∧
      Stored s.mem t.mem (accepted.map fun dk =>
        (outgoingAddr s.cpm.map.privateBase i (place.advance dk.2).imageWord,
          word (codeOfSample (limit (writtenSample dk.1))))) ∧
      t.toChip.counter .stray =
        min Config.counterMax (s.toChip.counter .stray + (w.data.length - accepted.length)) ∧
      t.toChip.counter .clippedSamples = min Config.counterMax (s.toChip.counter .clippedSamples + clamps) ∧
      (∀ c, c ≠ .stray → c ≠ .clippedSamples → c ≠ .refusedSegments → c ≠ .underrun →
        t.toChip.counter c = s.toChip.counter c) ∧
      (s.cpm.pendingMap = none →
        t.lbp.strayNoticed = (s.lbp.strayNoticed || accepted.length != w.data.length) ∧
        (s.cpm.partState = .ready → s.toChip.RingRoom → s.lbp.strayNoticed = false →
          accepted.length ≠ w.data.length → s.toChip.Raises t.toChip (.stray x.segment w.initiator.val)) ∧
        t.cu = s.cu ∧ t.lbp.responses = s.lbp.responses) ∧
      ∀ r, s.cpm.pendingMap = none → s.rc = ⟨.active, some r⟩ → r.kind ≠ .revert → x.claimed = true →
        let y := t.toChip.slot i
        let taken : Slot := { x with
          written := y.written
          clipCount := min 384 (x.clipCount + clamps)
          worstGrade := some (match x.worstGrade with
            | none => g
            | some h => if h.code < g.code then g else h)
          worstSource := (match x.worstGrade with
            | none => some source
            | some h =>
              if h.code < g.code then some source
              else if h = g ∧ source = .digital then some .digital
              else x.worstSource)
          analogWritten := x.analogWritten || source == .analog }
        let kept := x.play ≠ .ready ∨ x.consumed = false ∨ x.pins ≠ 0
        ((r.kind = .record ∨ grade ≠ none ∨ accepted = [] ∨ kept) → ∀ k, k < 384 → y.written.getLsbD k = writes k) ∧
        (∀ j, j ≠ i → (s.toChip.slot j).claimed = true → t.toChip.slot j = s.toChip.slot j) ∧
        (accepted = [] → y = x ∧ t.toChip.counter .refusedSegments = s.toChip.counter .refusedSegments) ∧
        (accepted ≠ [] → (r.kind = .record ∨ grade ≠ none) →
          (complete → y = { taken with
            write := .closed, material := if grade = none then .fill else x.material }) ∧
          (¬complete → y = { taken with material := if grade = none then .fill else x.material }) ∧
          (complete → (r.kind = .record ∨ (x.play = .ready ∧ x.undoSave ≠ .inProgress)) →
            ∃ e ∈ t.ce.queue, e.item.codes i = true)) ∧
        (accepted ≠ [] → (grade ≠ none ∨ (r.kind = .record ∧ x.material = .fill)) →
          t.toChip.counter .refusedSegments = s.toChip.counter .refusedSegments) ∧
        (accepted ≠ [] → grade = none → (r.kind = .edit ∨ x.material ≠ .fill) →
          t.toChip.counter .refusedSegments = min Config.counterMax (s.toChip.counter .refusedSegments + 1) ∧
          (noted → s.toChip.Raises t.toChip
            (.refused x.segment r.kind w.initiator.val s.cpm.incoming x.analogWritten))) ∧
        (accepted ≠ [] → grade = none → r.kind = .edit → kept →
          y = { taken with
            write := .idle, undoSave := if x.undoSave = .inProgress then .none else x.undoSave } ∧
          ∃ r', t.rc.run = some r' ∧ r.settledCount + 1 ≤ r'.settledCount)

/-! ## Mode words (R23 to R28) -/

/-- A MODE_SIGNAL, MODE_LINK or MODE_EDIT write, UNCONFIGURED or IDLE: the value of every field of the shadowed cell,
each brought to the nearer end of its range (R24), is in force at once (R23). -/
def Obligations.ModeWordsApply : Prop :=
  ∀ (s : State) (w : PostedWrite),
    let c := s.shadowed w
    (s.Heads w .modeSignal → s.AppliesNow { s.cpm.writtenSet with signal := true } →
      ∃ t, exec .modeSignalWrite s = .next t ∧
        t.cpm.signal = {
          gap := clampField 1 8 (c.cellField 1 0)
          hold := clampField 0 255 (c.cellField 1 1)
          fade := clampField 4 10 (c.cellField 1 2)
          policy := Grade.ofField (clampField 0 2 (c.cellField 1 3))
          rate := clampField 0 3 (c.cellField 1 4)
          holdLimit := clampField 50 20000 (c.cellField 1 5) } ∧
        Cpm.SameButReports { s.cpm with
          cells := c.cells, signal := t.cpm.signal
          writtenSet := s.markedAs { s.cpm.writtenSet with signal := true } } t.cpm ∧
        (s.cpm.partState = .ready → s.toChip.RingRoom → c.clampMarks 1 signalRanges ≠ 0 →
          s.toChip.Raises t.toChip (.clamped 1 (c.clampMarks 1 signalRanges))) ∧
        Chip.SameTape s.toChip t.toChip ∧ t.dlc = s.dlc ∧ t.lbp.responses = s.lbp.responses) ∧
    (s.Heads w .modeLink → s.AppliesNow { s.cpm.writtenSet with link := true } →
      ∃ t, exec .modeLinkWrite s = .next t ∧
        t.cpm.link = {
          ackTimeout := clampField 100 10000 (c.cellField 2 0)
          creditInterval := clampField 20 2000 (c.cellField 2 1)
          openRetry := clampField 1000 100000 (c.cellField 2 2)
          retryLimit := clampField 1 15 (c.cellField 2 3)
          drainTimeout := clampField 1000 1000000 (c.cellField 2 4) } ∧
        Cpm.SameButReports { s.cpm with
          cells := c.cells, link := t.cpm.link
          writtenSet := s.markedAs { s.cpm.writtenSet with link := true } } t.cpm ∧
        (s.cpm.partState = .ready → s.toChip.RingRoom → c.clampMarks 2 linkRanges ≠ 0 →
          s.toChip.Raises t.toChip (.clamped 2 (c.clampMarks 2 linkRanges))) ∧
        Chip.SameTape s.toChip t.toChip ∧ t.dlc = s.dlc ∧ t.lbp.responses = s.lbp.responses) ∧
    (s.Heads w .modeEdit → s.AppliesNow { s.cpm.writtenSet with edit := true } →
      ∃ t, exec .modeEditWrite s = .next t ∧
        t.cpm.edit = {
          defaultF := clampField 4 10 (c.cellField 3 0)
          undo := clampField 0 1 (c.cellField 3 1) == 1 } ∧
        Cpm.SameButReports { s.cpm with
          cells := c.cells, edit := t.cpm.edit
          writtenSet := s.markedAs { s.cpm.writtenSet with edit := true } } t.cpm ∧
        (s.cpm.partState = .ready → s.toChip.RingRoom → c.clampMarks 3 editRanges ≠ 0 →
          s.toChip.Raises t.toChip (.clamped 3 (c.clampMarks 3 editRanges))) ∧
        Chip.SameTape s.toChip t.toChip ∧ t.dlc = s.dlc ∧ t.lbp.responses = s.lbp.responses)

/-- A mode word written while a run is not IDLE becomes that mode word's pending value, and the value in force stays
(R23, R27). -/
def Obligations.ModeWordsHeldDuringRun : Prop :=
  ∀ (s : State) (w : PostedWrite), s.cpm.partState = .ready → s.rc.state ≠ .idle →
    let c := s.shadowed w
    (s.Heads w .modeMap → mapRejectMarks c.readMap.audioBase c.readMap.privateBase = 0 →
      ∃ t, exec .modeMapWrite s = .next t ∧
        Cpm.SameButReports { s.cpm with cells := c.cells, pendingMap := some c.readMap } t.cpm ∧
        Chip.SameTape s.toChip t.toChip ∧ t.dlc = s.dlc ∧ t.lbp.responses = s.lbp.responses) ∧
    (s.Heads w .modeSignal → ∃ t, exec .modeSignalWrite s = .next t ∧
      Cpm.SameButReports { s.cpm with cells := c.cells, pendingSignal := some c.readSignal } t.cpm ∧
      Chip.SameTape s.toChip t.toChip ∧ t.dlc = s.dlc ∧ t.lbp.responses = s.lbp.responses) ∧
    (s.Heads w .modeLink → ∃ t, exec .modeLinkWrite s = .next t ∧
      Cpm.SameButReports { s.cpm with cells := c.cells, pendingLink := some c.readLink } t.cpm ∧
      Chip.SameTape s.toChip t.toChip ∧ t.dlc = s.dlc ∧ t.lbp.responses = s.lbp.responses) ∧
    (s.Heads w .modeEdit → ∃ t, exec .modeEditWrite s = .next t ∧
      Cpm.SameButReports { s.cpm with cells := c.cells, pendingEdit := some c.readEdit } t.cpm ∧
      Chip.SameTape s.toChip t.toChip ∧ t.dlc = s.dlc ∧ t.lbp.responses = s.lbp.responses)

/-- MODE_MAP_WRITE: a value with a failed condition changes nothing (R25); another, UNCONFIGURED or IDLE, is in force
at once and every block drops what the old map placed (R20, R28): held reads complete with zeros (R13, R20), and those
with words in CU too (R137 ends their evaluations; that they complete so is log 14). A capture is abandoned, and its
request ABORTED with the segments copied (R156). -/
def Obligations.ModeMapWriteDecides : Prop :=
  ∀ (s : State) (w : PostedWrite), s.Heads w .modeMap →
    let c := s.shadowed w
    let audio := c.cellField 0 0 % 0x1000000
    let priv := c.cellField 0 1 % 0x1000000
    let marks := (if audio % 0x40000 = 0 then 0 else 1) + (if priv % 0x200000 = 0 then 0 else 2) +
      (if audio < priv + 0x200000 ∧ priv < audio + 0x30000 then 4 else 0) +
      (if audio < 0x1000 ∨ priv < 0x1000 then 8 else 0)
    (marks ≠ 0 → ∃ t, exec .modeMapWrite s = .next t ∧
      Cpm.SameButReports { s.cpm with cells := c.cells } t.cpm ∧
      (s.cpm.partState = .ready → s.toChip.RingRoom →
        s.toChip.Raises t.toChip (.mapRejected w.initiator.val marks)) ∧
      Chip.SameTape s.toChip t.toChip ∧ t.dlc = s.dlc ∧ t.lbp.responses = s.lbp.responses) ∧
    (marks = 0 → s.AppliesNow { s.cpm.writtenSet with map := true } →
      ∃ t, exec .modeMapWrite s = .next t ∧
        Cpm.SameButReports { s.cpm with
          cells := c.cells
          request := t.cpm.request
          map := ⟨audio, priv, clampField 0 7 (c.cellField 0 2), clampField 0 7 (c.cellField 0 3)⟩
          writtenSet := s.markedAs { s.cpm.writtenSet with map := true }
          incoming := .unknown, consumeCount := 0, readyPrefix := 0, readyAhead := [] } t.cpm ∧
        t.toChip.MapDropped ∧ t.rc = ⟨s.rc.state, none⟩ ∧ s.toChip.Releases t.toChip ∧
        t.dlc = { s.dlc with fetch := t.dlc.fetch } ∧
        (s.ecu.capture = none → t.cpm.request = s.cpm.request ∧ t.ecu.capture = none) ∧
        ∀ cap, s.ecu.capture = some cap → s.toChip.CaptureAbandoned t.toChip cap ∧
          (s.cpm.request = none → t.cpm.request = none) ∧
          ∀ q, s.cpm.request = some q → t.cpm.request = some { q with reported := true } ∧
            ∃ id, s.cpm.nextWrite ≤ id ∧
              t.toChip.Offers (.result id ⟨q.tag, .aborted, cap.segment⟩ (some q.id)))

/-- The write that sets the fourth mark takes the part into READY: counters, indices and counts 0, nothing pending, the
whole status block dirty, the link OPENING with an OPEN waiting (R26, R84). -/
def Obligations.FourthMarkEntersReady : Prop :=
  ∀ (s : State) (w : PostedWrite) (c : Instr) (act : WriteAct) (mark : WrittenSet → WrittenSet),
    (c, act, mark) ∈ [
      (Instr.modeMapWrite, WriteAct.modeMap, fun m : WrittenSet => { m with map := true }),
      (.modeSignalWrite, .modeSignal, fun m => { m with signal := true }),
      (.modeLinkWrite, .modeLink, fun m => { m with link := true }),
      (.modeEditWrite, .modeEdit, fun m => { m with edit := true })] →
    s.Heads w act → s.cpm.partState = .unconfigured → mark s.cpm.writtenSet = ⟨true, true, true, true⟩ →
    (c = .modeMapWrite →
      mapRejectMarks (s.shadowed w).readMap.audioBase (s.shadowed w).readMap.privateBase = 0) →
    ∃ t, exec c s = .next t ∧ t.cpm.partState = .ready ∧ t.cpm.writtenSet = ⟨true, true, true, true⟩ ∧
      (∀ k : Counter, t.toChip.counter k = 0) ∧ t.cpm.overflow = 0 ∧ t.cpm.writeIndex = 0 ∧
      t.cpm.publishedIndex = 0 ∧ t.cpm.readIndex = 0 ∧ t.cpm.notice = false ∧ t.cpm.consumeCount = 0 ∧
      t.cpm.readyPrefix = 0 ∧ t.cpm.request = none ∧ t.cpm.pendingMap = none ∧ t.cpm.pendingSignal = none ∧
      t.cpm.pendingLink = none ∧ t.cpm.pendingEdit = none ∧ t.cpm.indexDue = true ∧
      (∀ i, i < 24 → i ∈ t.cpm.dirty ∧ t.cpm.statusHeld.getD i 0 = t.toChip.statusWord i) ∧
      t.cpm.statusOffered.isSome = true ∧ t.dlc.linkState = .opening ∧
      t.dlc.lane.map LaneEntry.frame = [.openLink] ∧ t.dlc.openTimer = some t.cpm.link.openRetry ∧
      t.dlc.writeCredits = 0 ∧ t.dlc.retention = [] ∧ t.dlc.staging = [] ∧ t.dlc.outstanding = 0 ∧
      t.dlc.released = 32 ∧ t.rc.state = s.rc.state

/-! ## The request cell (R29 to R32) -/

/-- A request word: not taken while UNCONFIGURED; ignored, with IGNORED, while a request is PENDING, unless it abandons
a capture; BADREQ for tag 0 or an unknown kind; else taken, and a PENDING result waits (R29, R30, R32). PLAY, RECORD,
EDIT, REVERT and STOP abandon a capture: its clip is EMPTY, its slots are unpinned, its result is ABORTED with the
segments copied, and the new request is taken after it (R30, R156). -/
def Obligations.RequestWordDecides : Prop :=
  ∀ (s : State) (w : PostedWrite) (c : Instr) (act : WriteAct), c.headRow = some act →
    (act = .badRequest ∨ ∃ k, act = .request k) → s.Heads w act →
    (s.cpm.partState = .unconfigured → ∃ t, exec c s = .next t ∧
      t.cpm = { s.cpm with cells := (s.shadowed w).cells } ∧ Chip.SameTape s.toChip t.toChip ∧ t.dlc = s.dlc) ∧
    (s.cpm.partState = .ready → ∀ q, s.cpm.request = some q →
      ¬(∃ k, act = .request k ∧ k.abandons = true ∧ q.kind = some .capture ∧ q.reported = false ∧
        s.ecu.capture.isSome = true) →
      ∃ t, exec c s = .next t ∧
        Cpm.SameButCounters { s.cpm with cells := (s.shadowed w).cells } t.cpm ∧
        s.toChip.Counted t.toChip .ignored 1 ∧
        (s.toChip.RingRoom → s.toChip.Raises t.toChip (.ignored w.tag)) ∧ Chip.SameTape s.toChip t.toChip ∧
        t.dlc = s.dlc ∧ t.lbp.responses = s.lbp.responses) ∧
    (s.cpm.partState = .ready → ∀ q k cap, s.cpm.request = some q → act = .request k → k.abandons = true →
      q.kind = some .capture → q.reported = false → s.ecu.capture = some cap →
      ∃ t id id' q', exec c s = .next t ∧ s.toChip.CaptureAbandoned t.toChip cap ∧
        ((∀ r p a b n, s.rc.run = some r → r.params ≠ .edit p (some cap.clip) a b n) →
          t.ecu.clips[cap.clip] = ⟨.empty, 0, none, false, false⟩) ∧
        s.cpm.nextWrite ≤ id ∧ t.toChip.Offers (.result id ⟨q.tag, .aborted, cap.segment⟩ none) ∧ id < id' ∧
        t.toChip.Offers (.result id' ⟨w.tag, .pending, 0⟩ none) ∧ t.cpm.request = some q' ∧
        q'.id = s.cpm.nextRequest ∧ q'.kind = some k ∧ q'.tag = w.tag ∧
        t.toChip.counter .ignored = s.toChip.counter .ignored) ∧
    (s.cpm.partState = .ready → s.cpm.request = none →
      (act = .badRequest → ∃ t, exec c s = .next t ∧ s.JustAnswers t w .badReq 0) ∧
      ∀ k, act = .request k → ∃ t id q, exec c s = .next t ∧ s.cpm.nextWrite ≤ id ∧
        t.toChip.Offers (.result id ⟨w.tag, .pending, 0⟩ none) ∧ t.cpm.request = some q ∧
        q.id = s.cpm.nextRequest ∧ q.kind = some k ∧ q.tag = w.tag)

/-- A run start is refused with BUSY while a run is not IDLE, with RANGE when its range leaves 0 to 16,777,212, with
NOLINK while the link is not UP, PLAY with RANGE for a direction above 1, EDIT by its own checks in their order, and
REVERT with NOUNDO when no run is on top of the stack (R31, R106, R138, R167). -/
def Obligations.RunStartsRefused : Prop :=
  ∀ (s : State) (w : PostedWrite) (c : Instr) (k : RequestKind),
    (c, k) ∈ [(Instr.play, RequestKind.play), (.record, .record), (.edit, .edit), (.revert, .revert)] →
    s.Asks w k →
    let a := s.shadowed w
    let backward := k = .play ∧ a.arg 2 = 1
    let inside := a.arg 0 ≤ 16777212 ∧
      (a.arg 1 ≠ 0 → if backward then a.arg 1 ≤ a.arg 0 + 1 else a.arg 0 + a.arg 1 ≤ 16777213)
    (s.rc.state ≠ .idle → ∃ t, exec c s = .next t ∧ s.JustAnswers t w .busy 0) ∧
    (s.rc.state = .idle → k ≠ .revert → ¬inside → ∃ t, exec c s = .next t ∧ s.JustAnswers t w .range 0) ∧
    (s.rc.state = .idle → k ≠ .revert → inside → s.dlc.linkState ≠ .up →
      ∃ t, exec c s = .next t ∧ s.JustAnswers t w .noLink s.dlc.linkState.code) ∧
    (s.rc.state = .idle → k = .play → inside → s.dlc.linkState = .up → 1 < a.arg 2 →
      ∃ t, exec c s = .next t ∧ s.JustAnswers t w .range 0) ∧
    (s.rc.state = .idle → k = .edit → inside → s.dlc.linkState = .up →
      let start := 192 * a.arg 0
      let stop := 192 * (a.arg 0 + a.arg 1)
      let pin := a.arg 2
      let pout := a.arg 3
      let f := if a.arg 4 = 0 then s.cpm.edit.defaultF else a.arg 4
      let clip : Clip := s.ecu.clips[Fin.ofNat 4 (a.arg 6)]
      let refusal : Option (ReqOutcome × Nat) :=
        if a.arg 1 = 0 then some (.range, 1)
        else if a.arg 4 ≠ 0 ∧ (a.arg 4 < 4 ∨ 10 < a.arg 4) then some (.range, 2)
        else if pout < pin + 2 ^ f then some (.range, 3)
        else if pin < start ∨ stop ≤ pin then some (.range, 4)
        else if stop < pout + 2 ^ f then some (.range, 5)
        else if 1 < a.arg 5 ∨ (a.arg 5 = 1 ∧ 3 < a.arg 6) then some (.range, 6)
        else if a.arg 5 = 1 ∧ clip.state = .spent then some (.copy, 1)
        else if a.arg 5 = 1 ∧ clip.state = .empty then some (.badState, 1)
        else if a.arg 5 = 1 ∧ 192 * clip.length < pout + 2 ^ f - pin then some (.range, 7)
        else none
      ∀ o d, refusal = some (o, d) → ∃ t, exec c s = .next t ∧ s.JustAnswers t w o d) ∧
    (s.rc.state = .idle → k = .revert → s.dlc.linkState ≠ .up →
      (∀ t u, .seg t u ∈ s.ecu.stack → t ≤ 16777212) →
      (∀ tag first n p, .run tag first n p ∈ s.ecu.stack → first ≤ 16777212) →
      ∃ t, exec c s = .next t ∧ s.JustAnswers t w .noLink s.dlc.linkState.code) ∧
    (s.rc.state = .idle → k = .revert → s.dlc.linkState = .up → s.ecu.stack = [] →
      ∃ t, exec c s = .next t ∧ s.JustAnswers t w .noUndo 0)

/-- PLAY and RECORD that pass every check: the run is ACTIVE with its record new, its first 128 positions claimed, every
other slot free, the counts 0, and DONE with the number of slots discarded unconsumed (R47, R48, R62, R107, R111). Held
reads complete with zeros (R13, R20), and those with words in CU too (R137 ends their evaluations; that they complete so
is log 14). -/
def Obligations.PlayAndRecordStart : Prop :=
  ∀ (s : State) (w : PostedWrite) (c : Instr) (k : RequestKind) (kind : RunKind) (writer : Option WriterKind)
    (write : WriteState),
    (c, k, kind, writer, write) ∈ [
      (Instr.play, RequestKind.play, RunKind.play, (none : Option WriterKind), WriteState.idle),
      (.record, .record, .record, some .record, .filling)] →
    s.Asks w k → s.rc.state = .idle → s.dlc.linkState = .up →
    let a := s.shadowed w
    let t0 := a.arg 0
    let n := a.arg 1
    let back := kind == .play && a.arg 2 == 1
    (kind = .play → a.arg 2 ≤ 1) → t0 ≤ 16777212 →
    (n ≠ 0 → if back then n ≤ t0 + 1 else t0 + n ≤ 16777213) →
    let length := if n = 0 then (if back then t0 + 1 else 16777213 - t0) else n
    let at' (q : Nat) : Nat := if back then t0 - q else t0 + q
    ∃ t, exec c s = .next t ∧
      t.rc = ⟨.active, some {
        kind := kind, tag := w.tag, t0 := t0, backward := back, length := length, rate := s.cpm.signal.rate
        writer := writer, params := .none, windowBase := 0, readyCount := 0, doneCount := 0, settledCount := 0
        dueHorizon := none, omitCount := 0, drainTimer := none, endCause := .none }⟩ ∧
      (∀ q, q < min 128 length →
        let x := t.toChip.slot (slotOf (at' q))
        x.claimed = true ∧ x.segment = at' q ∧ x.position = q ∧ x.play = .empty ∧ x.write = write ∧
          x.serial = (s.toChip.slot (slotOf (at' q))).serial + 1 ∧ x.consumed = false ∧ x.pins = 0 ∧
          x.markerBase = some 0 ∧ ∀ r : Fin 30, x.rows[r] = .notIn) ∧
      (∀ i, (∀ q, q < min 128 length → slotOf (at' q) ≠ i) → (t.toChip.slot i).claimed = false) ∧
      s.toChip.Answers t.toChip w.tag .done
        (allSlots.countP fun i => (s.toChip.slot i).claimed && (s.toChip.slot i).play == .ready &&
          !(s.toChip.slot i).consumed) ∧
      Cpm.SameButReports { s.cpm with
        cells := a.cells, request := t.cpm.request, nextRequest := s.cpm.nextRequest + 1
        consumeCount := 0, readyPrefix := 0, readyAhead := [] } t.cpm ∧
      t.lbp.outRecord = .none ∧ t.lbp.strayNoticed = false ∧ s.toChip.Releases t.toChip ∧
      t.ecu.stack = s.ecu.stack ∧ t.ecu.clips = s.ecu.clips ∧
      t.dlc = { s.dlc with
        cursorPos := t.dlc.cursorPos, cursorRow := 0, cursorStopped := false, omits := [], fetch := t.dlc.fetch }

/-- EDIT that passes every check: the run record carries the punch parameters, the slots of the span start FILLING
(LIVE) or CLOSED with their clip, the others IDLE, and the clip is in use (R48, R107, R138, R139). -/
def Obligations.EditStarts : Prop :=
  ∀ (s : State) (w : PostedWrite) (clip : Option (Fin 4)), s.Asks w .edit → s.rc.state = .idle → s.dlc.linkState = .up →
    let a := s.shadowed w
    let t0 := a.arg 0
    let n := a.arg 1
    let pin := a.arg 2
    let pout := a.arg 3
    let f := if a.arg 4 = 0 then s.cpm.edit.defaultF else a.arg 4
    n ≠ 0 → t0 + n ≤ 16777213 → (a.arg 4 ≠ 0 → 4 ≤ a.arg 4 ∧ a.arg 4 ≤ 10) → pin + 2 ^ f ≤ pout →
    192 * t0 ≤ pin → pin < 192 * (t0 + n) → pout + 2 ^ f ≤ 192 * (t0 + n) →
    ((a.arg 5 = 0 ∧ clip = none) ∨
      ∃ k, a.arg 5 = 1 ∧ a.arg 6 = k.val ∧ clip = some k ∧ (s.ecu.clips[k]).state = .ready ∧
        pout + 2 ^ f - pin ≤ 192 * (s.ecu.clips[k]).length) →
    let qa := pin / 192 - t0
    let qb := (pout + 2 ^ f - 1) / 192 - t0
    ∃ t, exec .edit s = .next t ∧
      t.rc = ⟨.active, some {
        kind := .edit, tag := w.tag, t0 := t0, backward := false, length := n, rate := s.cpm.signal.rate
        writer := some .edit, params := .edit ⟨pin, pout, f⟩ clip qa qb (qb - qa + 1), windowBase := 0
        readyCount := 0, doneCount := 0, settledCount := 0, dueHorizon := none, omitCount := 0
        drainTimer := none, endCause := .none }⟩ ∧
      (∀ q, q < min 128 n →
        let x := t.toChip.slot (slotOf (t0 + q))
        x.claimed = true ∧ x.segment = t0 + q ∧ x.position = q ∧ x.play = .empty ∧
          x.serial = (s.toChip.slot (slotOf (t0 + q))).serial + 1 ∧
          if qa ≤ q ∧ q ≤ qb then
            x.markerBase = none ∧
              (match clip with
                | none => x.write = .filling ∧ x.material = .live
                | some k => x.write = .closed ∧ x.material = .clip k)
          else x.write = .idle ∧ x.markerBase = some 0) ∧
      (∀ k, clip = some k → (t.ecu.clips[k]) = { s.ecu.clips[k] with inUse := true }) ∧
      (∀ k : Fin 4, clip ≠ some k → t.ecu.clips[k] = s.ecu.clips[k]) ∧ t.ecu.stack = s.ecu.stack ∧
      t.ecu.segCount = 0 ∧ t.ecu.partialMark = false ∧ t.ecu.stoppedMark = false ∧
      s.toChip.Answers t.toChip w.tag .done s.toChip.unconsumed ∧ t.cpm.consumeCount = 0 ∧
      t.cpm.readyPrefix = 0 ∧ ∀ k, t.toChip.counter k = s.toChip.counter k

/-- REVERT with a whole run on top of the stack: the run covers its first to its highest saved segment, and a claimed
segment with an image waits CLOSED while its load is offered (R48, R167 to R169). A run without SEG entries is popped
and the REVERT is DONE at once; a partial one is BADSTATE (R167). -/
def Obligations.RevertStarts : Prop :=
  ∀ (s : State) (w : PostedWrite) (below : List StackEntry) (segs : List (Nat × Fin 256)) (tag first : Nat)
    (partialMark : Bool), s.Asks w .revert → s.rc.state = .idle → s.dlc.linkState = .up →
    s.ecu.stack = below ++ segs.map (fun x => .seg x.1 x.2) ++ [.run tag first segs.length partialMark] →
    (∀ x ∈ segs, first ≤ x.1 ∧ x.1 ≤ 16777212) →
    let highest := (segs.map Prod.fst).foldl max first
    (partialMark = true → ∃ t, exec .revert s = .next t ∧ s.JustAnswers t w .badState (1 + 256 * tag)) ∧
    (partialMark = false → segs = [] → ∃ t, exec .revert s = .next t ∧ t.ecu.stack = below ∧
      s.toChip.Answers t.toChip w.tag .done 0 ∧ t.rc = s.rc ∧ t.slots = s.slots ∧ t.dlc = s.dlc) ∧
    (partialMark = false → segs ≠ [] → ∃ t base, exec .revert s = .next t ∧
      t.rc = ⟨.active, some {
        kind := .revert, tag := w.tag, t0 := first, backward := false, length := highest - first + 1
        rate := s.cpm.signal.rate, writer := some .revert, params := .revert tag below.length segs.length
        windowBase := base, readyCount := 0, doneCount := 0, settledCount := 0, dueHorizon := none, omitCount := 0
        drainTimer := none, endCause := .none }⟩ ∧
      (∀ q u, q < min 128 (highest - first + 1) → (segs.find? fun x => x.1 == first + q) = some (first + q, u) →
        let i := slotOf (first + q)
        let x := t.toChip.slot i
        x.claimed = true ∧ x.segment = first + q ∧ x.position = q ∧ x.write = .closed ∧ x.material = .image u ∧
          ((∀ v ∈ s.ecu.saves, v.image ≠ u) → (∀ j, s.ecu.saving = some j → j.save.image ≠ u) →
            x.markerBase = some (s.ecu.images[u]).marker) ∧
          (∃ l ∈ t.ecu.loads, l.slot = i ∧ l.image = u ∧ l.block = 0 ∧ l.values = none) ∧ t.toChip.Offers (.load i)) ∧
      s.toChip.Answers t.toChip w.tag .done s.toChip.unconsumed ∧ t.ecu.stack = s.ecu.stack ∧
      t.cpm.consumeCount = 0 ∧ t.cpm.readyPrefix = 0 ∧ ∀ k, t.toChip.counter k = s.toChip.counter k)

/-- STOP of an ACTIVE run: every write side that has sent nothing is discarded and counted as an OMIT, handed while the
link is UP; the run drains, or is IDLE at once with STOPPED and the STOP answered (R115, R116, R119): the clip and the
undo stack as the end of the run leaves them (R159, R166, R171), RUN_END raised, every pending mode value in force (R27,
R120). Without an ACTIVE run STOP is BADSTATE; it still abandons a capture, whose result is ABORTED (R30, R156). -/
def Obligations.StopDrainsTheRun : Prop :=
  ∀ (s : State) (w : PostedWrite), s.Heads w (.request .stop) → s.cpm.partState = .ready →
    let unsent (i : Fin 128) : Bool := (s.toChip.slot i).claimed &&
      [WriteState.filling, .closed, .coding, .queued].contains (s.toChip.slot i).write
    (∀ r, s.cpm.request = none → s.rc = ⟨.active, some r⟩ → s.cpm.pendingMap = none →
      ∃ t r', exec .stop s = .next t ∧ t.rc.run = some r' ∧ r'.kind = r.kind ∧ r'.tag = r.tag ∧
        r'.omitCount = r.omitCount + allSlots.countP unsent ∧
        (∀ i, (t.toChip.slot i).claimed = true →
          (t.toChip.slot i).write = .idle ∨ (t.toChip.slot i).write = .sending ∨ (t.toChip.slot i).write = .done) ∧
        (∀ i, unsent i = true → s.dlc.linkState = .up →
          ∃ e ∈ t.dlc.lane, e.frame = .omitSegment (s.toChip.slot i).segment) ∧
        ((t.rc.state = .draining ∧ r'.drainTimer = some s.cpm.link.drainTimeout ∧
            ∃ q, t.cpm.request = some q ∧ q.tag = w.tag ∧ q.reported = false) ∨
          (t.rc.state = .idle ∧ r'.endCause = .stopped ∧ r'.drainTimer = none ∧
            s.toChip.Answers t.toChip w.tag .done (r'.omitCount + 0x1000000 * 2)))) ∧
    (∀ r, s.cpm.request = none → s.rc = ⟨.active, some r⟩ → r.kind ≠ .play →
      (∃ i, (s.toChip.slot i).claimed = true ∧ (s.toChip.slot i).write = .sending) →
      ∃ t, exec .stop s = .next t ∧ t.rc.state = .draining ∧ t.cpm.pendingMap = s.cpm.pendingMap ∧
        t.cpm.signal = s.cpm.signal ∧ t.cpm.link = s.cpm.link ∧ t.cpm.edit = s.cpm.edit) ∧
    (∀ r, s.cpm.request = none → s.rc = ⟨.active, some r⟩ → s.ecu.capture = none →
      (∀ i, (s.toChip.slot i).claimed = true → (s.toChip.slot i).play ≠ .arriving ∧
        (s.toChip.slot i).play ≠ .checking ∧ (s.toChip.slot i).write ≠ .sending) →
      ∃ t, exec .stop s = .next t ∧ t.rc.state = .idle ∧ s.toChip.PendingApplied t.toChip ∧
        (s.toChip.RoomAfterReleases 1 → s.toChip.Raises t.toChip (.runEnd r.tag .stopped r.kind false)) ∧
        s.toChip.Answers t.toChip w.tag .done (r.omitCount + allSlots.countP unsent + 0x1000000 * 2) ∧
        (∀ m, s.cpm.pendingMap = some m → t.toChip.MapDropped) ∧
        (s.cpm.pendingMap = none →
          (r.kind ≠ .edit → t.ecu.stack = s.ecu.stack ∧ t.ecu.clips = s.ecu.clips) ∧
          ∀ p clip qa qb n, r.kind = .edit → r.params = .edit p clip qa qb n →
            s.toChip.EditEnds t.toChip r clip qa r.doneCount)) ∧
    (s.cpm.request = none → s.rc.state ≠ .active →
      ∃ t, exec .stop s = .next t ∧ s.JustAnswers t w .badState 0) ∧
    (∀ q c, s.cpm.request = some q → q.kind = some .capture → q.reported = false → s.ecu.capture = some c →
      s.rc.state = .idle →
      ∃ t id, exec .stop s = .next t ∧ t.ecu.capture = none ∧ t.ecu.clips[c.clip] = ⟨.empty, 0, none, false, false⟩ ∧
        t.toChip.Offers (.result id ⟨q.tag, .aborted, c.segment⟩ none) ∧
        s.toChip.Answers t.toChip w.tag .badState 0)

/-- CAPTURE that passes every check: its clip FILLING with its length, each of its segments pinned once more, block 0 of
the first segment offered to be read, the request PENDING (R32, R61, R153, R154, R181); one that fails a check is
refused by the first it fails: RANGE, BADSTATE with the clip state or the first segment not READY, or COPY with the
first segment refused (R153). DROPCLIP empties a clip that is not in use and is DONE with the state it had (R157). -/
def Obligations.ClipRequestsActOnTheirClip : Prop :=
  (∀ (s : State) (w : PostedWrite) (k : Fin 4), s.Asks w .capture →
    let a := s.shadowed w
    let first := a.arg 0
    let count := a.arg 1
    a.arg 2 = k.val → 1 ≤ count → count ≤ 64 → first + count ≤ 16777213 → (s.ecu.clips[k]).state = .empty →
    (∀ g, g < count → (s.toChip.slot (slotOf (first + g))).holds (first + g) = true ∧
      (s.toChip.slot (slotOf (first + g))).play = .ready ∧
      ∃ src refused baked marker rate writer, ∃ grade, grade ≠ Grade.none ∧
        (s.toChip.slot (slotOf (first + g))).recovered =
          .recovered grade src refused baked marker rate writer) →
    ∃ t c q, exec .capture s = .next t ∧
      t.ecu.clips[k] = { s.ecu.clips[k] with state := .filling, length := count } ∧
      (∀ x : Fin 4, x ≠ k → t.ecu.clips[x] = s.ecu.clips[x]) ∧ t.ecu.capture = some c ∧ c.clip = k ∧
      c.first = first ∧ c.count = count ∧ c.segment = 0 ∧ c.block = 0 ∧ c.stage = .reading ∧
      c.base = s.cpm.map.privateBase ∧
      c.grade = (if (List.range count).any (fun g =>
        (s.toChip.slot (slotOf (first + g))).recovered.grade == .one) then .none else .free) ∧
      t.toChip.Offers .capture ∧
      (∀ g, g < count → t.toChip.slot (slotOf (first + g)) =
        { s.toChip.slot (slotOf (first + g)) with pins := (s.toChip.slot (slotOf (first + g))).pins + 1 }) ∧
      (∀ i, (∀ g, g < count → slotOf (first + g) ≠ i) → t.toChip.slot i = s.toChip.slot i) ∧
      t.cpm.request = some q ∧ q.tag = w.tag ∧ q.reported = false ∧ t.ecu.stack = s.ecu.stack ∧ t.ce = s.ce ∧
      t.cu = s.cu ∧ t.rc = s.rc ∧ t.dlc = s.dlc ∧ ∀ c, t.toChip.counter c = s.toChip.counter c) ∧
  (∀ (s : State) (w : PostedWrite), s.Asks w .capture →
    let a := s.shadowed w
    let first := a.arg 0
    let count := a.arg 1
    let isReady (g : Nat) : Prop := (s.toChip.slot (slotOf (first + g))).holds (first + g) = true ∧
      (s.toChip.slot (slotOf (first + g))).play = .ready
    let copies (g : Nat) : Prop := (s.toChip.slot (slotOf (first + g))).recovered.grade ≠ Grade.none
    (3 < a.arg 2 → ∃ t, exec .capture s = .next t ∧ s.JustAnswers t w .range 1) ∧
    (a.arg 2 ≤ 3 → (count = 0 ∨ 64 < count) → ∃ t, exec .capture s = .next t ∧ s.JustAnswers t w .range 2) ∧
    (a.arg 2 ≤ 3 → 1 ≤ count → count ≤ 64 → 16777213 < first + count →
      ∃ t, exec .capture s = .next t ∧ s.JustAnswers t w .range 3) ∧
    ∀ k : Fin 4, a.arg 2 = k.val → 1 ≤ count → count ≤ 64 → first + count ≤ 16777213 →
      ((s.ecu.clips[k]).state ≠ .empty → ∃ t, exec .capture s = .next t ∧
        s.JustAnswers t w .badState (1 + 256 * (s.ecu.clips[k]).state.code)) ∧
      ((s.ecu.clips[k]).state = .empty → ∀ g, g < count → (∀ h, h < g → isReady h) → ¬isReady g →
        ∃ t, exec .capture s = .next t ∧ s.JustAnswers t w .badState (2 + 256 * g)) ∧
      ((s.ecu.clips[k]).state = .empty → (∀ h, h < count → isReady h) →
        ∀ g, g < count → (∀ h, h < g → copies h) → ¬copies g →
        ∃ t, exec .capture s = .next t ∧ s.JustAnswers t w .copy g)) ∧
  ∀ (s : State) (w : PostedWrite), s.Asks w .dropClip →
    let a := s.shadowed w
    (3 < a.arg 0 → ∃ t, exec .dropClip s = .next t ∧ s.JustAnswers t w .range 1) ∧
    ∀ k : Fin 4, a.arg 0 = k.val →
      ((s.ecu.clips[k]).inUse = true → ∃ t, exec .dropClip s = .next t ∧ s.JustAnswers t w .busy 1) ∧
      ((s.ecu.clips[k]).inUse = false → ∃ t, exec .dropClip s = .next t ∧
        t.ecu = { s.ecu with clips := t.ecu.clips } ∧ t.ecu.clips[k] = ⟨.empty, 0, none, false, false⟩ ∧
        (∀ x : Fin 4, x ≠ k → t.ecu.clips[x] = s.ecu.clips[x]) ∧
        s.toChip.Answers t.toChip w.tag .done (s.ecu.clips[k]).state.code ∧ t.slots = s.slots ∧ t.ce = s.ce ∧
        t.cu = s.cu ∧ t.rc = s.rc ∧ t.dlc = s.dlc ∧ ∀ c, t.toChip.counter c = s.toChip.counter c)

/-- MARK of a segment whose slot is FILLING or CLOSED composes its operation into the slot's marker effect and is DONE
with the outgoing marker, or with 65,536 while the base is awaiting; a segment, an operation or a mask out of range is
RANGE, a slot not claimed for the segment or in another write state BADSTATE (R150). One more MARK in the effect is one
more operation on the outgoing marker, whatever the base (R57). -/
def Obligations.MarkChangesTheEffect : Prop :=
  (∀ (s : State) (w : PostedWrite), s.Asks w .mark →
    let a := s.shadowed w
    let segment := a.arg 0
    let i := slotOf segment
    let x := s.toChip.slot i
    let op : MarkOp := if a.arg 1 = 0 then .and else if a.arg 1 = 1 then .or else .xor
    segment ≤ 16777212 → a.arg 1 ≤ 2 → a.arg 2 ≤ 65535 → x.holds segment = true →
    ((x.write = .filling ∨ x.write = .closed) →
      ∃ t, exec .mark s = .next t ∧
        t.toChip.slot i = { x with markerEffect := composeMark x.markerEffect op (a.arg 2) } ∧
        Chip.SameSlotsBut i s.toChip t.toChip ∧
        s.toChip.Answers t.toChip w.tag .done (match x.markerBase with
          | some b => applyEffect (t.toChip.slot i).markerEffect b
          | none => 65536) ∧
        t.ce = s.ce ∧ t.cu = s.cu ∧ t.rc = s.rc ∧ t.ecu = s.ecu ∧ t.dlc = s.dlc ∧
        ∀ c, t.toChip.counter c = s.toChip.counter c) ∧
    (x.write ≠ .filling → x.write ≠ .closed → ∃ t, exec .mark s = .next t ∧ s.JustAnswers t w .badState x.write.code)) ∧
  (∀ (s : State) (w : PostedWrite), s.Asks w .mark →
    let a := s.shadowed w
    (16777212 < a.arg 0 → ∃ t, exec .mark s = .next t ∧ s.JustAnswers t w .range 1) ∧
    (a.arg 0 ≤ 16777212 → 2 < a.arg 1 → ∃ t, exec .mark s = .next t ∧ s.JustAnswers t w .range 2) ∧
    (a.arg 0 ≤ 16777212 → a.arg 1 ≤ 2 → 65535 < a.arg 2 → ∃ t, exec .mark s = .next t ∧ s.JustAnswers t w .range 3) ∧
    (a.arg 0 ≤ 16777212 → a.arg 1 ≤ 2 → a.arg 2 ≤ 65535 →
      (s.toChip.slot (slotOf (a.arg 0))).holds (a.arg 0) = false →
      ∃ t, exec .mark s = .next t ∧ s.JustAnswers t w .badState 255)) ∧
  ∀ (effect : List BitEffect) (op : MarkOp) (mask base : Nat), effect.length = 16 → mask < 65536 → base < 65536 →
    applyEffect (composeMark effect op mask) base = (match op with
      | .and => applyEffect effect base &&& mask
      | .or => applyEffect effect base ||| mask
      | .xor => applyEffect effect base ^^^ mask)

/-- LINKCLEAR, in every link state, leaves the link OPENING with its opening values, a CLEAR and then an OPEN the only
frames waiting (in OPENING too: log 15), and is DONE with the state before. From UP or FAILED a run in progress is
aborted; from DOWN or OPENING nothing else changes (R84, R86, R87, R103, R120, R121). -/
def Obligations.LinkClearReopensTheLink : Prop :=
  ∀ (s : State) (w : PostedWrite), s.Asks w .linkClear →
    ∃ t, exec .linkClear s = .next t ∧
      t.dlc.linkState = .opening ∧ t.dlc.lane.map LaneEntry.frame = [.clearLink, .openLink] ∧ t.dlc.sendSeq = 0 ∧
      t.dlc.recvSeq = 0 ∧ t.dlc.writeCredits = 0 ∧ t.dlc.retention = [] ∧ t.dlc.retryCount = 0 ∧
      t.dlc.recvWindow = 0 ∧ t.dlc.outstanding = 0 ∧ t.dlc.released = 32 ∧ t.dlc.staging = [] ∧
      t.dlc.ackTimer = none ∧ t.dlc.creditTimer = none ∧ t.dlc.openTimer = some t.cpm.link.openRetry ∧
      s.toChip.Answers t.toChip w.tag .done s.dlc.linkState.code ∧
      ((s.dlc.linkState = .up ∨ s.dlc.linkState = .failed) →
        t.dlc.fetch = none ∧ ((s.rc.state ≠ .idle → s.rc.run.isSome = true) → t.rc.state = .idle) ∧
        (∀ r, s.rc.run = some r → s.rc.state ≠ .idle → s.toChip.Aborts t.toChip r ∧
          (s.toChip.RoomAfterReleases 2 →
            s.toChip.Raises t.toChip (.linkCleared true s.dlc.linkState true))) ∧
        (s.rc.state = .idle → s.toChip.RingRoom →
          s.toChip.Raises t.toChip (.linkCleared true s.dlc.linkState false))) ∧
      ((s.dlc.linkState = .down ∨ s.dlc.linkState = .opening) → Chip.SameTape s.toChip t.toChip) ∧
      ∀ c, t.toChip.counter c = s.toChip.counter c

/-! ## The other watched cells (R33, R34, R38) -/

/-- CONSUME_COUNT_WRITE: a value above the count takes it to the lesser of the value and the ready prefix; the segments
in between are consumed, or their slots released. Another value changes nothing. The prefix covers every position filled
from the start (R33, R60). -/
def Obligations.ConsumeCountConsumes : Prop :=
  (∀ (s : State) (w : PostedWrite), s.Heads w .consumeCount → s.cpm.pendingMap = none →
    let v := (w.wordAt 0x0C0).toNat
    (v ≤ s.cpm.consumeCount → ∃ t, exec .consumeCountWrite s = .next t ∧
      Cpm.SameButReports { s.cpm with cells := (s.shadowed w).cells } t.cpm ∧ Chip.SameTape s.toChip t.toChip ∧
      t.dlc = s.dlc) ∧
    (s.cpm.consumeCount < v → ∃ t, exec .consumeCountWrite s = .next t ∧
      t.cpm.consumeCount = min v s.cpm.readyPrefix ∧ t.cpm.readyPrefix = s.cpm.readyPrefix ∧
      (∀ c, c ≠ .underrun → t.toChip.counter c = s.toChip.counter c) ∧
      ∀ r q, s.rc.run = some r → s.cpm.consumeCount ≤ q → q < min v s.cpm.readyPrefix →
        let segment := if r.backward then r.t0 - q else r.t0 + q
        (s.toChip.slot (slotOf segment)).holds segment = true →
        (t.toChip.slot (slotOf segment)).claimed = false ∨ (t.toChip.slot (slotOf segment)).consumed = true ∨
          (s.toChip.slot (slotOf segment)).serial < (t.toChip.slot (slotOf segment)).serial)) ∧
  ∀ (n : Nat) (filled : List Nat),
    let m := extendPrefix filled.length n filled
    n ≤ m ∧ (∀ k, n ≤ k → k < m → k ∈ filled) ∧ m ∉ filled

/-- INPUT_STATUS_WRITE by the digital-input initiator sets the incoming grade from the lock mark and the grade field; by
another it does not (R34). NOTICE_READ_INDEX_WRITE takes an index from the shadow forward to the published one, and
NOTICE follows; another is ignored (R38). -/
def Obligations.InputStatusAndReadIndex : Prop :=
  (∀ (s : State) (w : PostedWrite), s.Heads w .inputStatus → s.cpm.partState = .ready →
    let v := w.wordAt 0x0E0
    ∃ t, exec .inputStatusWrite s = .next t ∧
      t.cpm.incoming = (if w.initiator.val ≠ s.cpm.map.digitalIn then s.cpm.incoming
        else if v.getLsbD 31 = false then .unknown
        else if v.toNat % 4 = 0 then .known .free
        else if v.toNat % 4 = 1 then .known .one
        else .known .none) ∧
      Cpm.SameButReports { s.cpm with cells := (s.shadowed w).cells, incoming := t.cpm.incoming } t.cpm ∧
      Chip.SameTape s.toChip t.toChip ∧ t.dlc = s.dlc ∧ t.lbp.responses = s.lbp.responses) ∧
  ∀ (s : State) (w : PostedWrite), s.Heads w .readIndex → s.cpm.readIndex < 64 → s.cpm.publishedIndex < 64 →
    let v := (w.wordAt 0x120).toNat
    let ahead := (s.cpm.publishedIndex + 64 - s.cpm.readIndex) % 64
    ((∃ k, k ≤ ahead ∧ v = (s.cpm.readIndex + k) % 64) → ∃ t, exec .noticeReadIndexWrite s = .next t ∧
      Cpm.SameButReports { s.cpm with
        cells := (s.shadowed w).cells, readIndex := v, notice := s.cpm.publishedIndex != v } t.cpm ∧
      Chip.SameTape s.toChip t.toChip ∧ t.dlc = s.dlc ∧ t.lbp.responses = s.lbp.responses) ∧
    ((∀ k, k ≤ ahead → v ≠ (s.cpm.readIndex + k) % 64) → ∃ t, exec .noticeReadIndexWrite s = .next t ∧
      Cpm.SameButReports { s.cpm with cells := (s.shadowed w).cells } t.cpm ∧
      Chip.SameTape s.toChip t.toChip ∧ t.dlc = s.dlc ∧ t.lbp.responses = s.lbp.responses)

/-! ## Reads -/

/-- READ_GRANT returns the words of DRAM at the read's address; OUTPUT_STATUS_READ returns them with bits 1 and 0 of the
output status word replaced by the grade of the output segment record. The entry is free and nothing else changes
(R4, R12, R182). -/
def Obligations.ReadsReturnWords : Prop :=
  ∀ (s : State) (e : Fin 8) (r : Read), s.ReadNext e r →
    let status := r.range = .controlPage ∧ r.initiator.val = s.cpm.map.digitalOut ∧ r.addr ≤ 0x100 ∧
      0x100 < r.addr + 4 * r.len
    let rest (t : State) := t.toChip.read e = none ∧ Chip.SameReadsBut e s.toChip t.toChip ∧
      t.lbp.posted = s.lbp.posted ∧ t.lbp.outRecord = s.lbp.outRecord ∧ t.cpm = s.cpm ∧
      Chip.SameTape s.toChip t.toChip ∧ t.dlc = s.dlc
    (¬status → (∀ place, r.range ≠ .audioView place) → ∃ t, exec (.readGrant e) s = .next t ∧ rest t ∧
      t.lbp.responses = s.lbp.responses ++
        [.data r.initiator r.tag ((List.range r.len).map fun k => Memory.readWord s.mem (r.addr + 4 * k))]) ∧
    (status → ∃ t, exec (.outputStatusRead e) s = .next t ∧ rest t ∧
      t.lbp.responses = s.lbp.responses ++
        [.data r.initiator r.tag ((List.range r.len).map fun k =>
          if r.addr + 4 * k = 0x100 then
            (Memory.readWord s.mem 0x100 &&& 0xFFFFFFFC) ||| (match s.lbp.outRecord with
              | .grade .free => 0
              | .grade .one => 1
              | .grade .none => 2
              | .unrecovered => 2
              | .none => 2)
          else Memory.readWord s.mem (r.addr + 4 * k))])

/-- AUDIO_VIEW_FETCH: zeros from an EMPTY or unclaimed slot; held on one that is ARRIVING or CHECKING; from a READY one
the samples at once, or, where a word is LOST, the read waits for CU with the other samples in place (R9, R10, R13,
R123). -/
def Obligations.AudioViewFetchReads : Prop :=
  ∀ (s : State) (e : Fin 8) (r : Read) (place : ViewPlace), s.ReadNext e r → r.range = .audioView place →
    let x := s.toChip.slot place.slot
    let base := s.cpm.map.privateBase
    let image (k : Nat) : Nat := place.imageWord + k
    let flag (k : Nat) : WordFlag := flagIn (Memory.readWord s.mem (base + 2048 * place.slot.val + 4 * (480 + image k / 16)))
      (image k % 16)
    let sample (k : Nat) : Word :=
      BitVec.ofInt 32 ((Memory.readWord s.mem (base + 2048 * place.slot.val + 4 * image k)).toNat - 8388606)
    let noted (m : OutRecord) := if r.initiator.val = s.cpm.map.digitalOut then m else s.lbp.outRecord
    let rest (t : State) := Chip.SameReadsBut e s.toChip t.toChip ∧ t.lbp.posted = s.lbp.posted ∧
      t.slots = s.slots ∧ t.ce = s.ce ∧ t.rc = s.rc ∧ t.ecu = s.ecu ∧ t.dlc = s.dlc
    ((x.claimed = false ∨ x.play = .empty) → ∃ t, exec (.audioViewFetch e) s = .next t ∧ rest t ∧ t.cu = s.cu ∧
      t.toChip.read e = none ∧ t.lbp.outRecord = noted .none ∧
      t.lbp.responses = s.lbp.responses ++ [.data r.initiator r.tag (List.replicate r.len 0)] ∧
      ∀ c, t.toChip.counter c = s.toChip.counter c) ∧
    (x.claimed = true → (x.play = .arriving ∨ x.play = .checking) → r.late = false →
      ∃ t, exec (.audioViewFetch e) s = .next t ∧ rest t ∧ t.cu = s.cu ∧
        t.toChip.read e = some { r with
          state := .heldOnSlot, holdTimer := some (r.holdTimer.getD s.cpm.signal.holdLimit) } ∧
        t.lbp.outRecord = s.lbp.outRecord ∧ t.lbp.responses = s.lbp.responses ∧
        (r.holdTimer = none → s.toChip.Counted t.toChip .heldReads 1) ∧
        (r.holdTimer ≠ none → ∀ c, t.toChip.counter c = s.toChip.counter c)) ∧
    (x.claimed = true → x.play = .ready → (∀ k, k < r.len → flag k ≠ .lost) →
      ∃ t, exec (.audioViewFetch e) s = .next t ∧ rest t ∧ t.cu = s.cu ∧ t.toChip.read e = none ∧
        t.lbp.outRecord = noted (match x.recovered with
          | .recovered g .. => .grade g
          | _ => .unrecovered) ∧
        t.lbp.responses = s.lbp.responses ++ [.data r.initiator r.tag ((List.range r.len).map sample)] ∧
        ∀ c, t.toChip.counter c = s.toChip.counter c) ∧
    (x.claimed = true → x.play = .ready →
      (∃ k, k < r.len ∧ flag k = .lost ∧ 0 < 192 * x.segment + (place.advance k).pair) →
      ∃ t r', exec (.audioViewFetch e) s = .next t ∧ rest t ∧ t.toChip.read e = some r' ∧ r'.state = .concealing ∧
        (∀ k, k < r.len → flag k ≠ .lost → r'.values[k]? = some (some (sample k))) ∧
        (∀ k, k < r.len → flag k = .lost → 0 < 192 * x.segment + (place.advance k).pair →
          t.toChip.Evaluates (.read e k) (192 * x.segment + (place.advance k).pair) (place.advance k).channel) ∧
        t.lbp.outRecord = s.lbp.outRecord ∧ t.lbp.responses = s.lbp.responses ∧
        s.toChip.Counted t.toChip .concealedReads 1)

/-- NEIGHBOUR_FETCH: the scan over the granted block asks for another block, holds the read, or ends (R125 to R127,
R133); its value then goes to its asker (R123), and the last one a read waits for completes it (R9), the last of a block
forms the coded block (R65, R66, R144, R145) or offers the write of a capture or a save (R154, R163); a void code item or
save ends with its last evaluation (R79, R164). READ_LATE counts the first hold that lateness resolves (R13). -/
def Obligations.NeighbourFetchGoesOn : Prop :=
  ∀ (s : State) (e : Evaluation) (f : BlockFetch), s.toChip.evaluation e.id = some e → e.fetch = some f →
    s.mp.mayGrant (.neighbour e.id) = true →
    let words := (List.range 12).map fun q =>
      ((Memory.readWord s.mem (playbackAddr f.base (slotOf f.segment) (30 * f.block + 2 * q + e.channel))).toNat,
        flagAt s.mem f.base (slotOf f.segment) (30 * f.block + 2 * q + e.channel))
    let result := { e with fetch := none }.scan (s.toChip.askerLate e.asker)
      (some ⟨f.segment, f.block, s.toChip.slot (slotOf f.segment), words⟩)
    ∃ t, exec (.neighbourFetch e.id) s = .next t ∧ t.slots = s.slots ∧ t.rc = s.rc ∧ t.dlc = s.dlc ∧
      t.lbp.posted = s.lbp.posted ∧
      (∀ e' place, result = .fetch e' place → t.toChip.evaluation e.id = some { e' with
          fetch := some ⟨place / 192, place % 192 / 12, s.cpm.map.privateBase⟩ } ∧
        t.toChip.Offers (.neighbour e.id)) ∧
      (∀ e', result = .held e' → t.toChip.evaluation e.id = some { e' with fetch := none } ∧
        ∀ entry k r, e.asker = .read entry k → s.toChip.read entry = some r → none ∈ r.values →
          t.toChip.read entry = some { r with
            state := .heldOnNeighbour, holdTimer := some (r.holdTimer.getD s.cpm.signal.holdLimit) }) ∧
      (∀ v late, result = .ended v late → t.toChip.evaluation e.id = none ∧
        (∀ entry k r, e.asker = .read entry k → s.toChip.read entry = some r →
          (r.state = .concealing ∨ r.state = .heldOnNeighbour) →
          let values := r.values.set k (some (BitVec.ofInt 32 v))
          (none ∈ values → t.toChip.read entry = some { r with
              values := values, lateCounted := r.lateCounted || late } ∧
            t.lbp.responses = s.lbp.responses) ∧
          (none ∉ values → t.toChip.read entry = none ∧
            t.lbp.responses = s.lbp.responses ++ [.data r.initiator r.tag (values.map fun w => w.getD 0)]) ∧
          (late = true → r.lateCounted = false → s.toChip.Counted t.toChip .readLate 1) ∧
          ((late = false ∨ r.lateCounted = true) → ∀ c, t.toChip.counter c = s.toChip.counter c)) ∧
        (∀ k j, e.asker = .codeEngine k → s.ce.job = some (.code j) → j.stage = .concealing →
          let olds := j.old.set k (some v)
          t.ce.queue = s.ce.queue ∧
          (j.void = false → none ∈ olds → t.ce.job = some (.code { j with old := olds })) ∧
          (j.void = false → none ∉ olds → t.toChip.Offers .codeEngine ∧
            ∃ ws, t.ce.job = some (.code { j with old := olds, stage := .blockWrite ws }) ∧ ws.length = 30 ∧
              isCodeword ws = true ∧ ws[24]? = some j.segment ∧
              ws[25]? = some (j.block + 16 * j.rate + 64 * j.writer.code) ∧ ws[26]? = some j.copyWord ∧
              ws[27]? = some j.marker ∧
              ∀ p, j.punch = some p → ∀ i, i < 24 →
                let old := (olds.getD i none).getD 0
                ws[i]? = some (codeOfSample
                  (p.mix (192 * j.segment + 12 * j.block + i / 2) old ((j.new.getD i none).getD old)))) ∧
          (j.void = true → t.ce.job = if t.cu.servesCode then some (.code { j with old := olds }) else none)) ∧
        (∀ id k c, e.asker = .capture id k → s.ecu.capture = some c → c.stage = .concealing →
          let values := c.values.set k (some (codeOfSample v))
          (c.id ≠ id → t.ecu = s.ecu) ∧
          (c.id = id → none ∈ values → t.ecu = { s.ecu with capture := some { c with values := values } }) ∧
          (c.id = id → none ∉ values → t.toChip.Offers .capture ∧
            t.ecu = { s.ecu with capture := some { c with values := values, stage := .writing } })) ∧
        (∀ k j, e.asker = .save k → s.ecu.saving = some j → j.stage = .concealing →
          let values := j.values.set k (some (codeOfSample v))
          (j.void = false → none ∈ values →
            t.ecu = { s.ecu with saving := some { j with values := values } }) ∧
          (j.void = false → none ∉ values → t.toChip.Offers .save ∧
            t.ecu = { s.ecu with saving := some { j with values := values, stage := .writing } }) ∧
          (j.void = true → t.ecu = { s.ecu with
            saving := if t.cu.servesSave then some { j with values := values } else none })))

/-- The value of an evaluation whose scan runs within one granted READY block: beyond the gap it is the hold and fade
of the last good word; within the gap the look-ahead follows from the next position ahead (R126); with a good word on
both sides it is the interpolation; it is hold and fade where the look-ahead reaches its limit or the tape's end with
every word LOST; and it is 0 at the end of the tape or of the look-behind. On a block that is absent or pending the
look-behind ends with 0 and the look-ahead with hold and fade, but for an initiator's evaluation on a pending block,
which is held unless its read is late (R124, R126 to R129). -/
def Obligations.EvaluationValue : Prop :=
  (∀ (e : Evaluation) (late : Bool) (f : Fetched) (d : Nat), f.slot.holds f.segment = true → f.slot.play = .ready →
    let inBlock (A : Nat) := A / 192 = f.segment ∧ A % 192 / 12 = f.block
    let wordAt (A : Nat) := f.words.getD (A % 192 % 12) (0, .lost)
    (e.stage = .lookBehind → e.distance ≤ d → d ≤ e.index → d ≤ e.hold + 2 ^ e.fade →
      (∀ k, e.distance ≤ k → k ≤ d → inBlock (e.index - k)) →
      (∀ k, e.distance ≤ k → k < d → (wordAt (e.index - k)).2 = .lost) →
      (wordAt (e.index - d)).2 ≠ .lost → e.gap < d →
      e.scan late (some f) =
        .ended (holdFade ((wordAt (e.index - d)).1 - 8388606) d e.hold e.fade) false) ∧
    (e.stage = .lookBehind → e.distance ≤ d → d ≤ e.index → d ≤ e.hold + 2 ^ e.fade →
      (∀ k, e.distance ≤ k → k ≤ d → inBlock (e.index - k)) →
      (∀ k, e.distance ≤ k → k < d → (wordAt (e.index - k)).2 = .lost) →
      (wordAt (e.index - d)).2 ≠ .lost → d ≤ e.gap →
      e.scan late (some f) = { e with
        stage := .lookAhead, behind := some (((wordAt (e.index - d)).1 : Int) - 8388606, d)
        distance := 1 }.scan late (some f)) ∧
    (∀ a ka, e.stage = .lookAhead → e.behind = some (a, ka) → e.distance ≤ d → d ≤ e.gap + 1 - ka →
      (∀ k, e.distance ≤ k → k ≤ d → inBlock (e.index + k)) → e.index + d < 192 * 16777213 →
      (∀ k, e.distance ≤ k → k < d → (wordAt (e.index + k)).2 = .lost) →
      (wordAt (e.index + d)).2 ≠ .lost →
      e.scan late (some f) = .ended (interpolate a ((wordAt (e.index + d)).1 - 8388606) ka d) false) ∧
    (∀ a ka, e.stage = .lookAhead → e.behind = some (a, ka) → e.distance ≤ d →
      (e.gap + 1 - ka < d ∨ 192 * 16777213 ≤ e.index + d) →
      (∀ k, e.distance ≤ k → k < d → k ≤ e.gap + 1 - ka ∧ e.index + k < 192 * 16777213 ∧ inBlock (e.index + k) ∧
        (wordAt (e.index + k)).2 = .lost) →
      e.scan late (some f) = .ended (holdFade a ka e.hold e.fade) false) ∧
    (e.stage = .lookBehind → e.distance ≤ d → (e.index < d ∨ e.hold + 2 ^ e.fade < d) →
      (∀ k, e.distance ≤ k → k < d → k ≤ e.index ∧ k ≤ e.hold + 2 ^ e.fade ∧ inBlock (e.index - k) ∧
        (wordAt (e.index - k)).2 = .lost) →
      e.scan late (some f) = .ended 0 false)) ∧
  ∀ (e : Evaluation) (late : Bool) (f : Fetched),
    let absent := f.slot.holds f.segment = false ∨ f.slot.play = .empty
    let waits := f.slot.holds f.segment = true ∧ (f.slot.play = .arriving ∨ f.slot.play = .checking)
    (e.stage = .lookBehind → e.distance ≤ e.index → e.distance ≤ e.hold + 2 ^ e.fade →
      (e.index - e.distance) / 192 = f.segment → (e.index - e.distance) % 192 / 12 = f.block → (absent ∨ waits) →
      e.scan late (some f) = .ended 0 false) ∧
    ∀ a ka, e.stage = .lookAhead → e.behind = some (a, ka) → e.distance ≤ e.gap + 1 - ka →
      e.index + e.distance < 192 * 16777213 → (e.index + e.distance) / 192 = f.segment →
      (e.index + e.distance) % 192 / 12 = f.block →
      (absent → e.scan late (some f) = .ended (holdFade a ka e.hold e.fade) false) ∧
      (waits → (∀ entry k, e.asker ≠ .read entry k) →
        e.scan late (some f) = .ended (holdFade a ka e.hold e.fade) false) ∧
      (waits → ∀ entry k, e.asker = .read entry k →
        e.scan late (some f) = (if late then .ended (holdFade a ka e.hold e.fade) true
          else .held { e with stage := .held, pendingSegment := some f.segment }))

/-- READ_LATE: a read held on a slot completes with zeros and READ_LATE advances, once per read; every held evaluation
of one held on a neighbour ends at once with hold and fade, and the read completes if no other word of it is open; a
read in another state is late from now on and nothing else changes (R13, R134). -/
def Obligations.ReadLateResolves : Prop :=
  ∀ (s : State) (e : Fin 8) (r : Read), s.toChip.read e = some r → r.holdTimer = some 0 → r.late = false →
    (r.state = .heldOnSlot → ∃ t, exec (.readLate e) s = .next t ∧ t.toChip.read e = none ∧
      t.lbp.responses = s.lbp.responses ++ [.data r.initiator r.tag (List.replicate r.len 0)] ∧
      (r.lateCounted = false → s.toChip.Counted t.toChip .readLate 1) ∧
      (r.lateCounted = true → ∀ c, t.toChip.counter c = s.toChip.counter c) ∧
      Chip.SameReadsBut e s.toChip t.toChip ∧ t.lbp.posted = s.lbp.posted ∧ Chip.SameTape s.toChip t.toChip ∧
      t.dlc = s.dlc) ∧
    ((r.state = .waiting ∨ r.state = .offered ∨ r.state = .concealing) → ∃ t, exec (.readLate e) s = .next t ∧
      t.toChip.read e = some { r with late := true } ∧ t.lbp.responses = s.lbp.responses ∧
      (∀ c, t.toChip.counter c = s.toChip.counter c) ∧ Chip.SameReadsBut e s.toChip t.toChip ∧
      t.lbp.posted = s.lbp.posted ∧ Chip.SameTape s.toChip t.toChip ∧ t.dlc = s.dlc) ∧
    (r.state = .heldOnNeighbour → (s.cu.evals.map Evaluation.id).Nodup →
      let waits (ev : Evaluation) : Bool := ev.stage == .held && (match ev.asker with
        | .read entry _ => entry == e
        | _ => false)
      let held := s.cu.evals.filter waits
      held ≠ [] → (∀ ev ∈ held, ev.behind ≠ none) →
      let values := held.foldl (fun (vs : List (Option Word)) ev => match ev.asker, ev.behind with
        | .read _ k, some (a, ka) => vs.set k (some (BitVec.ofInt 32 (holdFade a ka ev.hold ev.fade)))
        | _, _ => vs) r.values
      ∃ t, exec (.readLate e) s = .next t ∧ t.cu.evals = s.cu.evals.filter (fun ev => !(waits ev)) ∧
        (none ∉ values → t.toChip.read e = none ∧
          t.lbp.responses = s.lbp.responses ++ [.data r.initiator r.tag (values.map fun w => w.getD 0)]) ∧
        (none ∈ values → t.lbp.responses = s.lbp.responses ∧
          t.toChip.read e = some { r with late := true, lateCounted := true, values := values }) ∧
        (r.lateCounted = false → s.toChip.Counted t.toChip .readLate 1) ∧
        (r.lateCounted = true → ∀ c, t.toChip.counter c = s.toChip.counter c) ∧
        Chip.SameReadsBut e s.toChip t.toChip ∧ t.lbp.posted = s.lbp.posted ∧ t.slots = s.slots ∧ t.ce = s.ce ∧
        t.rc = s.rc ∧ t.ecu = s.ecu ∧ t.dlc = s.dlc)

/-! ## Staging and sending (R51, R52, R90, R98) -/

/-- STAGING_WRITE: an accepted row is stored at its places in the playback image and marked arrived, the decode queued
with the last of 30; a row for a slot held by another segment is dropped as an OVERRUN, its record that of its segment
alone (a record of another segment is replaced: log 44); any other is dropped. In each case it leaves the FIFO and
releases a credit (R41, R51 to R53, R98). The run takes rows of the segments of its window while it is an ACTIVE PLAY or
EDIT (R51). -/
def Obligations.StagingWriteTakesTheHead : Prop :=
  ∀ (s : State) (row : StagedRow) (rest : List StagedRow), s.dlc.staging = row :: rest →
    s.mp.mayGrant .staging = true → Memory.wf s.mem = true → row.row < 30 →
    let i := slotOf row.segment
    let x := s.toChip.slot i
    let taken := s.toChip.takesRows row.segment
    let common (t : State) := t.dlc.staging = rest ∧ t.dlc.released = s.dlc.released + 1 ∧
      (rest ≠ [] → t.toChip.Offers .staging) ∧
      (8 ≤ s.dlc.released + 1 → .grant ∈ t.dlc.lane.map LaneEntry.frame) ∧
      t.dlc = { s.dlc with staging := rest, released := t.dlc.released, lane := t.dlc.lane } ∧ t.lbp = s.lbp ∧
      t.cu = s.cu ∧ t.rc = s.rc ∧ t.ecu = s.ecu ∧ Chip.SameSlotsBut i s.toChip t.toChip
    (taken = true ↔ ∃ r q, s.rc = ⟨.active, some r⟩ ∧ (r.kind = .play ∨ r.kind = .edit) ∧ q < r.length ∧
      r.windowBase ≤ q ∧ q < r.windowBase + 256 ∧
      (if r.backward then row.segment + q = r.t0 else row.segment = r.t0 + q)) ∧
    (taken = true → x.claimed = true → x.segment = row.segment → (x.play = .empty ∨ x.play = .arriving) →
      x.rows[Fin.ofNat 30 row.row] = .notIn →
      let rows := x.rows.set (Fin.ofNat 30 row.row) (.arrived row.void row.mask)
      ∃ t, exec .stagingWrite s = .next t ∧ common t ∧
        Stored s.mem t.mem (row.words.zipIdx.map fun wk =>
          (s.cpm.map.privateBase + 2048 * i.val + 4 * (30 * wk.2 + (7 * row.row) % 30), wk.1)) ∧
        ((∃ r : Fin 30, rows[r] = .notIn) →
          t.toChip.slot i = { x with rows := rows, play := .arriving } ∧ t.ce = s.ce) ∧
        ((∀ r : Fin 30, rows[r] ≠ .notIn) →
          t.toChip.slot i = { x with rows := rows, play := .checking } ∧
          ∃ stamp, t.ce = { s.ce with queue := s.ce.queue ++ [⟨.decode i row.segment x.serial rows, stamp⟩] }) ∧
        ∀ c, t.toChip.counter c = s.toChip.counter c) ∧
    (taken = true → x.claimed = true → x.segment ≠ row.segment →
      ∃ t, exec .stagingWrite s = .next t ∧ common t ∧ t.mem = s.mem ∧ t.ce = s.ce ∧
        s.toChip.Counted t.toChip .overrun 1 ∧
        (∃ set, t.toChip.slot i = { x with overrun := some (row.segment, set) } ∧
          ∀ k, set.getLsbD k = (k == row.row || (match x.overrun with
            | some (other, old) => other == row.segment && old.getLsbD k
            | none => false))) ∧
        (s.cpm.partState = .ready → (∀ set, x.overrun ≠ some (row.segment, set)) → s.toChip.RingRoom →
          s.toChip.Raises t.toChip (.overrun row.segment i.val x.segment))) ∧
    ((taken = false ∨ x.claimed = false ∨ (x.segment = row.segment ∧
        (x.play = .checking ∨ x.play = .ready ∨ x.rows[Fin.ofNat 30 row.row] ≠ .notIn))) →
      ∃ t, exec .stagingWrite s = .next t ∧ common t ∧ t.mem = s.mem ∧ t.ce = s.ce ∧ t.slots = s.slots ∧
        ∀ c, t.toChip.counter c = s.toChip.counter c)

/-- ROW_FETCH: a fetch that still matches its slot sends the row: the words of the outgoing image at its places, a
credit used, the entry retained under the send seq, the frame handed; the slot is SENDING from its first row. One that
does not match sends nothing (R41, R58, R90, R93). -/
def Obligations.RowFetchSendsTheRow : Prop :=
  ∀ (s : State) (f : RowFetch), s.dlc.fetch = some f → s.mp.mayGrant .rowFetch = true → s.cpm.pendingMap = none →
    let x := s.toChip.slot f.slot
    let matched := x.claimed = true ∧ x.segment = f.segment ∧ x.serial = f.serial ∧
      (x.write = .queued ∨ x.write = .sending)
    let words := (List.range 16).map fun k =>
      Memory.readWord s.mem (f.base + 0x040000 + 2048 * f.slot.val + 4 * (30 * k + (7 * f.row) % 30))
    (matched → ∃ t, exec .rowFetch s = .next t ∧
      t.dlc.retention = s.dlc.retention ++ [⟨s.dlc.sendSeq, f.segment, f.row, f.slot, f.serial, some words⟩] ∧
      t.dlc.sendSeq = s.dlc.sendSeq + 1 ∧ t.dlc.writeCredits = s.dlc.writeCredits - 1 ∧
      t.dlc.ackTimer = (if s.dlc.retention = [] then some s.cpm.link.ackTimeout else s.dlc.ackTimer) ∧
      .row s.dlc.sendSeq f.segment f.row words ∈ t.dlc.lane.map LaneEntry.frame ∧
      (t.toChip.slot f.slot).claimed = true ∧ (t.toChip.slot f.slot).serial = x.serial ∧
      (t.toChip.slot f.slot).write = (if f.row = 0 then .sending else x.write) ∧
      t.dlc.linkState = s.dlc.linkState ∧ t.dlc.staging = s.dlc.staging ∧ t.dlc.released = s.dlc.released ∧
      t.dlc.outstanding = s.dlc.outstanding ∧ t.dlc.recvSeq = s.dlc.recvSeq) ∧
    (¬matched → ∃ t, exec .rowFetch s = .next t ∧ t.dlc.retention = s.dlc.retention ∧
      t.dlc.sendSeq = s.dlc.sendSeq ∧ t.dlc.writeCredits = s.dlc.writeCredits ∧ t.dlc.ackTimer = s.dlc.ackTimer ∧
      t.dlc.linkState = s.dlc.linkState ∧ t.dlc.staging = s.dlc.staging)

/-! ## The code engine (chapter 4) -/

/-- A block CE encodes keeps its 28 values and adds Q28 and Q29 as R64 gives them; it satisfies both check congruences,
and both check words are in field, for any 28 values (R64). -/
def Obligations.EncodedBlocksAreCodewords : Prop :=
  ∀ cs : List Nat, cs.length = 28 →
    let A : Int := (cs.sum : Nat) % 16777213
    let B : Int := ((cs.zipIdx.map fun cj => (cj.2 + 1) * cj.1).sum : Nat) % 16777213
    (encodeBlock cs).length = 30 ∧ (encodeBlock cs).take 28 = cs ∧
      ((encodeBlock cs).getD 28 0 : Int) = (B - 30 * A) % 16777213 ∧
      ((encodeBlock cs).getD 29 0 : Int) = (29 * A - B) % 16777213 ∧ (encodeBlock cs).sum % 16777213 = 0 ∧
      ((encodeBlock cs).zipIdx.map fun cj => (cj.2 + 1) * cj.1).sum % 16777213 = 0 ∧
      (∀ j, 28 ≤ j → (encodeBlock cs).getD j 0 < 16777213)

/-- A block hit by one error, or with one or two erasures and no other error, is restored whole: decoding a codeword
after the damage gives back its words (R71 to R73, R75). -/
def Obligations.DecodeRestoresTheBlock : Prop :=
  ∀ (cs raw : List Nat) (rows : Vector RowRecord 30) (b : Nat), cs.length = 30 → raw.length = 30 →
    (∀ w ∈ cs, w < 16777213) → isCodeword cs = true →
    (∀ x y, x ≠ y → (∀ j, j ≠ x → j ≠ y → raw.getD j 0 = cs.getD j 0) →
      ((erasures rows b raw = [] ∧ raw.getD y 0 = cs.getD y 0) ∨
        (erasures rows b raw = [x] ∧ raw.getD y 0 = cs.getD y 0) ∨
        (x < y ∧ erasures rows b raw = [x, y])) →
      (decodeBlock rows b raw).words = cs ∧
        ∀ j, j < 30 → (decodeBlock rows b raw).flags.getD j .lost =
          if raw.getD j 0 < 16777213 then (if raw.getD j 0 = cs.getD j 0 then .clean else .fixed)
          else (if cs.getD j 0 = 0 then .clean else .fixed))

/-- With three or more erasures the erased words are LOST and the others UNCHECKED, each as received, out-of-field words
at 0; and every decoded word is in field (R70, R74). A position is erased by its row's record, void, masked, written off
or not in at a drain, or by a word out of field (R69, R70). -/
def Obligations.DecodeOfManyErasures : Prop :=
  ∀ (raw : List Nat) (rows : Vector RowRecord 30) (b : Nat), raw.length = 30 →
    (∀ j, j ∈ erasures rows b raw ↔ j < 30 ∧ (16777213 ≤ raw.getD j 0 ∨
      (match rows.getD (13 * j % 30) .notIn with
        | .notIn => True
        | .arrived void mask => void = true ∨ mask.getLsbD b = true
        | .writtenOff => True))) ∧
    (∀ w ∈ (decodeBlock rows b raw).words, w < 16777213) ∧
    (3 ≤ (erasures rows b raw).length → ∀ j, j < 30 →
      (decodeBlock rows b raw).flags.getD j .clean =
        (if j ∈ erasures rows b raw then .lost else .unchecked) ∧
      (decodeBlock rows b raw).words.getD j 0 = if raw.getD j 0 < 16777213 then raw.getD j 0 else 0)

/-- CE takes an item at the front of its queue: a decode item reads block 0; a code item takes its slot from CLOSED to
CODING with the values of R42 fixed, a RECORD's or a REVERT's with its copy word, and makes its first request (R58, R65,
R76, R78, R178, R180). -/
def Obligations.CodeEngineTakesItems : Prop :=
  ∀ (s : State) (i : Fin 128) (segment serial : Nat), s.ce.job = none →
    let x := s.toChip.slot i
    let rest (t : State) := t.lbp = s.lbp ∧ t.cpm = s.cpm ∧ t.cu = s.cu ∧ t.dlc = s.dlc ∧ t.rc = s.rc ∧
      t.ecu = s.ecu ∧ Chip.SameSlotsBut i s.toChip t.toChip
    (∀ rows, s.ce.front.find? (CeItem.decodes i) = some (.decode i segment serial rows) →
      ∃ t, exec (.ceTakeDecodeItem i) s = .next t ∧ rest t ∧ t.slots = s.slots ∧
        t.ce.job = some (.decode {
          slot := i, segment := segment, serial := serial, rows := rows, base := s.cpm.map.privateBase, block := 0
          stage := .blockRead, flags := [], aux := [], fixedCount := 0, lostCount := 0, recovered := .absent
          void := false }) ∧
        t.ce.queue = s.ce.queue.eraseP (fun e => e.item == .decode i segment serial rows) ∧
        t.toChip.Offers .codeEngine) ∧
    (∀ material writer punch,
      s.ce.front.find? (CeItem.codes i) = some (.code i segment serial material writer punch) →
      ∃ t j, exec (.ceTakeCodeItem i) s = .next t ∧ rest t ∧ t.ce.job = some (.code j) ∧
        t.toChip.slot i = { x with write := .coding } ∧ j.slot = i ∧ j.segment = segment ∧ j.serial = serial ∧
        j.material = material ∧ j.writer = writer ∧ j.punch = punch ∧ j.written = x.written ∧
        (∀ r, s.rc.run = some r → j.rate = r.rate) ∧
        j.marker = applyEffect x.markerEffect (x.markerBase.getD 0) ∧ j.clipCount = x.clipCount ∧
        j.underrunCount = x.underrunCount ∧ j.base = s.cpm.map.privateBase ∧ j.block = 0 ∧ j.void = false ∧
        (writer = .record → x.material ≠ .fill → ∀ g c, x.worstGrade = some g → x.worstSource = some c →
          j.copyWord = (match g with
            | .free => 0
            | .one => 1
            | .none => 2) + 4 * (if c = .digital then 1 else 0)) ∧
        (writer = .record → x.worstGrade = none → j.copyWord = 0) ∧
        (writer = .record → x.material = .fill → x.worstGrade ≠ none → j.copyWord = 22) ∧
        (∀ u : Fin 256, writer = .revert → material = .image u →
          j.copyWord = (match (s.ecu.images[u]).grade with
            | .free => 0
            | .one => 1
            | .none => 2) + 4 * 3 + 32 * (if (s.ecu.images[u]).baked then 1 else 0)) ∧
        (punch ≠ none → j.stage = .flagMapRead) ∧
        (punch = none → material ≠ .fill → j.stage = .blockRead) ∧
        (punch = none → material = .fill → ∃ ws, j.stage = .blockWrite ws ∧ ws.length = 30 ∧
          ∀ k, k < 24 → ws[k]? = some 8388606) ∧
        t.ce.queue = s.ce.queue.eraseP (fun e => e.item == .code i segment serial material writer punch) ∧
        t.toChip.Offers .codeEngine)

/-- DECODE_BLOCK_READ decides the block from the words of the playback image and the item's row records, and counts its
flags; a void item goes on without a write (R69 to R76, R79). -/
def Obligations.DecodeBlockReadDecides : Prop :=
  ∀ (s : State) (j : DecodeJob), s.ce.job = some (.decode j) → j.stage = .blockRead →
    s.mp.mayGrant .codeEngine = true → CountersBounded s.toChip →
    let raw := (List.range 30).map fun i =>
      (Memory.readWord s.mem (j.base + 2048 * j.slot.val + 4 * (30 * j.block + i))).toNat
    let d := decodeBlock j.rows j.block raw
    ∃ t, exec .decodeBlockRead s = .next t ∧
      t.toChip.counter .fixedWords = min Config.counterMax (s.toChip.counter .fixedWords + d.flags.count .fixed) ∧
      t.toChip.counter .lostWords = min Config.counterMax (s.toChip.counter .lostWords + d.flags.count .lost) ∧
      t.toChip.counter .uncheckedWords =
        min Config.counterMax (s.toChip.counter .uncheckedWords + d.flags.count .unchecked) ∧
      (∀ c, c ≠ .fixedWords → c ≠ .lostWords → c ≠ .uncheckedWords → t.toChip.counter c = s.toChip.counter c) ∧
      Cpm.SameButCounters s.cpm t.cpm ∧ t.ce.queue = s.ce.queue ∧ t.slots = s.slots ∧ t.cu = s.cu ∧ t.rc = s.rc ∧
      t.ecu = s.ecu ∧ t.dlc = s.dlc ∧ t.lbp = s.lbp ∧
      (j.void = false → t.toChip.Offers .codeEngine ∧ t.ce.job = some (.decode { j with
        stage := .blockWrite d.words, flags := j.flags ++ d.flags, aux := j.aux ++ [d.aux]
        fixedCount := j.fixedCount + d.flags.count .fixed, lostCount := j.lostCount + d.flags.count .lost })) ∧
      (j.void = true → j.block < 15 → t.toChip.Offers .codeEngine ∧ t.ce.job = some (.decode { j with
        block := j.block + 1, stage := .blockRead, flags := j.flags ++ d.flags, aux := j.aux ++ [d.aux]
        fixedCount := j.fixedCount + d.flags.count .fixed, lostCount := j.lostCount + d.flags.count .lost })) ∧
      (j.void = true → j.block = 15 → t.ce.job = none)

/-- DECODE_BLOCK_WRITE stores the decided block, and with block 0 the summary word with the valid mark clear; the next
block is read, or after block 15 the aux is recovered, a mismatch or a loss is noted, and the final write is offered
(R43, R44, R76). -/
def Obligations.DecodeBlockWriteStores : Prop :=
  ∀ (s : State) (j : DecodeJob) (ws : List Nat), s.ce.job = some (.decode j) → j.stage = .blockWrite ws →
    ws.length = 30 → j.void = false → j.block ≤ 15 → s.mp.mayGrant .codeEngine = true → Memory.wf s.mem = true →
    let image := j.base + 2048 * j.slot.val
    let recovered := recoverAux j.segment j.aux
    let wrong := j.aux.countP fun a => a.whole && a.segment != j.segment
    ∃ t, exec .decodeBlockWrite s = .next t ∧
      Stored s.mem t.mem (placeWords (image + 4 * (30 * j.block)) (ws.map word) ++
        (if j.block = 0 then [(image + 4 * 510, word j.segment)] else [])) ∧
      t.toChip.Offers .codeEngine ∧
      (j.block < 15 → t.ce.job = some (.decode { j with block := j.block + 1, stage := .blockRead }) ∧
        t.cpm = { s.cpm with
          statusHeld := t.cpm.statusHeld, dirty := t.cpm.dirty, statusOffered := t.cpm.statusOffered
          nextWrite := t.cpm.nextWrite }) ∧
      (j.block = 15 → t.ce.job = some (.decode { j with stage := .finalWrite, recovered := recovered }) ∧
        (s.cpm.partState = .ready → s.toChip.RingRoom → wrong ≠ 0 →
          s.toChip.Raises t.toChip (.tMismatch j.segment wrong)) ∧
        (s.cpm.partState = .ready → s.toChip.RingRoom → wrong = 0 → recovered = .unrecovered →
          s.toChip.Raises t.toChip (.auxLost j.segment (unqualifiedBlocks j.segment j.aux)))) ∧
      Cpm.SameButReports s.cpm t.cpm ∧ t.ce.queue = s.ce.queue ∧ t.slots = s.slots ∧ t.cu = s.cu ∧ t.rc = s.rc ∧
      t.ecu = s.ecu ∧ t.dlc = s.dlc ∧ t.lbp = s.lbp

/-- DECODE_FINAL_WRITE stores the flag of every word, the valid summary word and the decode word (R6, R76). A report for
a slot no longer CHECKING for it is discarded (R54). One taken makes the slot READY with the recovered aux and fixes an
awaiting marker base; the READY count and the ready prefix go on, reads held on the slot are offered again, evaluations
held on it look ahead (R13, R33, R54). In an EDIT run a FILLING or CLOSED write side is set aside with RATE_MISMATCH if
the rates differ (R141); else its save enters the queue, the oldest whole run dropped where no image is free, or its
segment is coded without one (R57, R162, R165). An ACTIVE run ends COMPLETE with its last segment (R109, R151), a
draining one STOPPED with nothing left to wait for (R117, R119), each as R120, R159 and R166 have it. -/
def Obligations.DecodeFinalWriteMakesReady : Prop :=
  ∀ (s : State) (j : DecodeJob), s.ce.job = some (.decode j) → j.stage = .finalWrite →
    s.mp.mayGrant .codeEngine = true → Memory.wf s.mem = true → j.flags.length = 480 →
    let i := j.slot
    let x := s.toChip.slot i
    let awaited := x.claimed = true ∧ x.segment = j.segment ∧ x.serial = j.serial ∧ x.play = .checking
    let y : Slot := { x with
      play := .ready, recovered := j.recovered, markerBase := some (x.markerBase.getD j.recovered.marker) }
    let image := j.base + 2048 * i.val
    ∃ t, exec .decodeFinalWrite s = .next t ∧
      (∀ k, k < 480 → flagAt t.mem j.base i k = j.flags.getD k .lost) ∧
      Memory.readWord t.mem (image + 4 * 510) = word (j.segment + 0x80000000) ∧
      Memory.readWord t.mem (image + 4 * 511) = word ((match j.recovered with
        | .recovered g c refused baked _ _ _ => copyWordOf g c refused baked
        | _ => 0x80) + 0x100 * j.fixedCount + 0x20000 * j.lostCount) ∧
      (∀ b, (b < image + 4 * 480 ∨ image + 4 * 512 ≤ b) →
        Memory.readByte t.mem b = Memory.readByte s.mem b) ∧
      t.ce.job = none ∧
      (¬awaited → t.slots = s.slots ∧ t.rc = s.rc ∧ t.cpm = s.cpm ∧ t.cu = s.cu ∧ t.dlc = s.dlc ∧ t.ecu = s.ecu ∧
        t.lbp = s.lbp ∧ t.ce.queue = s.ce.queue) ∧
      ∀ r, awaited → s.rc.run = some r → (r.kind = .play ∨ r.kind = .edit) → s.cpm.pendingMap = none →
        x.consumed = false →
        let waiting := r.kind = .edit ∧ (x.write = .filling ∨ x.write = .closed)
        let differs := ∃ g c refused baked marker rate writer,
          j.recovered = .recovered g c refused baked marker rate writer ∧ rate ≠ r.rate
        let goesOn := t.rc.state = s.rc.state
        ∃ r', t.rc.run = some r' ∧ r'.readyCount = r.readyCount + 1 ∧ r'.doneCount = r.doneCount ∧
          t.cpm.readyPrefix =
            extendPrefix (s.cpm.readyAhead.length + 1) s.cpm.readyPrefix (s.cpm.readyAhead ++ [x.position]) ∧
          (∀ e rd place, s.toChip.read e = some rd → rd.range = .audioView place → place.slot = i →
            rd.state = .heldOnSlot →
            t.toChip.read e = some { rd with state := .offered } ∧ t.toChip.Offers (.read e)) ∧
          (∀ ev ∈ s.cu.evals, ev.stage = .held → ev.pendingSegment = some j.segment →
            t.toChip.Offers (.neighbour ev.id) ∧
              ∃ ev' ∈ t.cu.evals, ev'.id = ev.id ∧ ev'.stage = .lookAhead ∧ ev'.fetch.isSome = true) ∧
          t.lbp.responses = s.lbp.responses ∧
          -- the write side
          (¬waiting → t.toChip.slot i = y) ∧
          (∀ g c refused baked marker rate writer, waiting →
            j.recovered = .recovered g c refused baked marker rate writer → rate ≠ r.rate →
            t.toChip.slot i = { y with
              write := .idle, undoSave := if x.undoSave = .inProgress then .none else x.undoSave } ∧
            r.settledCount + 1 ≤ r'.settledCount ∧
            (s.cpm.partState = .ready → s.toChip.RingRoom →
              s.toChip.Raises t.toChip (.rateMismatch j.segment rate r.rate))) ∧
          (waiting → ¬differs →
            ((s.cpm.edit.undo = false ∨ s.ecu.stoppedMark = true) →
              t.toChip.slot i = y ∧ (goesOn → t.ecu.partialMark = true ∧ t.ecu.stack = s.ecu.stack) ∧
              (x.write = .closed → x.undoSave ≠ .inProgress → ∃ e ∈ t.ce.queue, e.item.codes i = true)) ∧
            (s.cpm.edit.undo = true → s.ecu.stoppedMark = false →
              (∀ u : Fin 256, (s.ecu.images[u]).used = false →
                (∀ v : Fin 256, v < u → (s.ecu.images[v]).used = true) →
                t.toChip.slot i = { y with undoSave := .inProgress } ∧
                t.ecu.saves.getLast? = some ⟨i, j.segment, j.serial, u⟩ ∧
                (goesOn → t.ecu.partialMark = s.ecu.partialMark ∧ t.ecu.stack = s.ecu.stack ∧
                  ((∀ v ∈ s.ecu.saves, v.image ≠ u) → (∀ v, s.ecu.saving = some v → v.save.image ≠ u) →
                    (t.ecu.images[u]).used = true))) ∧
              (∀ oldest rest, (∀ u : Fin 256, (s.ecu.images[u]).used = true) →
                OldestRun s.ecu.stack oldest rest → oldest ≠ [] →
                ∃ u, (∃ t', .seg t' u ∈ oldest) ∧ (∀ t' v, .seg t' v ∈ oldest → u ≤ v) ∧
                  t.toChip.slot i = { y with undoSave := .inProgress } ∧
                  t.ecu.saves.getLast? = some ⟨i, j.segment, j.serial, u⟩ ∧
                  (goesOn → t.ecu.partialMark = s.ecu.partialMark ∧ t.ecu.stack = rest ∧
                    s.toChip.RemovalMirrored t.toChip 0 oldest.length)) ∧
              ((∀ u : Fin 256, (s.ecu.images[u]).used = true) →
                (∀ e ∈ s.ecu.stack, e.isRun = false) →
                t.toChip.slot i = y ∧ (goesOn → t.ecu.stoppedMark = true ∧ t.ecu.partialMark = true ∧
                  t.ecu.stack = s.ecu.stack)))) ∧
          -- the run
          (s.rc.state = .idle → t.rc.state = .idle) ∧
          (s.rc.state = .active → r.kind = .play →
            t.rc.state = (if r.readyCount + 1 = r.length then .idle else .active)) ∧
          (∀ p clip qa qb n, s.rc.state = .active → r.kind = .edit → r.params = .edit p clip qa qb n →
            t.rc.state = (if r.readyCount + 1 = r.length ∧ r'.settledCount = n then .idle else .active) ∧
            (s.toChip.ClaimsSettled r → (¬waiting ∨ ¬differs) → r'.settledCount = r.settledCount)) ∧
          (s.rc.state = .draining →
            let drained := ∀ k, (t.toChip.slot k).claimed = true → (t.toChip.slot k).play ≠ .arriving ∧
              (t.toChip.slot k).play ≠ .checking ∧ ((t.toChip.slot k).write = .idle ∨ (t.toChip.slot k).write = .done)
            (drained → t.rc.state = .idle ∧ ∀ q, s.cpm.request = some q → q.kind = some .stop → q.reported = false →
              t.cpm.request = some { q with reported := true } ∧ ∃ id,
                t.toChip.Offers (.result id ⟨q.tag, .done, r.omitCount + 0x1000000 * 2⟩ (some q.id))) ∧
            (¬drained → t.rc.state = .draining)) ∧
          (s.rc.state ≠ .idle → t.rc.state = .idle →
            r'.endCause = (if s.rc.state = .active then .complete else .stopped) ∧ s.toChip.PendingApplied t.toChip ∧
            (s.cpm.partState = .ready → s.toChip.RingRoom → ¬waiting →
              (r.kind = .play ∨ s.toChip.ClaimsSettled r) → s.toChip.Raises t.toChip
                (.runEnd r.tag (if s.rc.state = .active then .complete else .stopped) r.kind false)) ∧
            (r.kind = .play → t.ecu.stack = s.ecu.stack ∧ t.ecu.clips = s.ecu.clips) ∧
            ∀ p clip qa qb n, r.kind = .edit → r.params = .edit p clip qa qb n → (¬waiting ∨ differs) →
              s.toChip.EditEnds t.toChip r clip qa r.doneCount)

/-- CODE_FLAG_MAP_READ fixes an EDIT's flags and copy word, and notes what it bakes in (R65, R148, R179).
CODE_BLOCK_READ forms the block: the written words of a RECORD and silence, or an EDIT's mix of old and new; a LOST old
word is evaluated first (R65, R66, R144, R145). Old, new and outgoing words count modulo p (log 29), and every LOST old
word is evaluated, used or not (log 23). -/
def Obligations.CodeReadsFormTheBlock : Prop :=
  ∀ (s : State) (j : CodeJob), s.ce.job = some (.code j) → j.void = false → s.mp.mayGrant .codeEngine = true →
    let x := s.toChip.slot j.slot
    let rest (t : State) := t.slots = s.slots ∧ t.rc = s.rc ∧ t.ecu = s.ecu ∧ t.dlc = s.dlc ∧ t.lbp = s.lbp ∧
      t.ce.queue = s.ce.queue
    let A (i : Nat) : Nat := 192 * j.segment + 12 * j.block + i / 2
    let out (i : Nat) : Nat :=
      (Memory.readWord s.mem (j.base + 0x040000 + 2048 * j.slot.val + 4 * (30 * j.block + i))).toNat % 16777213
    let old (i : Nat) : Int :=
      ((Memory.readWord s.mem (j.base + 2048 * j.slot.val + 4 * (30 * j.block + i))).toNat % 16777213 : Nat) - 8388606
    let isWritten (i : Nat) : Bool := j.written.getLsbD (2 * (12 * j.block + i / 2) + i % 2)
    let formed (t : State) (ws : List Nat) := t.toChip.Offers .codeEngine ∧ ws.length = 30 ∧ isCodeword ws = true ∧
      ws[24]? = some j.segment ∧ ws[25]? = some (j.block + 16 * j.rate + 64 * j.writer.code) ∧
      ws[26]? = some j.copyWord ∧ ws[27]? = some j.marker ∧
      ∃ o n, t.ce.job = some (.code { j with stage := .blockWrite ws, old := o, new := n })
    (∀ p, j.stage = .flagMapRead → j.punch = some p → j.material ≠ .fill →
      let flags := (List.range 480).map fun i => flagAt s.mem j.base j.slot i
      let baked := decide (j.lostUsed flags ≠ 0) || (!j.usedWords.isEmpty && x.recovered.baked)
      ∃ t cw, exec .codeFlagMapRead s = .next t ∧ rest t ∧ t.cu = s.cu ∧
        t.ce.job = some (.code { j with flags := flags, copyWord := cw, stage := .blockRead, old := [], new := [] }) ∧
        (∀ k, j.material = .clip k →
          cw = (x.recovered.grade.maxOpt (s.ecu.clips[k]).grade).code + 4 * 2 + 32 * (if baked then 1 else 0)) ∧
        (j.material = .live → cw = (x.recovered.grade.maxOpt x.worstGrade).code + 4 * (match x.worstSource with
          | some .analog => 0
          | some .digital => 1
          | none => 2) + 32 * (if baked then 1 else 0)) ∧
        Cpm.SameButReports s.cpm t.cpm ∧ t.toChip.Offers .codeEngine ∧
        (s.cpm.partState = .ready → s.toChip.RingRoom → j.lostUsed flags ≠ 0 →
          s.toChip.Raises t.toChip (.concealBaked j.segment (j.lostUsed flags)))) ∧
    (j.stage = .blockRead → j.punch = none → j.material = .live →
      ∃ t ws, exec .codeBlockRead s = .next t ∧ rest t ∧ t.cu = s.cu ∧ t.cpm = s.cpm ∧ formed t ws ∧
        ∀ i, i < 24 → ws[i]? = some (if isWritten i then out i else 8388606)) ∧
    (∀ u, j.stage = .blockRead → j.punch = none → j.material = .image u →
      ∃ t ws, exec .codeBlockRead s = .next t ∧ rest t ∧ t.cu = s.cu ∧ t.cpm = s.cpm ∧ formed t ws ∧
        ∀ i, i < 24 → ws[i]? = some (out i)) ∧
    (∀ p, j.stage = .blockRead → j.punch = some p → (∀ i, i < 24 → j.oldFlag i = .lost → A i = 0) →
      let old (i : Nat) : Int := if j.oldFlag i = .lost then 0 else old i
      ∃ t ws, exec .codeBlockRead s = .next t ∧ rest t ∧ t.cpm = s.cpm ∧ formed t ws ∧
        ((∀ i, i < 24 → j.oldFlag i ≠ .lost) → t.cu = s.cu) ∧
        (j.material = .live → ∀ i, i < 24 → ws[i]? = some (codeOfSample
          (p.mix (A i) (old i) (if isWritten i then (out i : Int) - 8388606 else old i)))) ∧
        ∀ k, j.material = .clip k → ∀ i, i < 24 → ws[i]? = some (codeOfSample
          (p.mix (A i) (old i) (if p.inSpan (A i) then
            ((Memory.readWord s.mem (clipAddr j.base k ((A i - p.pin) / 192)
              (2 * ((A i - p.pin) % 192) + i % 2))).toNat % 16777213 : Nat) - 8388606
            else old i)))) ∧
    (∀ p, j.stage = .blockRead → j.punch = some p → (∃ i, i < 24 ∧ j.oldFlag i = .lost ∧ 0 < A i) →
      ∃ t j', exec .codeBlockRead s = .next t ∧ rest t ∧ t.cpm = s.cpm ∧ t.ce.job = some (.code j') ∧
        j'.stage = .concealing ∧ j'.block = j.block ∧ j'.new = j.newValues s.mem ∧
        (∀ i, i < 24 → j.oldFlag i ≠ .lost → j'.old[i]? = some (some (old i))) ∧
        ∀ i, i < 24 → j.oldFlag i = .lost → 0 < A i → t.toChip.Evaluates (.codeEngine i) (A i) (i % 2))

/-- CODE_BLOCK_WRITE stores the block in the outgoing image, and with block 0 the summary word with the valid mark
clear; the next block, or the summary write, is asked for (R66, R67). CODE_SUMMARY_WRITE stores the summary and code
words and the slot is QUEUED (R58, R67). -/
def Obligations.CodeWritesStore : Prop :=
  ∀ (s : State) (j : CodeJob), s.ce.job = some (.code j) → s.mp.mayGrant .codeEngine = true → Memory.wf s.mem = true →
    let image := j.base + 0x040000 + 2048 * j.slot.val
    let x := s.toChip.slot j.slot
    (∀ ws, j.stage = .blockWrite ws → ws.length = 30 → j.block ≤ 15 →
      ∃ t, exec .codeBlockWrite s = .next t ∧
        Stored s.mem t.mem (placeWords (image + 4 * (30 * j.block)) (ws.map word) ++
          (if j.block = 0 then [(image + 4 * 510, word j.segment)] else [])) ∧
        t.toChip.Offers .codeEngine ∧
        (j.block < 15 → j.material ≠ .fill → t.ce.job =
          some (.code { j with block := j.block + 1, stage := .blockRead, old := [], new := [] })) ∧
        (j.block < 15 → j.material = .fill → ∃ next, isCodeword next = true ∧ t.ce.job =
          some (.code { j with block := j.block + 1, stage := .blockWrite next, old := [], new := [] })) ∧
        (j.block = 15 → t.ce.job = some (.code { j with stage := .summaryWrite })) ∧ t.ce.queue = s.ce.queue ∧
        t.slots = s.slots ∧ t.cu = s.cu ∧ t.rc = s.rc ∧ t.ecu = s.ecu ∧ t.dlc = s.dlc ∧ t.lbp = s.lbp ∧
        t.cpm = s.cpm) ∧
    (j.stage = .summaryWrite → ∃ t, exec .codeSummaryWrite s = .next t ∧
      Stored s.mem t.mem [(image + 4 * 510, word (j.segment + 0x80000000)),
        (image + 4 * 511, word (j.copyWord + 0x100 * j.clipCount + 0x20000 * j.underrunCount))] ∧ t.ce.job = none ∧
      (x.claimed = true → x.segment = j.segment → x.serial = j.serial → x.write = .coding →
        s.cpm.pendingMap = none →
        (t.toChip.slot j.slot).claimed = true ∧ (t.toChip.slot j.slot).segment = j.segment ∧
          (t.toChip.slot j.slot).serial = j.serial ∧ (t.toChip.slot j.slot).write = .queued) ∧
      ((x.claimed = false ∨ x.segment ≠ j.segment ∨ x.serial ≠ j.serial ∨ x.write ≠ .coding) →
        t.slots = s.slots ∧ t.rc = s.rc ∧ t.cpm = s.cpm ∧ t.dlc = s.dlc))

/-! ## Captures, saves and loads (chapters 8 and 9) -/

/-- CAPTURE_BLOCK_READ takes the stored values of a block, a LOST one by evaluation; CAPTURE_BLOCK_WRITE stores them in
the clip and goes to the next block or segment, or ends the capture: the clip READY and the request DONE
(R61, R154, R155). -/
def Obligations.CaptureCopiesBlocks : Prop :=
  ∀ (s : State) (c : Capture), s.ecu.capture = some c → s.mp.mayGrant .capture = true →
    let i := slotOf (c.first + c.segment)
    let value (k : Nat) : Nat := (Memory.readWord s.mem (playbackAddr c.base i (30 * c.block + k))).toNat
    let flag (k : Nat) : WordFlag := flagAt s.mem c.base i (30 * c.block + k)
    let A (k : Nat) : Nat := 192 * (c.first + c.segment) + 12 * c.block + k / 2
    let rest (t : State) := t.ecu = { s.ecu with capture := t.ecu.capture } ∧ t.slots = s.slots ∧ t.rc = s.rc ∧
      t.dlc = s.dlc ∧ t.lbp = s.lbp ∧ t.cpm = s.cpm ∧ t.ce = s.ce
    (c.stage = .reading → (∀ k, k < 24 → flag k ≠ .lost) →
      ∃ t, exec .captureBlockRead s = .next t ∧ rest t ∧ t.cu = s.cu ∧ t.toChip.Offers .capture ∧
        t.ecu.capture = some { c with stage := .writing, values := (List.range 24).map fun k => some (value k) }) ∧
    (c.stage = .reading → (∃ k, k < 24 ∧ flag k = .lost ∧ 0 < A k) →
      ∃ t c', exec .captureBlockRead s = .next t ∧ rest t ∧ t.ecu.capture = some c' ∧ c'.stage = .concealing ∧
        c'.id = c.id ∧ c'.block = c.block ∧ c'.segment = c.segment ∧
        (∀ k, k < 24 → flag k ≠ .lost → c'.values[k]? = some (some (value k))) ∧
        ∀ k, k < 24 → flag k = .lost → 0 < A k → t.toChip.Evaluates (.capture c.id k) (A k) (k % 2)) ∧
    (∀ vs : List Nat, c.stage = .writing → c.values = vs.map some → vs.length = 24 → c.block ≤ 15 →
      Memory.wf s.mem = true → s.cpm.pendingMap = none →
      ∃ t, exec .captureBlockWrite s = .next t ∧
        Stored s.mem t.mem (placeWords (clipAddr c.base c.clip c.segment (24 * c.block)) (vs.map word)) ∧
        (c.block < 15 → rest t ∧ t.cu = s.cu ∧ t.toChip.Offers .capture ∧
          t.ecu.capture = some { c with block := c.block + 1, stage := .reading, values := [] }) ∧
        (c.block = 15 → (t.toChip.slot i).pins = (s.toChip.slot i).pins - 1 ∨ (t.toChip.slot i).claimed = false ∨
          (s.toChip.slot i).serial < (t.toChip.slot i).serial) ∧
        (c.block = 15 → c.segment + 1 < c.count → t.toChip.Offers .capture ∧ t.ecu.capture =
          some { c with segment := c.segment + 1, block := 0, stage := .reading, values := [] }) ∧
        (c.block = 15 → c.count ≤ c.segment + 1 →
          (∀ r p a b n, s.rc.run = some r → r.params ≠ .edit p (some c.clip) a b n) →
          t.ecu.capture = none ∧ t.ecu.clips[c.clip] = { s.ecu.clips[c.clip] with
            state := .ready, length := c.count, grade := some c.grade, singleUse := c.grade == .none } ∧
          ∀ q, s.cpm.request = some q → t.cpm.request = some { q with reported := true } ∧
            ∃ id, t.toChip.Offers (.result id ⟨q.tag, .done, c.count + 256 * c.grade.code⟩ (some q.id))))

/-- SAVE_TAKE begins the first save of the queue; SAVE_BLOCK_READ and SAVE_BLOCK_WRITE copy a block into the undo image,
LOST words by evaluation; after block 15 the image record is set; SAVE_CLOSING_WRITE stores the summary and the saved
copy word (its source and refused bits 0 by log 20), pushes the SEG entry, the oldest whole run dropped and its images
freed where 2 words are not free, and ends the save (R57, R161 to R165). The private base is the one held at SAVE_TAKE
(log 22). -/
def Obligations.SavesCopyTheSegment : Prop :=
  (∀ (s : State) (v : Save) (queue : List Save), s.ecu.saving = none → s.ecu.saves = v :: queue →
    ∃ t, exec .saveTake s = .next t ∧ t.toChip.Offers .save ∧
      t.ecu = { s.ecu with
        saves := queue, saving := some ⟨v, s.cpm.map.privateBase, 0, .reading, [], false, false⟩ } ∧
      t.slots = s.slots ∧ t.ce = s.ce ∧ t.cu = s.cu ∧ t.rc = s.rc ∧ t.dlc = s.dlc ∧ t.lbp = s.lbp ∧
      t.cpm = s.cpm) ∧
  ∀ (s : State) (j : SaveJob), s.ecu.saving = some j → j.void = false → s.mp.mayGrant .save = true →
    let i := j.save.slot
    let value (k : Nat) : Nat := (Memory.readWord s.mem (playbackAddr j.base i (30 * j.block + k))).toNat
    let flag (k : Nat) : WordFlag := flagAt s.mem j.base i (30 * j.block + k)
    let A (k : Nat) : Nat := 192 * j.save.segment + 12 * j.block + k / 2
    let rest (t : State) := t.rc = s.rc ∧ t.dlc = s.dlc ∧ t.lbp = s.lbp ∧ t.cpm = s.cpm
    let r := (s.toChip.slot i).recovered
    (j.stage = .reading → (∀ k, k < 24 → flag k ≠ .lost) →
      ∃ t, exec .saveBlockRead s = .next t ∧ rest t ∧ t.slots = s.slots ∧ t.ce = s.ce ∧ t.cu = s.cu ∧
        t.toChip.Offers .save ∧ t.ecu = { s.ecu with
          saving := some { j with stage := .writing, values := (List.range 24).map fun k => some (value k) } }) ∧
    (j.stage = .reading → (∃ k, k < 24 ∧ flag k = .lost ∧ 0 < A k) →
      ∃ t j', exec .saveBlockRead s = .next t ∧ rest t ∧ t.slots = s.slots ∧ t.ce = s.ce ∧
        t.ecu = { s.ecu with saving := some j' } ∧ j'.save = j.save ∧ j'.block = j.block ∧ j'.stage = .concealing ∧
        j'.concealed = true ∧ (∀ k, k < 24 → flag k ≠ .lost → j'.values[k]? = some (some (value k))) ∧
        ∀ k, k < 24 → flag k = .lost → 0 < A k → t.toChip.Evaluates (.save k) (A k) (k % 2)) ∧
    (∀ vs : List Nat, j.stage = .writing → j.values = vs.map some → vs.length = 24 → j.block ≤ 15 →
      Memory.wf s.mem = true →
      ∃ t, exec .saveBlockWrite s = .next t ∧ rest t ∧ t.slots = s.slots ∧ t.ce = s.ce ∧ t.cu = s.cu ∧
        Stored s.mem t.mem (placeWords (undoAddr j.base j.save.image (30 * j.block)) (vs.map word)) ∧
        t.toChip.Offers .save ∧
        (j.block < 15 → t.ecu = { s.ecu with
          saving := some { j with block := j.block + 1, stage := .reading, values := [] } }) ∧
        (j.block = 15 → t.ecu.saving = some { j with stage := .closing } ∧ t.ecu.stack = s.ecu.stack ∧
          t.ecu.images[j.save.image] = {
            used := true, segment := j.save.segment, grade := r.grade, unrecovered := r == .unrecovered
            baked := j.concealed || r.baked, marker := r.marker } ∧
          ∀ u : Fin 256, u ≠ j.save.image → t.ecu.images[u] = s.ecu.images[u])) ∧
    (j.stage = .closing → Memory.wf s.mem = true →
      let image := s.ecu.images[j.save.image]
      ∃ t, exec .saveClosingWrite s = .next t ∧ rest t ∧ t.cu = s.cu ∧
        Stored s.mem t.mem [(undoAddr j.base j.save.image 510, word (j.save.segment + 0x80000000)),
          (undoAddr j.base j.save.image 511, word (savedCopyWord image))] ∧ t.ecu.saving = none ∧
        t.ecu.segCount = s.ecu.segCount + 1 ∧ t.ecu.stack.getLast? = some (.seg j.save.segment j.save.image) ∧
        (stackDepth s.ecu.stack + 2 ≤ 1024 → t.ecu.images = s.ecu.images ∧ t.ecu.bottom = s.ecu.bottom ∧
          t.ecu.stack = s.ecu.stack ++ [.seg j.save.segment j.save.image] ∧
          t.toChip.Offers (mirrorWrite s.cpm.map.privateBase (s.ecu.bottom + stackDepth s.ecu.stack)
            (segWords j.save.segment j.save.image))) ∧
        (∀ oldest rest, OldestRun s.ecu.stack oldest rest → stackDepth s.ecu.stack ≤ 1024 →
          1024 < stackDepth s.ecu.stack + 2 →
          t.ecu.stack = rest ++ [.seg j.save.segment j.save.image] ∧
          t.ecu.bottom = (s.ecu.bottom + stackDepth oldest + 4) % 1024 ∧
          s.toChip.RemovalMirrored t.toChip 0 oldest.length ∧
          t.toChip.Offers (mirrorWrite s.cpm.map.privateBase (s.ecu.bottom + stackDepth s.ecu.stack)
            (segWords j.save.segment j.save.image)) ∧
          (∀ t' u, .seg t' u ∈ oldest → (t.ecu.images[u]).used = false) ∧
          ∀ u : Fin 256, (∀ t', .seg t' u ∉ oldest) → t.ecu.images[u] = s.ecu.images[u]) ∧
        ((∃ r, s.rc.run = some r ∧ r.kind = .edit) → (s.toChip.slot i).claimed = true →
          (s.toChip.slot i).write = .closed → (s.toChip.slot i).play = .ready →
          ∃ e ∈ t.ce.queue, e.item.codes i = true) ∧
        t.toChip.slot i = { s.toChip.slot i with undoSave := .ended } ∧ Chip.SameSlotsBut i s.toChip t.toChip)

/-- LOAD_BLOCK_READ takes a block of the undo image and LOAD_BLOCK_WRITE stores it in the outgoing image; after block 15
the load is over and a CLOSED slot of a REVERT run has its code item queued (R57, R169). STACK_MIRROR_WRITE stores its
words and changes nothing else (R161). -/
def Obligations.LoadsAndMirrorStore : Prop :=
  (∀ (s : State) (i : Fin 128) (l : Load), s.toChip.loadOf i = some l → s.mp.mayGrant (.load i) = true →
    let rest (t : State) := t.rc = s.rc ∧ t.dlc = s.dlc ∧ t.lbp = s.lbp ∧ t.cpm = s.cpm ∧ t.cu = s.cu ∧
      t.slots = s.slots ∧ t.ecu = { s.ecu with loads := t.ecu.loads }
    (l.values = none → ∃ t, exec (.loadBlockRead i) s = .next t ∧ rest t ∧ t.ce = s.ce ∧
      t.toChip.Offers (.load i) ∧ t.toChip.loadOf i = some { l with
        values := some ((List.range 24).map fun k =>
          Memory.readWord s.mem (l.base + 0x100000 + 2048 * l.image.val + 4 * (30 * l.block + k))) }) ∧
    (∀ ws, l.values = some ws → l.block ≤ 15 → Memory.wf s.mem = true →
      ∃ t, exec (.loadBlockWrite i) s = .next t ∧ rest t ∧
        Stored s.mem t.mem (placeWords (l.base + 0x040000 + 2048 * i.val + 4 * (30 * l.block)) ws) ∧
        (l.block < 15 → t.ce = s.ce ∧ t.toChip.Offers (.load i) ∧
          t.toChip.loadOf i = some { l with block := l.block + 1, values := none }) ∧
        (l.block = 15 → t.toChip.loadOf i = none ∧ ∀ r, s.rc.run = some r → r.kind = .revert →
          (s.toChip.slot i).claimed = true → (s.toChip.slot i).write = .closed →
          ∃ e ∈ t.ce.queue, e.item.codes i = true))) ∧
  ∀ (s : State) (ws : List (Nat × Word)), s.mp.mirrorFront = some (.mirror ws) →
    s.mp.mayGrant (.mirror ws) = true → Memory.wf s.mem = true → Apart ws →
    ∃ t, exec .stackMirrorWrite s = .next t ∧ Stored s.mem t.mem ws ∧ t.cpm = s.cpm ∧ t.lbp = s.lbp ∧
      t.dlc = s.dlc ∧ Chip.SameTape s.toChip t.toChip

/-! ## The writes of CPM (R32, R35, R37) -/

/-- RESULT_WRITE stores the tag, the outcome and the detail, and a final result ends its request. STATUS_WRITE stores
every dirty word with the value held, and empties the set. NOTICE_WRITE stores the entry and the write index, publishes
the index, and NOTICE follows (R29, R32, R35, R37, R38). -/
def Obligations.CpmWritesReachMemory : Prop :=
  ∀ (s : State) (r : Req) (stamp : Nat) (rest : List Offer), s.mp.queues[(6 : Fin 7)] = ⟨r, stamp⟩ :: rest →
    s.mp.mayGrant r = true → Memory.wf s.mem = true →
    let same (t : State) := Chip.SameTape s.toChip t.toChip ∧ t.dlc = s.dlc ∧ t.lbp.posted = s.lbp.posted ∧
      t.lbp.responses = s.lbp.responses ∧
      ∀ e, (∀ rd, s.toChip.read e = some rd → rd.state ≠ .waiting) → t.toChip.read e = s.toChip.read e
    (∀ id result closes, r = .result id result closes → ∃ t, exec .resultWrite s = .next t ∧ same t ∧
      Stored s.mem t.mem (placeWords 0x0A0
        [word (result.tag + 256 * result.outcome.code), word result.detail, 0, 0, 0, 0, 0, 0]) ∧
      t.cpm = { s.cpm with request := t.cpm.request } ∧
      (closes = none → t.cpm.request = s.cpm.request) ∧
      ∀ q, s.cpm.request = some q → (closes = some q.id → t.cpm.request = none) ∧
        (closes ≠ some q.id → t.cpm.request = some q)) ∧
    (∀ id, r = .status id → ∃ t, exec .statusWrite s = .next t ∧ same t ∧
      Stored s.mem t.mem ((s.cpm.dirty.map fun i => (0x160 + 4 * i, s.cpm.statusHeld.getD i 0)) ++
        (if s.cpm.indexDue then [(0x140, 0)] else [])) ∧
      t.cpm = { s.cpm with dirty := [], statusOffered := none, indexDue := false }) ∧
    (∀ id index a b, r = .notice id index a b → ∃ t, exec .noticeWrite s = .next t ∧ same t ∧
      Stored s.mem t.mem [(0x800 + 8 * index, a), (0x800 + 8 * index + 4, b), (0x140, word ((index + 1) % 64))] ∧
      t.cpm = { s.cpm with
        publishedIndex := (index + 1) % 64, notice := (index + 1) % 64 != s.cpm.readIndex })

/-! ## The drum link (chapter 5, R110 to R118) -/

/-- OPENED_RECEIVED while OPENING brings the link UP with a GRANT of 32 credits the only frame waiting (R85, R103; what
waited before is dropped: log 15). CLEAR_RECEIVED in UP or FAILED aborts a run in progress (R120, R121) and leaves the
link OPENING with an OPEN the only frame waiting (R84, R86, R103). -/
def Obligations.LinkOpensAndClears : Prop :=
  ∀ (s : State) (bytes : List Byte),
    let fresh (t : State) := t.dlc.sendSeq = 0 ∧ t.dlc.recvSeq = 0 ∧ t.dlc.writeCredits = 0 ∧ t.dlc.retention = [] ∧
      t.dlc.retryCount = 0 ∧ t.dlc.recvWindow = 0 ∧ t.dlc.outstanding = 0 ∧ t.dlc.released = 32 ∧
      t.dlc.staging = [] ∧ t.dlc.ackTimer = none ∧ t.dlc.creditTimer = none ∧ t.dlc.sent = s.dlc.sent
    (receive bytes = .frame .opened → s.dlc.linkState = .opening →
      ∃ t, exec (.openedReceived bytes) s = .next t ∧ fresh t ∧ t.dlc.linkState = .up ∧
        t.dlc.lane.map LaneEntry.frame = [.grant] ∧ t.dlc.openTimer = none ∧
        (s.cpm.partState = .ready → s.toChip.RingRoom → s.toChip.Raises t.toChip .linkUp) ∧
        Cpm.SameButReports s.cpm t.cpm ∧ Chip.SameTape s.toChip t.toChip ∧ t.lbp = s.lbp) ∧
    (receive bytes = .frame .clearLink → (s.dlc.linkState = .up ∨ s.dlc.linkState = .failed) →
      ∃ t, exec (.clearReceived bytes) s = .next t ∧ fresh t ∧ t.dlc.linkState = .opening ∧
        t.dlc.lane.map LaneEntry.frame = [.openLink] ∧ t.dlc.openTimer = some t.cpm.link.openRetry ∧
        t.dlc.fetch = none ∧ ((s.rc.state ≠ .idle → s.rc.run.isSome = true) → t.rc.state = .idle) ∧
        (∀ r, s.rc.run = some r → s.rc.state ≠ .idle → s.toChip.Aborts t.toChip r ∧
          (s.cpm.partState = .ready → s.toChip.RoomAfterReleases 2 →
            s.toChip.Raises t.toChip (.linkCleared false s.dlc.linkState true))) ∧
        (s.rc.state = .idle → s.cpm.partState = .ready → s.toChip.RingRoom →
          s.toChip.Raises t.toChip (.linkCleared false s.dlc.linkState false)) ∧
        ∀ c, t.toChip.counter c = s.toChip.counter c)

/-- PLAY_ROW_RECEIVED in UP: counted; a duplicate hands a GRANT; a new one, under an outstanding credit, enters the
staging FIFO, or returns the credit if it is malformed, and moves the receive seq past every row received, or is marked
in the window with a MISSING for the gap (R96, R97). One with no credit outstanding is dropped, and keeps the flag of its
seq in a waiting MISSING (log 45). -/
def Obligations.PlayRowReceived : Prop :=
  ∀ (s : State) (bytes : List Byte) (seq : BitVec 3) (t24 : BitVec 24) (row5 : BitVec 5) (void : Bool)
    (mask : BitVec 16) (words : List Word), receive bytes = .frame (.playRow seq t24 row5 void mask words) →
    s.dlc.linkState = .up →
    let gap := (seq - s.dlc.recvSeq).toNat
    let duplicate := gap = 7 ∨ (1 ≤ gap ∧ s.dlc.recvWindow.getLsbD seq.toNat = true)
    let malformed := 29 < row5.toNat ∨ 16777212 < t24.toNat
    let row : StagedRow := ⟨t24.toNat, row5.toNat, void, mask, words⟩
    let seen (q : BitVec 3) : Bool := s.dlc.recvWindow.getLsbD q.toNat
    let common (t : State) := exec (.playRowReceived bytes) s = .next t ∧
      s.toChip.Counted t.toChip .rowsReceived 1 ∧ Cpm.SameButCounters s.cpm t.cpm ∧ t.lbp = s.lbp ∧
      Chip.SameTape s.toChip t.toChip
    (duplicate → ∃ t, common t ∧ .grant ∈ t.dlc.lane.map LaneEntry.frame ∧
      t.dlc = { s.dlc with lane := t.dlc.lane }) ∧
    (¬duplicate → s.dlc.outstanding = 0 → ∃ t, common t ∧ t.dlc = s.dlc) ∧
    (¬duplicate → 0 < s.dlc.outstanding → ∃ t, common t ∧ t.dlc.outstanding = s.dlc.outstanding - 1 ∧
      (malformed → t.dlc.staging = s.dlc.staging ∧ t.dlc.released = s.dlc.released + 1) ∧
      (¬malformed → t.dlc.staging = s.dlc.staging ++ [row] ∧ t.dlc.released = s.dlc.released ∧
        (s.dlc.staging = [] → t.toChip.Offers .staging)) ∧
      (gap = 0 → ∃ k : Nat, k ≤ 7 ∧ t.dlc.recvSeq = s.dlc.recvSeq + 1 + BitVec.ofNat 3 k ∧
        (∀ x : Nat, x < k → seen (s.dlc.recvSeq + 1 + BitVec.ofNat 3 x) = true) ∧
        (k < 7 → seen t.dlc.recvSeq = false) ∧
        ∀ q : BitVec 3, t.dlc.recvWindow.getLsbD q.toNat =
          (seen q && !(List.range k).any fun x => q == s.dlc.recvSeq + 1 + BitVec.ofNat 3 x)) ∧
      (gap ≠ 0 → t.dlc.recvSeq = s.dlc.recvSeq ∧
        (∀ q : BitVec 3, t.dlc.recvWindow.getLsbD q.toNat = (seen q || q == seq)) ∧
        ∃ f, .missing f ∈ t.dlc.lane.map LaneEntry.frame ∧
          ∀ k : Nat, k < gap → seen (s.dlc.recvSeq + BitVec.ofNat 3 k) = false →
            f.getLsbD (s.dlc.recvSeq + BitVec.ofNat 3 k).toNat = true) ∧
      (∀ f, .missing f ∈ t.dlc.lane.map LaneEntry.frame → f.getLsbD seq.toNat = false) ∧
      t.dlc = { s.dlc with
        outstanding := t.dlc.outstanding, released := t.dlc.released, staging := t.dlc.staging
        recvSeq := t.dlc.recvSeq, recvWindow := t.dlc.recvWindow, lane := t.dlc.lane })

/-- GRANT_RECEIVED in UP adds its credits up to 32; a next-expected seq within the retention queue acknowledges the rows
before it, whose slots note them (R58, R91). The last row of a segment makes its slot DONE: a RECORD or REVERT slot is
released, and a RECORD slot claimed for its next position, FILLING or, at or below the due horizon, closed as FILL (R48,
R50, R114). The last DONE of an ACTIVE run ends it COMPLETE (R112, R151, R171) as R120 and R159 have it; a REVERT with
every entry restored pops the stack (R171). MISSING_RECEIVED hands again each flagged live row that does not wait, and
counts it (R92). -/
def Obligations.GrantAndMissingReceived : Prop :=
  ∀ (s : State) (bytes : List Byte), s.dlc.linkState = .up →
    (∀ next credits, receive bytes = .frame (.grant next credits) →
      let base := match s.dlc.retention with
        | [] => s.dlc.sendSeq
        | e :: _ => e.seq
      let d := (next - base).toNat
      ∃ t, exec (.grantReceived bytes) s = .next t ∧
        t.dlc.writeCredits = min 32 (s.dlc.writeCredits + credits.toNat) ∧ t.dlc.sendSeq = s.dlc.sendSeq ∧
        t.dlc.staging = s.dlc.staging ∧ t.dlc.outstanding = s.dlc.outstanding ∧ t.dlc.linkState = .up ∧
        ((d = 0 ∨ s.dlc.retention.length < d) → t.dlc.retention = s.dlc.retention ∧
          t.dlc.retryCount = s.dlc.retryCount ∧ t.dlc.ackTimer = s.dlc.ackTimer) ∧
        (1 ≤ d → d ≤ s.dlc.retention.length → t.dlc.retention = s.dlc.retention.drop d ∧ t.dlc.retryCount = 0 ∧
          t.dlc.ackTimer = (if s.dlc.retention.length = d then none else some s.cpm.link.ackTimeout) ∧
          (∀ e ∈ s.dlc.retention.take d, ∀ x ∈ t.dlc.lane, x.frame.isRow e.seq = false) ∧
          ∀ e ∈ s.dlc.retention.take d, e.words.isSome = true → e.row < 30 →
            (s.toChip.slot e.slot).holds e.segment = true → (s.toChip.slot e.slot).serial = e.serial →
            (s.toChip.slot e.slot).write = .sending →
            (t.toChip.slot e.slot).rowsAcked.getLsbD e.row = true ∨ (t.toChip.slot e.slot).claimed = false ∨
              e.serial < (t.toChip.slot e.slot).serial) ∧
        ∀ e rest r, d = 1 → s.dlc.retention = e :: rest → e.words.isSome = true → s.rc.run = some r →
          s.cpm.pendingMap = none →
          let x := s.toChip.slot e.slot
          x.holds e.segment = true → x.serial = e.serial → x.write = .sending →
          x.rowsAcked ||| BitVec.ofNat 30 (2 ^ e.row) = BitVec.allOnes 30 →
          let y := t.toChip.slot e.slot
          let q := x.nextPosition
          ∃ r', t.rc.run = some r' ∧ r'.doneCount = r.doneCount + 1 ∧
            (s.toChip.ClaimsSettled r → r'.settledCount =
              (if r.kind = .edit ∨ r.kind = .revert then r.settledCount + 1 else r.settledCount)) ∧
            -- the slot
            (r.kind = .edit → (x.play ≠ .empty ∨ s.rc.state ≠ .draining) →
              (x.play ≠ .ready ∨ x.consumed = false ∨ x.pins ≠ 0) →
              y = { x with write := .done, rowsAcked := BitVec.allOnes 30 }) ∧
            ((r.kind = .record ∨ r.kind = .revert) → y.claimed = false ∨ x.serial < y.serial) ∧
            (r.kind = .record → s.rc.state = .active → r.backward = false → q < r.length →
              slotOf (r.t0 + q) = e.slot → r.doneCount + 1 ≠ r.length →
              (∀ j, j ≠ e.slot → (s.toChip.slot j).claimed = true ∧ q < (s.toChip.slot j).position + 256) →
              y.claimed = true ∧ y.segment = r.t0 + q ∧ y.position = q ∧ y.serial = x.serial + 1 ∧
              ((r.dueHorizon = none ∨ ∃ h, r.dueHorizon = some h ∧ h < q) →
                y.write = .filling ∧ y.material = .live ∧ y.underrunCount = 0) ∧
              (∀ h, r.dueHorizon = some h → q ≤ h → y.write = .closed ∧ y.material = .fill ∧ y.underrunCount = 384 ∧
                t.toChip.counter .underrun = min Config.counterMax (s.toChip.counter .underrun + 1) ∧
                ∃ a ∈ t.ce.queue, a.item.codes e.slot = true)) ∧
            -- the run
            (s.rc.state = .idle → t.rc.state = .idle) ∧
            (s.rc.state = .active → r.kind = .record →
              t.rc.state = (if r.doneCount + 1 = r.length then .idle else .active)) ∧
            (∀ p clip qa qb n, s.rc.state = .active → r.kind = .edit → r.params = .edit p clip qa qb n →
              t.rc.state = (if r.readyCount = r.length ∧ r'.settledCount = n then .idle else .active) ∧
              (t.rc.state = .idle → s.toChip.EditEnds t.toChip r clip qa (r.doneCount + 1))) ∧
            (∀ tag place n, s.rc.state = .active → r.kind = .revert → r.params = .revert tag place n →
              t.rc.state = (if r'.settledCount = n then .idle else .active) ∧
              ((t.rc.state = .active ∨ r.doneCount + 1 ≠ n) → t.ecu.stack = s.ecu.stack) ∧
              (t.rc.state = .idle → r.doneCount + 1 = n →
                ∀ (below : List StackEntry) (segs : List (Nat × Fin 256)) tag' first count partialMark,
                s.ecu.stack = below ++ segs.map (fun z => .seg z.1 z.2) ++ [.run tag' first count partialMark] →
                segs.length = n → t.ecu.stack = below ∧ (∀ z ∈ segs, (t.ecu.images[z.2]).used = false) ∧
                  s.toChip.RemovalMirrored t.toChip (stackDepth below) n)) ∧
            (s.rc.state = .active → t.rc.state = .idle →
              r'.endCause = .complete ∧ s.toChip.PendingApplied t.toChip ∧
              (r.kind = .record → t.ecu.stack = s.ecu.stack ∧ t.ecu.clips = s.ecu.clips) ∧
              (s.cpm.partState = .ready → s.toChip.RoomAfterReleases 1 → s.toChip.ClaimsSettled r →
                s.toChip.Raises t.toChip (.runEnd r.tag .complete r.kind (match r.params with
                  | .revert _ _ n => r.kind == .revert && r.doneCount + 1 == n
                  | _ => r.kind == .revert && r.doneCount + 1 == 0))))) ∧
    (∀ flags, receive bytes = .frame (.missing flags) → CountersBounded s.toChip →
      (s.dlc.retention.map Retained.seq).Nodup →
      let again := s.dlc.retention.filter fun e =>
        flags.getLsbD e.seq.toNat && e.words.isSome && !(s.dlc.lane.any fun x => x.frame.isRow e.seq)
      ∃ t, exec (.missingReceived bytes) s = .next t ∧
        t.dlc.lane.map LaneEntry.frame = s.dlc.lane.map LaneEntry.frame ++
          again.map (fun e => .row e.seq e.segment e.row (e.words.getD [])) ∧
        t.dlc = { s.dlc with lane := t.dlc.lane } ∧ s.toChip.Counted t.toChip .resends again.length ∧
        Cpm.SameButCounters s.cpm t.cpm ∧ t.lbp = s.lbp ∧ Chip.SameTape s.toChip t.toChip)

/-- DUE_RECEIVED in UP: nothing outside an ACTIVE run that writes (R110); in a RECORD run it closes its FILLING slot
with UNDERRUN (R56, R113); in an EDIT run it closes a FILLING slot whose play side is READY, breaks a FILLING or
CLOSED one whose play side is not, and else changes nothing (R56, R142); an IDLE write side of an EDIT or REVERT run
gets an OMIT (R142, R170). It is stray for a segment outside the run, one released, and one not claimed yet, which
raises the due horizon (R113, R142, R170). A claim at or below the horizon is closed as FILL in a RECORD run, broken
in an EDIT run's span, discarded and released in a REVERT run (R114, R143, R170); its EDIT_BROKEN carries the play and
write state of the claim (log 24). -/
def Obligations.DueReceived : Prop :=
  (∀ (s : State) (bytes : List Byte) (t24 : BitVec 24), receive bytes = .frame (.due t24) → s.dlc.linkState = .up →
    let segment := t24.toNat
    let i := slotOf segment
    let x := s.toChip.slot i
    let omitted (t : State) := ∃ e ∈ t.dlc.lane, e.frame = .omitSegment segment
    ((s.rc.run = none ∨ s.rc.state ≠ .active ∨ ∃ r, s.rc.run = some r ∧ r.kind = .play) →
      ∃ t, exec (.dueReceived bytes) s = .next t ∧ t.toChip = { s.toChip with event := s.event + 1 }) ∧
    (∀ r, s.rc = ⟨.active, some r⟩ → r.kind ≠ .play → r.backward = false → s.cpm.partState = .ready →
      s.cpm.pendingMap = none →
      ((segment < r.t0 ∨ r.t0 + r.length ≤ segment) → s.toChip.RingRoom →
        ∃ t, exec (.dueReceived bytes) s = .next t ∧ s.toChip.Raises t.toChip (.dueStray segment 0)) ∧
      (x.holds segment = false → r.t0 ≤ segment → segment < r.t0 + r.length → s.toChip.RingRoom →
        let q := segment - r.t0
        let next := if x.claimed then x.position else x.nextPosition
        ∃ t r', exec (.dueReceived bytes) s = .next t ∧ t.rc.run = some r' ∧
          (q < next → s.toChip.Raises t.toChip (.dueStray segment 2) ∧ r'.dueHorizon = r.dueHorizon) ∧
          (next ≤ q → s.toChip.Raises t.toChip (.dueStray segment 1) ∧
            r'.dueHorizon = some (match r.dueHorizon with
              | none => q
              | some h => max h q))) ∧
      (x.claimed = true → x.segment = segment → r.t0 ≤ segment → segment < r.t0 + r.length →
        (r.kind = .record → x.write = .filling →
          ∃ t, exec (.dueReceived bytes) s = .next t ∧ (t.toChip.slot i).claimed = true ∧
            (t.toChip.slot i).segment = segment ∧ (t.toChip.slot i).serial = x.serial ∧
            (t.toChip.slot i).write = .closed ∧
            (t.toChip.slot i).underrunCount = x.underrunCount +
              (List.range 384).countP (fun k => !(x.written.getLsbD k)) ∧
            (t.toChip.slot i).material = (if x.written = 0 then .fill else x.material) ∧
            min Config.counterMax (s.toChip.counter .underrun + 1) ≤ t.toChip.counter .underrun ∧
            ∃ e ∈ t.ce.queue, e.item.codes i = true) ∧
        (r.kind = .edit → (x.write = .filling ∨ x.write = .closed) → x.play ≠ .ready →
          ∃ t, exec (.dueReceived bytes) s = .next t ∧ omitted t ∧
            (s.toChip.RingRoom → s.toChip.Raises t.toChip (.editBroken segment x.play x.write false)) ∧
            ((t.toChip.slot i).claimed = false ∨ (t.toChip.slot i).write = .idle ∨
              x.serial < (t.toChip.slot i).serial) ∧
            ∃ r', t.rc.run = some r' ∧ r.settledCount + 1 ≤ r'.settledCount) ∧
        (∀ p clip qa qb n, r.kind = .edit → r.params = .edit p clip qa qb n → x.write = .filling → x.play = .ready →
          ∃ t, exec (.dueReceived bytes) s = .next t ∧
            t.toChip.slot i = { x with
              write := .closed
              underrunCount := x.underrunCount + (List.range 384).countP (fun k =>
                p.pin ≤ 192 * segment + k / 2 && 192 * segment + k / 2 < p.pout + 2 ^ p.f &&
                  !(x.written.getLsbD k)) } ∧
            min Config.counterMax (s.toChip.counter .underrun + 1) ≤ t.toChip.counter .underrun ∧
            (x.undoSave ≠ .inProgress → ∃ e ∈ t.ce.queue, e.item.codes i = true)) ∧
        (r.kind = .edit → ((x.write = .closed ∧ x.play = .ready) ∨ x.write = .coding ∨ x.write = .queued ∨
            x.write = .sending ∨ x.write = .done) →
          ∃ t, exec (.dueReceived bytes) s = .next t ∧ t.toChip.slot i = x) ∧
        (((r.kind = .record ∧ x.write ≠ .filling) ∨ (r.kind = .revert ∧ x.write ≠ .idle)) →
          ∃ t, exec (.dueReceived bytes) s = .next t ∧ t.toChip.slot i = x) ∧
        ((r.kind = .edit ∨ r.kind = .revert) → x.write = .idle →
          ∃ t, exec (.dueReceived bytes) s = .next t ∧ omitted t)))) ∧
  ∀ (p : Chip) (r : RunRecord) (q h : Nat), p.rc.run = some r → r.dueHorizon = some h → q ≤ h →
    let segment := if r.backward then r.t0 - q else r.t0 + q
    let i := slotOf segment
    (p.slot i).claimed = false →
    let c := p.claim q
    let y := c.slot i
    let omitted := p.dlc.linkState = .up → ∃ e ∈ c.dlc.lane, e.frame = .omitSegment segment
    Chip.SameSlotsBut i p c ∧
    (r.kind = .record → y.claimed = true ∧ y.segment = segment ∧ y.position = q ∧ y.write = .closed ∧
      y.material = .fill ∧ y.underrunCount = 384 ∧ p.Counted c .underrun 1 ∧
      ∃ e ∈ c.ce.queue, e.item.codes i = true) ∧
    (∀ x clip qa qb n, r.kind = .edit → r.params = .edit x clip qa qb n →
      y.claimed = true ∧ y.segment = segment ∧ y.position = q ∧ y.write = .idle ∧
      (¬(qa ≤ q ∧ q ≤ qb) → c.rc = p.rc ∧ c.dlc = p.dlc ∧ c.cpm = p.cpm) ∧
      (qa ≤ q → q ≤ qb → omitted ∧ c.rc = { p.rc with run := some { r with settledCount := r.settledCount + 1 } } ∧
        (p.cpm.partState = .ready → p.RingRoom → p.Raises c
          (.editBroken segment y.play (if clip = none then .filling else .closed) true)))) ∧
    (∀ tag place n, r.kind = .revert → r.params = .revert tag place n →
      ((∃ u, .seg segment u ∈ (p.ecu.stack.drop place).take n) → y.claimed = false ∧ omitted ∧ c.loadOf i = none ∧
        ∃ r', c.rc.run = some r' ∧ r'.settledCount = r.settledCount + 1) ∧
      ((∀ u, .seg segment u ∉ (p.ecu.stack.drop place).take n) →
        y.claimed = true ∧ y.segment = segment ∧ y.position = q ∧ y.write = .idle ∧ c.rc = p.rc ∧ c.dlc = p.dlc))

/-- A frame with a bad CRC or length is dropped and, but in DOWN, counted (R81, R84); a frame its link state does not
take changes nothing (R83). FRAME_LEAVES puts out the bytes of the frame at the front, or of the second of a GRANT and a
MISSING handed together; a GRANT with the fields it takes as it leaves (R82, R99, R187, log 35). -/
def Obligations.FramesDroppedAndSent : Prop :=
  ∀ (s : State) (bytes : List Byte),
    (receive bytes = .bad → ∃ t, exec (.badCrcFrame bytes) s = .next t ∧
      (s.dlc.linkState ≠ .down → s.toChip.Counted t.toChip .badCrcRows 1) ∧
      (s.dlc.linkState = .down → ∀ c, t.toChip.counter c = s.toChip.counter c) ∧
      Cpm.SameButCounters s.cpm t.cpm ∧ t.dlc = s.dlc ∧ t.lbp = s.lbp ∧ Chip.SameTape s.toChip t.toChip) ∧
    (receive bytes ≠ .bad →
      (s.dlc.linkState = .down ∨ (s.dlc.linkState = .opening ∧ receive bytes ≠ .frame .opened) ∨
        (s.dlc.linkState = .failed ∧ receive bytes ≠ .frame .clearLink) ∨
        (s.dlc.linkState = .up ∧ (receive bytes = .unknownKind ∨ receive bytes = .frame .opened ∨
          receive bytes = .frame .openLink ∨ (∃ x, receive bytes = .frame (.omitSegment x)) ∨
          ∃ q x r ws, receive bytes = .frame (.writeRow q x r ws)))) →
      ∃ t, exec (.droppedFrame bytes) s = .next t ∧ t.toChip = { s.toChip with event := s.event + 1 }) ∧
    (∀ (second : Bool) (f : LaneFrame) (stamp : Nat) (rest : List LaneEntry),
      ((second = false ∧ s.dlc.lane = ⟨f, stamp⟩ :: rest) ∨
        (second = true ∧ (f = .grant ∨ ∃ flags, f = .missing flags) ∧ ∃ g tail, rest = ⟨g, stamp⟩ :: tail ∧
          (g = .grant ∨ ∃ flags, g = .missing flags) ∧ s.dlc.lane = ⟨g, stamp⟩ :: ⟨f, stamp⟩ :: tail)) →
      let sends (t : State) (x : Frame) := t.dlc.sent = s.dlc.sent ++ [x.bytes] ∧
        t.dlc = { s.dlc with lane := rest, sent := t.dlc.sent }
      ∃ t, exec (.frameLeaves second) s = .next t ∧ t.cpm = s.cpm ∧ t.lbp = s.lbp ∧ t.mp = s.mp ∧
        Chip.SameTape s.toChip t.toChip ∧
        (f = .grant → t.dlc = { s.dlc with
          lane := rest
          sent := s.dlc.sent ++ [(Frame.grant s.dlc.recvSeq (BitVec.ofNat 6 s.dlc.released)).bytes]
          outstanding := s.dlc.outstanding + s.dlc.released, released := 0
          creditTimer := some s.cpm.link.creditInterval }) ∧
        (∀ flags, f = .missing flags → flags ≠ 0 → sends t (.missing flags)) ∧
        (f = .missing 0 → t.dlc = { s.dlc with lane := rest }) ∧
        (∀ seq segment row words, f = .row seq segment row words →
          sends t (.writeRow seq (BitVec.ofNat 24 segment) (BitVec.ofNat 5 row) words)) ∧
        (f = .openLink → sends t .openLink) ∧ (f = .clearLink → sends t .clearLink) ∧
        ∀ segment, f = .omitSegment segment → sends t (.omitSegment (BitVec.ofNat 24 segment)))

/-- The four link and run timers at their end: OPEN again (R84); every live row again under a new acknowledgement timer,
or, at the retry limit, the link FAILED and a run in progress aborted (R88, R93, R103, R121); a GRANT (R99); the SENDING
write sides given up, each that is owed rows with an OMIT in run order, and the run STOPPED if nothing of it is left to
wait for, the STOP answered with its OMIT count (R94, R118 to R120). A count above a limit lowered since fails the link
too (log 38); FAILED keeps the PLAY credits (log 41). -/
def Obligations.TimersExpire : Prop :=
  ∀ s : State,
    let frames (t : State) := t.dlc.lane.map LaneEntry.frame
    let quiet (t : State) := t.cpm = s.cpm ∧ t.lbp = s.lbp ∧ t.mp = s.mp ∧ Chip.SameTape s.toChip t.toChip
    (s.dlc.linkState = .opening → s.dlc.openTimer = some 0 → ∃ t, exec .openRetryExpiry s = .next t ∧ quiet t ∧
      frames t = (if .openLink ∈ frames s then frames s else frames s ++ [.openLink]) ∧
      t.dlc = { s.dlc with lane := t.dlc.lane, openTimer := some s.cpm.link.openRetry }) ∧
    (s.dlc.linkState = .up → s.dlc.creditTimer = some 0 → ∃ t, exec .creditTimerExpiry s = .next t ∧ quiet t ∧
      frames t = (if .grant ∈ frames s then frames s else frames s ++ [.grant]) ∧
      t.dlc = { s.dlc with lane := t.dlc.lane, creditTimer := none }) ∧
    (s.dlc.linkState = .up → s.dlc.ackTimer = some 0 → s.dlc.retryCount < s.cpm.link.retryLimit →
      CountersBounded s.toChip → (s.dlc.retention.map Retained.seq).Nodup →
      let again := s.dlc.retention.filter fun e =>
        e.words.isSome && !(s.dlc.lane.any fun x => x.frame.isRow e.seq)
      ∃ t, exec .ackTimerExpiry s = .next t ∧
        frames t = frames s ++ again.map (fun e => .row e.seq e.segment e.row (e.words.getD [])) ∧
        t.dlc = { s.dlc with
          lane := t.dlc.lane, retryCount := s.dlc.retryCount + 1, ackTimer := some s.cpm.link.ackTimeout } ∧
        s.toChip.Counted t.toChip .resends again.length ∧ Cpm.SameButCounters s.cpm t.cpm ∧ t.lbp = s.lbp ∧
        Chip.SameTape s.toChip t.toChip) ∧
    (s.dlc.linkState = .up → s.dlc.ackTimer = some 0 → s.cpm.link.retryLimit ≤ s.dlc.retryCount →
      ∃ t, exec .ackTimerExpiry s = .next t ∧ t.dlc.linkState = .failed ∧ t.dlc.lane = [] ∧ t.dlc.retention = [] ∧
        t.dlc.staging = [] ∧ t.dlc.recvWindow = 0 ∧ t.dlc.fetch = none ∧ t.dlc.ackTimer = none ∧
        t.dlc.creditTimer = none ∧ t.dlc.openTimer = none ∧ t.dlc.writeCredits = s.dlc.writeCredits ∧
        t.dlc.outstanding = s.dlc.outstanding ∧ t.dlc.released = s.dlc.released ∧
        ((s.rc.state ≠ .idle → s.rc.run.isSome = true) → t.rc.state = .idle) ∧
        (∀ r, s.rc.run = some r → s.rc.state ≠ .idle → s.toChip.Aborts t.toChip r ∧
          (s.cpm.partState = .ready → s.toChip.RoomAfterReleases 2 → s.toChip.Raises t.toChip
            (.linkFailed s.cpm.link.retryLimit s.dlc.retention.length))) ∧
        (s.rc.state = .idle → s.cpm.partState = .ready → s.toChip.RingRoom → s.toChip.Raises t.toChip
          (.linkFailed s.cpm.link.retryLimit s.dlc.retention.length)) ∧
        ∀ c, t.toChip.counter c = s.toChip.counter c) ∧
    (∀ r, s.rc = ⟨.draining, some r⟩ → r.drainTimer = some 0 →
      let sends (i : Fin 128) := (s.toChip.slot i).claimed = true ∧ (s.toChip.slot i).write = .sending
      let owes (i : Fin 128) := (∃ e ∈ s.dlc.retention, e.segment = (s.toChip.slot i).segment ∧ e.words ≠ none) ∨
        s.dlc.cursorPos < (s.toChip.slot i).position ∨
        (s.dlc.cursorPos = (s.toChip.slot i).position ∧ s.dlc.cursorRow < 30)
      ∃ t, exec .drainTimerExpiry s = .next t ∧
      (∀ i, (t.toChip.slot i).claimed = true → (t.toChip.slot i).write ≠ .sending) ∧
      ((∃ i, sends i) →
        t.dlc.retention.length = s.dlc.retention.length ∧ (∀ e ∈ t.dlc.retention, e.words = none) ∧
        t.dlc.fetch = none ∧ t.dlc.cursorStopped = true) ∧
      (∃ omits : List (Fin 128), omits.Nodup ∧ (∀ i, i ∈ omits ↔ (sends i ∧ owes i)) ∧
        omits.Pairwise (fun i j => (s.toChip.slot i).position ≤ (s.toChip.slot j).position) ∧
        frames t = (if ∃ i, sends i then
            (frames s).filter fun f => !(s.dlc.retention.any fun e => f.isRow e.seq)
          else frames s) ++
          (if s.dlc.linkState = .up then omits.map fun i => .omitSegment (s.toChip.slot i).segment else []) ∧
        (s.cpm.pendingMap = none →
          (∃ r', t.rc.run = some r' ∧ r'.omitCount = r.omitCount + omits.length ∧ r'.drainTimer = none) ∧
          ∀ q, t.rc.state = .idle → s.cpm.request = some q → q.kind = some .stop → q.reported = false →
            t.cpm.request = some { q with reported := true } ∧ ∃ id, t.toChip.Offers
              (.result id ⟨q.tag, .done, r.omitCount + omits.length + 0x1000000 * 2⟩ (some q.id)))) ∧
      (t.rc.state = .idle → s.toChip.PendingApplied t.toChip ∧
        (s.cpm.partState = .ready → s.toChip.RoomAfterReleases 1 →
          s.toChip.Raises t.toChip (.runEnd r.tag .stopped r.kind false)) ∧
        (s.cpm.pendingMap = none → ∀ p clip qa qb n, r.kind = .edit → r.params = .edit p clip qa qb n →
          s.toChip.EditEnds t.toChip r clip qa r.doneCount)) ∧
      (t.rc.state = .draining ∨ t.rc.state = .idle) ∧
      ((∀ i, (s.toChip.slot i).claimed = true →
          (s.toChip.slot i).play ≠ .arriving ∧ (s.toChip.slot i).play ≠ .checking ∧
          ((s.toChip.slot i).write = .idle ∨ (s.toChip.slot i).write = .done ∨
            (s.toChip.slot i).write = .sending)) →
        t.rc.state = .idle))

/-! ## Frames and values -/

/-- The lane reads back every frame from the bytes it puts out, every field at every value; a byte sequence is bad unless
it has the length of its kind and direction, or, of unknown kind, at least three bytes (log 18), and ends in the CRC of
the bytes before (R81, R187; the register as log 19 reads it). -/
def Obligations.FramesReadBack : Prop :=
  (∀ f : Frame,
    (match f with
      | .playRow _ _ _ _ _ words => words.length = 16
      | .writeRow _ _ _ words => words.length = 16
      | _ => True) →
    receive f.bytes = .frame f) ∧
  (∀ bs : List Byte, receive bs ≠ .bad ↔ ∃ kind body, bs = kind :: body ∧
    (match kind.toNat / 16 with
      | 1 => bs.length = 73 - 2 * (kind.toNat % 2)
      | 2 => bs.length = 4
      | 3 => bs.length = 4
      | 4 => bs.length = 6
      | 5 => bs.length = 6
      | 6 => bs.length = 3
      | 7 => bs.length = 3
      | 8 => bs.length = 3
      | _ => 3 ≤ bs.length) ∧
    ∃ covered : List Byte, bs = covered ++
      [(crc16 covered).extractLsb' 8 8, (crc16 covered).extractLsb' 0 8]) ∧
  crc16 [] = 0xFFFF ∧
  ∀ (covered : List Byte) (b : Byte), crc16 (covered ++ [b]) =
    (List.range 8).foldl (fun (r : BitVec 16) k =>
      if r.getLsbD 15 = b.getLsbD (7 - k) then r <<< 1 else (r <<< 1) ^^^ 0x8005) (crc16 covered)

/-- An interpolated value lies between its neighbours, a held or faded one between the last good value and 0, and a
crossfade between old and new, reaching the new at its last pair (R128 to R130, R145, R146). -/
def Obligations.ValuesStayBetween : Prop :=
  (∀ (a b : Int) (ka kb : Nat), 1 ≤ ka → 1 ≤ kb →
    min a b ≤ interpolate a b ka kb ∧ interpolate a b ka kb ≤ max a b) ∧
  (∀ (a : Int) (ka h m : Nat), ka ≤ h + 2 ^ m →
    min a 0 ≤ holdFade a ka h m ∧ holdFade a ka h m ≤ max a 0 ∧ (ka = h + 2 ^ m → holdFade a ka h m = 0)) ∧
  (∀ (p : Punch) (A : Nat) (o n : Int), p.pin + 2 ^ p.f ≤ p.pout →
    min o n ≤ p.mix A o n ∧ p.mix A o n ≤ max o n ∧ (A + 1 = p.pin + 2 ^ p.f → p.mix A o n = n) ∧
      (A + 1 = p.pout + 2 ^ p.f → p.mix A o n = o))
end

