-- ==== Sys2Proof/Laws/Memory.lean ====
section
/-! SUPPORT. DRAM: every write keeps the canonical form; a read after a write gives what was written there and what
stood there before elsewhere. -/

namespace Sys2Proof.Machine

/-! ## Bytes -/

/-- Below the first listed address nothing is listed. -/
theorem Memory.readByte_below (m : Memory) (a : Nat) (h : m.all (fun c => a < c.1) = true) :
    m.readByte a = Config.unlistedByte := by
  induction m with
  | nil => rfl
  | cons c rest ih =>
    obtain ⟨k, v⟩ := c
    simp only [List.all_cons, Bool.and_eq_true, decide_eq_true_eq] at h
    simp only [Memory.readByte, Nat.ne_of_gt h.1, if_false]
    exact ih h.2

/-- Addresses above one bound lie above a lower one. -/
theorem Memory.all_above {m : List Host.Cell} {a b : Nat} (hab : a < b)
    (h : m.all (fun c => b < c.1) = true) : m.all (fun c => a < c.1) = true := by
  simp only [List.all_eq_true, decide_eq_true_eq] at h ⊢
  exact fun c hc => lt_trans hab (h c hc)

/-- A write above a bound leaves every address above it. -/
theorem Memory.all_writeByte (m : Memory) (a k : Nat) (v : Byte) (hka : k < a)
    (h : m.all (fun c => k < c.1) = true) : (m.writeByte a v).all (fun c => k < c.1) = true := by
  induction m with
  | nil =>
    unfold Memory.writeByte
    split <;> simp [hka]
  | cons c rest ih =>
    obtain ⟨x, w⟩ := c
    simp only [List.all_cons, Bool.and_eq_true, decide_eq_true_eq] at h
    unfold Memory.writeByte
    split
    · split <;> simp [hka, h.1, h.2]
    · split
      · split <;> simp [hka, h.2]
      · simp [h.1, ih h.2]

/-- Writing a byte keeps the canonical form. -/
theorem Memory.wf_writeByte (m : Memory) (a : Nat) (v : Byte) (h : m.wf = true) : (m.writeByte a v).wf = true := by
  induction m with
  | nil =>
    unfold Memory.writeByte
    split <;> simp [Memory.wf, *]
  | cons c rest ih =>
    obtain ⟨k, w⟩ := c
    simp only [Memory.wf, Bool.and_eq_true] at h
    obtain ⟨⟨hw, hall⟩, hrest⟩ := h
    unfold Memory.writeByte
    split
    · rename_i hak
      split
      · simp [Memory.wf, hw, hall, hrest]
      · rename_i hv
        simp [Memory.wf, hv, hw, hall, hrest, hak, Memory.all_above hak hall]
    · split
      · rename_i hne heq
        subst heq
        split
        · exact hrest
        · rename_i hv
          simp [Memory.wf, hv, hall, hrest]
      · rename_i hnlt hne
        have hka : k < a := by omega
        simp [Memory.wf, hw, ih hrest, Memory.all_writeByte rest a k v hka hall]

/-- The byte written is read back. -/
theorem Memory.readByte_writeByte_same (m : Memory) (a : Nat) (v : Byte) (h : m.wf = true) :
    (m.writeByte a v).readByte a = v := by
  induction m with
  | nil =>
    unfold Memory.writeByte
    split
    · rename_i hv
      rw [hv]
      rfl
    · simp [Memory.readByte]
  | cons c rest ih =>
    obtain ⟨k, w⟩ := c
    simp only [Memory.wf, Bool.and_eq_true] at h
    obtain ⟨⟨-, hall⟩, hrest⟩ := h
    unfold Memory.writeByte
    split
    · rename_i hak
      split
      · rename_i hv
        rw [hv]
        refine Memory.readByte_below _ a ?_
        simp [hak, Memory.all_above hak hall]
      · simp [Memory.readByte]
    · split
      · rename_i hne heq
        subst heq
        split
        · rename_i hv
          rw [hv]
          exact Memory.readByte_below rest a hall
        · simp [Memory.readByte]
      · rename_i hne
        have hk : k ≠ a := fun x => hne x.symm
        simp only [Memory.readByte, hk, if_false]
        exact ih hrest

/-- Every other byte is as it was. -/
theorem Memory.readByte_writeByte_other (m : Memory) (a b : Nat) (v : Byte) (hab : b ≠ a) :
    (m.writeByte a v).readByte b = m.readByte b := by
  induction m with
  | nil =>
    unfold Memory.writeByte
    split
    · rfl
    · simp [Memory.readByte, hab.symm]
  | cons c rest ih =>
    obtain ⟨k, w⟩ := c
    unfold Memory.writeByte
    split
    · split
      · rfl
      · simp [Memory.readByte, hab.symm]
    · split
      · rename_i heq
        subst heq
        split <;> simp [Memory.readByte, hab.symm]
      · by_cases hk : k = b
        · simp [Memory.readByte, hk]
        · simp only [Memory.readByte, hk, if_false]
          exact ih

/-! ## Words -/

/-- Writing a word keeps the canonical form. -/
theorem Memory.wf_writeWord (m : Memory) (a : Nat) (w : Word) (h : m.wf = true) : (m.writeWord a w).wf = true := by
  unfold Memory.writeWord
  exact Memory.wf_writeByte _ _ _ (Memory.wf_writeByte _ _ _ (Memory.wf_writeByte _ _ _ (Memory.wf_writeByte _ _ _ h)))

/-- Every byte outside the word is as it was. -/
theorem Memory.readByte_writeWord_other (m : Memory) (a b : Nat) (w : Word) (h : b < a ∨ a + 4 ≤ b) :
    (m.writeWord a w).readByte b = m.readByte b := by
  unfold Memory.writeWord
  rw [Memory.readByte_writeByte_other _ _ _ _ (by omega), Memory.readByte_writeByte_other _ _ _ _ (by omega),
    Memory.readByte_writeByte_other _ _ _ _ (by omega), Memory.readByte_writeByte_other _ _ _ _ (by omega)]

/-- The word written is read back. -/
theorem Memory.readWord_writeWord_same (m : Memory) (a : Nat) (w : Word) (h : m.wf = true) :
    (m.writeWord a w).readWord a = w := by
  have h0 := Memory.wf_writeByte m a (w.extractLsb' 0 8) h
  have h1 := Memory.wf_writeByte _ (a + 1) (w.extractLsb' 8 8) h0
  have h2 := Memory.wf_writeByte _ (a + 2) (w.extractLsb' 16 8) h1
  unfold Memory.readWord Memory.writeWord
  rw [Memory.readByte_writeByte_same _ _ _ h2, Memory.readByte_writeByte_other _ _ _ _ (by omega : a + 2 ≠ a + 3),
    Memory.readByte_writeByte_same _ _ _ h1, Memory.readByte_writeByte_other _ _ _ _ (by omega : a + 1 ≠ a + 3),
    Memory.readByte_writeByte_other _ _ _ _ (by omega : a + 1 ≠ a + 2), Memory.readByte_writeByte_same _ _ _ h0,
    Memory.readByte_writeByte_other _ _ _ _ (by omega : a ≠ a + 3),
    Memory.readByte_writeByte_other _ _ _ _ (by omega : a ≠ a + 2),
    Memory.readByte_writeByte_other _ _ _ _ (by omega : a ≠ a + 1), Memory.readByte_writeByte_same _ _ _ h]
  ext i hi
  simp only [BitVec.getElem_append, BitVec.getElem_extractLsb']
  split
  · rw [← BitVec.getLsbD_eq_getElem]; congr 1; omega
  · split
    · rw [← BitVec.getLsbD_eq_getElem]; congr 1; omega
    · split
      · rw [← BitVec.getLsbD_eq_getElem]; congr 1; omega
      · rw [← BitVec.getLsbD_eq_getElem]; congr 1; omega

/-- Every word apart from the one written is as it was. -/
theorem Memory.readWord_writeWord_other (m : Memory) (a b : Nat) (w : Word) (h : b + 4 ≤ a ∨ a + 4 ≤ b) :
    (m.writeWord a w).readWord b = m.readWord b := by
  unfold Memory.readWord
  rw [Memory.readByte_writeWord_other _ _ _ _ (by omega), Memory.readByte_writeWord_other _ _ _ _ (by omega),
    Memory.readByte_writeWord_other _ _ _ _ (by omega), Memory.readByte_writeWord_other _ _ _ _ (by omega)]

/-! ## Requests -/

/-- The writes of a request keep the canonical form. -/
theorem Memory.wf_writeWords (m : Memory) (ws : List (Nat × Word)) (h : m.wf = true) :
    (m.writeWords ws).wf = true := by
  unfold Memory.writeWords
  induction ws generalizing m with
  | nil => exact h
  | cons aw rest ih => exact ih _ (Memory.wf_writeWord _ _ _ h)

/-- A byte outside every word written is as it was. -/
theorem Memory.readByte_writeWords_other (m : Memory) (ws : List (Nat × Word)) (b : Nat)
    (h : ∀ aw ∈ ws, b < aw.1 ∨ aw.1 + 4 ≤ b) : (m.writeWords ws).readByte b = m.readByte b := by
  unfold Memory.writeWords
  induction ws generalizing m with
  | nil => rfl
  | cons aw rest ih =>
    rw [List.foldl_cons, ih _ fun x hx => h x (List.mem_cons_of_mem _ hx)]
    exact Memory.readByte_writeWord_other _ _ _ _ (h aw List.mem_cons_self)

/-- A word apart from every word written is as it was. -/
theorem Memory.readWord_writeWords_other (m : Memory) (ws : List (Nat × Word)) (b : Nat)
    (h : ∀ aw ∈ ws, b + 4 ≤ aw.1 ∨ aw.1 + 4 ≤ b) : (m.writeWords ws).readWord b = m.readWord b := by
  unfold Memory.writeWords
  induction ws generalizing m with
  | nil => rfl
  | cons aw rest ih =>
    rw [List.foldl_cons, ih _ fun x hx => h x (List.mem_cons_of_mem _ hx)]
    exact Memory.readWord_writeWord_other _ _ _ _ (h aw List.mem_cons_self)

/-- Of words written apart from one another each is read back. -/
theorem Memory.readWord_writeWords_mem (m : Memory) (ws : List (Nat × Word)) (a : Nat) (w : Word)
    (hwf : m.wf = true) (hd : ws.Pairwise fun x y => x.1 + 4 ≤ y.1 ∨ y.1 + 4 ≤ x.1) (hm : (a, w) ∈ ws) :
    (m.writeWords ws).readWord a = w := by
  induction ws generalizing m with
  | nil => cases hm
  | cons aw rest ih =>
    rw [List.pairwise_cons] at hd
    have step : m.writeWords (aw :: rest) = (m.writeWord aw.1 aw.2).writeWords rest := rfl
    rw [step]
    rcases List.mem_cons.mp hm with rfl | hr
    · rw [Memory.readWord_writeWords_other _ _ _ hd.1]
      exact Memory.readWord_writeWord_same _ _ _ hwf
    · exact ih _ (Memory.wf_writeWord _ _ _ hwf) hd.2 hr

/-- A word at its place among consecutive words. -/
theorem mem_placeWords {start : Nat} {ws : List Word} {x : Nat × Word} :
    x ∈ placeWords start ws ↔ ∃ k, ∃ h : k < ws.length, x = (start + 4 * k, ws[k]) := by
  unfold placeWords
  simp only [List.mem_map, Prod.exists, List.mem_zipIdx_iff_getElem?]
  constructor
  · rintro ⟨w, k, hk, rfl⟩
    obtain ⟨h, rfl⟩ := List.getElem?_eq_some_iff.mp hk
    exact ⟨k, h, rfl⟩
  · rintro ⟨k, h, rfl⟩
    exact ⟨ws[k], k, by simp [h], rfl⟩

/-- Consecutive words lie apart. -/
theorem placeWords_apart (start : Nat) (ws : List Word) :
    (placeWords start ws).Pairwise fun x y => x.1 + 4 ≤ y.1 ∨ y.1 + 4 ≤ x.1 := by
  unfold placeWords
  rw [List.pairwise_map, List.pairwise_iff_getElem]
  intro i j hi hj hij
  simp only [List.getElem_zipIdx]
  omega

/-- Consecutive words written are read back. -/
theorem Memory.readWord_placeWords (m : Memory) (start : Nat) (ws : List Word) (k : Nat) (hk : k < ws.length)
    (hwf : m.wf = true) : (m.writeWords (placeWords start ws)).readWord (start + 4 * k) = ws[k] :=
  Memory.readWord_writeWords_mem m _ _ _ hwf (placeWords_apart start ws) (mem_placeWords.mpr ⟨k, hk, rfl⟩)

/-- Every byte outside consecutive words written is as it was. -/
theorem Memory.readByte_placeWords_other (m : Memory) (start : Nat) (ws : List Word) (b : Nat)
    (h : b < start ∨ start + 4 * ws.length ≤ b) : (m.writeWords (placeWords start ws)).readByte b = m.readByte b := by
  refine Memory.readByte_writeWords_other _ _ _ ?_
  intro aw haw
  obtain ⟨k, hk, rfl⟩ := mem_placeWords.mp haw
  simp only
  omega

end Sys2Proof.Machine
end

