-- ==== Sys2Proof/Laws/State.lean ====
section
/-! SUPPORT. What each plain update of the part leaves alone, field by field. -/

namespace Sys2Proof.Machine

@[simp] theorem Chip.offer_event (r : Req) (p : Chip) :
    (Chip.offer r p).event = p.event := rfl
@[simp] theorem Chip.offer_lbp (r : Req) (p : Chip) :
    (Chip.offer r p).lbp = p.lbp := rfl
@[simp] theorem Chip.offer_cpm (r : Req) (p : Chip) :
    (Chip.offer r p).cpm = p.cpm := rfl
@[simp] theorem Chip.offer_slots (r : Req) (p : Chip) :
    (Chip.offer r p).slots = p.slots := rfl
@[simp] theorem Chip.offer_ce (r : Req) (p : Chip) :
    (Chip.offer r p).ce = p.ce := rfl
@[simp] theorem Chip.offer_cu (r : Req) (p : Chip) :
    (Chip.offer r p).cu = p.cu := rfl
@[simp] theorem Chip.offer_dlc (r : Req) (p : Chip) :
    (Chip.offer r p).dlc = p.dlc := rfl
@[simp] theorem Chip.offer_rc (r : Req) (p : Chip) :
    (Chip.offer r p).rc = p.rc := rfl
@[simp] theorem Chip.offer_ecu (r : Req) (p : Chip) :
    (Chip.offer r p).ecu = p.ecu := rfl
@[simp] theorem Chip.withdraw_event (r : Req) (p : Chip) :
    (Chip.withdraw r p).event = p.event := rfl
@[simp] theorem Chip.withdraw_lbp (r : Req) (p : Chip) :
    (Chip.withdraw r p).lbp = p.lbp := rfl
@[simp] theorem Chip.withdraw_cpm (r : Req) (p : Chip) :
    (Chip.withdraw r p).cpm = p.cpm := rfl
@[simp] theorem Chip.withdraw_slots (r : Req) (p : Chip) :
    (Chip.withdraw r p).slots = p.slots := rfl
@[simp] theorem Chip.withdraw_ce (r : Req) (p : Chip) :
    (Chip.withdraw r p).ce = p.ce := rfl
@[simp] theorem Chip.withdraw_cu (r : Req) (p : Chip) :
    (Chip.withdraw r p).cu = p.cu := rfl
@[simp] theorem Chip.withdraw_dlc (r : Req) (p : Chip) :
    (Chip.withdraw r p).dlc = p.dlc := rfl
@[simp] theorem Chip.withdraw_rc (r : Req) (p : Chip) :
    (Chip.withdraw r p).rc = p.rc := rfl
@[simp] theorem Chip.withdraw_ecu (r : Req) (p : Chip) :
    (Chip.withdraw r p).ecu = p.ecu := rfl
@[simp] theorem Chip.begin_lbp (p : Chip) :
    (Chip.begin p).lbp = p.lbp := rfl
@[simp] theorem Chip.begin_mp (p : Chip) :
    (Chip.begin p).mp = p.mp := rfl
@[simp] theorem Chip.begin_cpm (p : Chip) :
    (Chip.begin p).cpm = p.cpm := rfl
@[simp] theorem Chip.begin_slots (p : Chip) :
    (Chip.begin p).slots = p.slots := rfl
@[simp] theorem Chip.begin_ce (p : Chip) :
    (Chip.begin p).ce = p.ce := rfl
@[simp] theorem Chip.begin_cu (p : Chip) :
    (Chip.begin p).cu = p.cu := rfl
@[simp] theorem Chip.begin_dlc (p : Chip) :
    (Chip.begin p).dlc = p.dlc := rfl
@[simp] theorem Chip.begin_rc (p : Chip) :
    (Chip.begin p).rc = p.rc := rfl
@[simp] theorem Chip.begin_ecu (p : Chip) :
    (Chip.begin p).ecu = p.ecu := rfl
@[simp] theorem Chip.beginGrant_lbp (r : Req) (p : Chip) :
    (Chip.beginGrant r p).lbp = p.lbp := rfl
@[simp] theorem Chip.beginGrant_cpm (r : Req) (p : Chip) :
    (Chip.beginGrant r p).cpm = p.cpm := rfl
@[simp] theorem Chip.beginGrant_slots (r : Req) (p : Chip) :
    (Chip.beginGrant r p).slots = p.slots := rfl
@[simp] theorem Chip.beginGrant_ce (r : Req) (p : Chip) :
    (Chip.beginGrant r p).ce = p.ce := rfl
@[simp] theorem Chip.beginGrant_cu (r : Req) (p : Chip) :
    (Chip.beginGrant r p).cu = p.cu := rfl
@[simp] theorem Chip.beginGrant_dlc (r : Req) (p : Chip) :
    (Chip.beginGrant r p).dlc = p.dlc := rfl
@[simp] theorem Chip.beginGrant_rc (r : Req) (p : Chip) :
    (Chip.beginGrant r p).rc = p.rc := rfl
@[simp] theorem Chip.beginGrant_ecu (r : Req) (p : Chip) :
    (Chip.beginGrant r p).ecu = p.ecu := rfl
@[simp] theorem Chip.setSlot_event (i : Fin 128) (x : Slot) (p : Chip) :
    (Chip.setSlot i x p).event = p.event := rfl
@[simp] theorem Chip.setSlot_lbp (i : Fin 128) (x : Slot) (p : Chip) :
    (Chip.setSlot i x p).lbp = p.lbp := rfl
@[simp] theorem Chip.setSlot_mp (i : Fin 128) (x : Slot) (p : Chip) :
    (Chip.setSlot i x p).mp = p.mp := rfl
@[simp] theorem Chip.setSlot_cpm (i : Fin 128) (x : Slot) (p : Chip) :
    (Chip.setSlot i x p).cpm = p.cpm := rfl
@[simp] theorem Chip.setSlot_ce (i : Fin 128) (x : Slot) (p : Chip) :
    (Chip.setSlot i x p).ce = p.ce := rfl
@[simp] theorem Chip.setSlot_cu (i : Fin 128) (x : Slot) (p : Chip) :
    (Chip.setSlot i x p).cu = p.cu := rfl
@[simp] theorem Chip.setSlot_dlc (i : Fin 128) (x : Slot) (p : Chip) :
    (Chip.setSlot i x p).dlc = p.dlc := rfl
@[simp] theorem Chip.setSlot_rc (i : Fin 128) (x : Slot) (p : Chip) :
    (Chip.setSlot i x p).rc = p.rc := rfl
@[simp] theorem Chip.setSlot_ecu (i : Fin 128) (x : Slot) (p : Chip) :
    (Chip.setSlot i x p).ecu = p.ecu := rfl
@[simp] theorem Chip.modSlot_event (i : Fin 128) (f : Slot → Slot) (p : Chip) :
    (Chip.modSlot i f p).event = p.event := rfl
@[simp] theorem Chip.modSlot_lbp (i : Fin 128) (f : Slot → Slot) (p : Chip) :
    (Chip.modSlot i f p).lbp = p.lbp := rfl
@[simp] theorem Chip.modSlot_mp (i : Fin 128) (f : Slot → Slot) (p : Chip) :
    (Chip.modSlot i f p).mp = p.mp := rfl
@[simp] theorem Chip.modSlot_cpm (i : Fin 128) (f : Slot → Slot) (p : Chip) :
    (Chip.modSlot i f p).cpm = p.cpm := rfl
@[simp] theorem Chip.modSlot_ce (i : Fin 128) (f : Slot → Slot) (p : Chip) :
    (Chip.modSlot i f p).ce = p.ce := rfl
@[simp] theorem Chip.modSlot_cu (i : Fin 128) (f : Slot → Slot) (p : Chip) :
    (Chip.modSlot i f p).cu = p.cu := rfl
@[simp] theorem Chip.modSlot_dlc (i : Fin 128) (f : Slot → Slot) (p : Chip) :
    (Chip.modSlot i f p).dlc = p.dlc := rfl
@[simp] theorem Chip.modSlot_rc (i : Fin 128) (f : Slot → Slot) (p : Chip) :
    (Chip.modSlot i f p).rc = p.rc := rfl
@[simp] theorem Chip.modSlot_ecu (i : Fin 128) (f : Slot → Slot) (p : Chip) :
    (Chip.modSlot i f p).ecu = p.ecu := rfl
@[simp] theorem Chip.bump_event (c : Counter) (n : Nat) (p : Chip) :
    (Chip.bump c n p).event = p.event := rfl
@[simp] theorem Chip.bump_lbp (c : Counter) (n : Nat) (p : Chip) :
    (Chip.bump c n p).lbp = p.lbp := rfl
@[simp] theorem Chip.bump_mp (c : Counter) (n : Nat) (p : Chip) :
    (Chip.bump c n p).mp = p.mp := rfl
@[simp] theorem Chip.bump_slots (c : Counter) (n : Nat) (p : Chip) :
    (Chip.bump c n p).slots = p.slots := rfl
@[simp] theorem Chip.bump_ce (c : Counter) (n : Nat) (p : Chip) :
    (Chip.bump c n p).ce = p.ce := rfl
@[simp] theorem Chip.bump_cu (c : Counter) (n : Nat) (p : Chip) :
    (Chip.bump c n p).cu = p.cu := rfl
@[simp] theorem Chip.bump_dlc (c : Counter) (n : Nat) (p : Chip) :
    (Chip.bump c n p).dlc = p.dlc := rfl
@[simp] theorem Chip.bump_rc (c : Counter) (n : Nat) (p : Chip) :
    (Chip.bump c n p).rc = p.rc := rfl
@[simp] theorem Chip.bump_ecu (c : Counter) (n : Nat) (p : Chip) :
    (Chip.bump c n p).ecu = p.ecu := rfl
@[simp] theorem Chip.offerResult_event (r : Result) (closes : Option Nat) (p : Chip) :
    (Chip.offerResult r closes p).event = p.event := rfl
@[simp] theorem Chip.offerResult_lbp (r : Result) (closes : Option Nat) (p : Chip) :
    (Chip.offerResult r closes p).lbp = p.lbp := rfl
@[simp] theorem Chip.offerResult_slots (r : Result) (closes : Option Nat) (p : Chip) :
    (Chip.offerResult r closes p).slots = p.slots := rfl
@[simp] theorem Chip.offerResult_ce (r : Result) (closes : Option Nat) (p : Chip) :
    (Chip.offerResult r closes p).ce = p.ce := rfl
@[simp] theorem Chip.offerResult_cu (r : Result) (closes : Option Nat) (p : Chip) :
    (Chip.offerResult r closes p).cu = p.cu := rfl
@[simp] theorem Chip.offerResult_dlc (r : Result) (closes : Option Nat) (p : Chip) :
    (Chip.offerResult r closes p).dlc = p.dlc := rfl
@[simp] theorem Chip.offerResult_rc (r : Result) (closes : Option Nat) (p : Chip) :
    (Chip.offerResult r closes p).rc = p.rc := rfl
@[simp] theorem Chip.offerResult_ecu (r : Result) (closes : Option Nat) (p : Chip) :
    (Chip.offerResult r closes p).ecu = p.ecu := rfl
@[simp] theorem Chip.takeRequest_event (kind : Option RequestKind) (tag : Nat) (p : Chip) :
    (Chip.takeRequest kind tag p).event = p.event := rfl
@[simp] theorem Chip.takeRequest_lbp (kind : Option RequestKind) (tag : Nat) (p : Chip) :
    (Chip.takeRequest kind tag p).lbp = p.lbp := rfl
@[simp] theorem Chip.takeRequest_mp (kind : Option RequestKind) (tag : Nat) (p : Chip) :
    (Chip.takeRequest kind tag p).mp = p.mp := rfl
@[simp] theorem Chip.takeRequest_slots (kind : Option RequestKind) (tag : Nat) (p : Chip) :
    (Chip.takeRequest kind tag p).slots = p.slots := rfl
@[simp] theorem Chip.takeRequest_ce (kind : Option RequestKind) (tag : Nat) (p : Chip) :
    (Chip.takeRequest kind tag p).ce = p.ce := rfl
@[simp] theorem Chip.takeRequest_cu (kind : Option RequestKind) (tag : Nat) (p : Chip) :
    (Chip.takeRequest kind tag p).cu = p.cu := rfl
@[simp] theorem Chip.takeRequest_dlc (kind : Option RequestKind) (tag : Nat) (p : Chip) :
    (Chip.takeRequest kind tag p).dlc = p.dlc := rfl
@[simp] theorem Chip.takeRequest_rc (kind : Option RequestKind) (tag : Nat) (p : Chip) :
    (Chip.takeRequest kind tag p).rc = p.rc := rfl
@[simp] theorem Chip.takeRequest_ecu (kind : Option RequestKind) (tag : Nat) (p : Chip) :
    (Chip.takeRequest kind tag p).ecu = p.ecu := rfl
@[simp] theorem Chip.hand_event (f : LaneFrame) (p : Chip) :
    (Chip.hand f p).event = p.event := rfl
@[simp] theorem Chip.hand_lbp (f : LaneFrame) (p : Chip) :
    (Chip.hand f p).lbp = p.lbp := rfl
@[simp] theorem Chip.hand_mp (f : LaneFrame) (p : Chip) :
    (Chip.hand f p).mp = p.mp := rfl
@[simp] theorem Chip.hand_cpm (f : LaneFrame) (p : Chip) :
    (Chip.hand f p).cpm = p.cpm := rfl
@[simp] theorem Chip.hand_slots (f : LaneFrame) (p : Chip) :
    (Chip.hand f p).slots = p.slots := rfl
@[simp] theorem Chip.hand_ce (f : LaneFrame) (p : Chip) :
    (Chip.hand f p).ce = p.ce := rfl
@[simp] theorem Chip.hand_cu (f : LaneFrame) (p : Chip) :
    (Chip.hand f p).cu = p.cu := rfl
@[simp] theorem Chip.hand_rc (f : LaneFrame) (p : Chip) :
    (Chip.hand f p).rc = p.rc := rfl
@[simp] theorem Chip.hand_ecu (f : LaneFrame) (p : Chip) :
    (Chip.hand f p).ecu = p.ecu := rfl
@[simp] theorem Chip.unhandRow_event (seq : BitVec 3) (p : Chip) :
    (Chip.unhandRow seq p).event = p.event := rfl
@[simp] theorem Chip.unhandRow_lbp (seq : BitVec 3) (p : Chip) :
    (Chip.unhandRow seq p).lbp = p.lbp := rfl
@[simp] theorem Chip.unhandRow_mp (seq : BitVec 3) (p : Chip) :
    (Chip.unhandRow seq p).mp = p.mp := rfl
@[simp] theorem Chip.unhandRow_cpm (seq : BitVec 3) (p : Chip) :
    (Chip.unhandRow seq p).cpm = p.cpm := rfl
@[simp] theorem Chip.unhandRow_slots (seq : BitVec 3) (p : Chip) :
    (Chip.unhandRow seq p).slots = p.slots := rfl
@[simp] theorem Chip.unhandRow_ce (seq : BitVec 3) (p : Chip) :
    (Chip.unhandRow seq p).ce = p.ce := rfl
@[simp] theorem Chip.unhandRow_cu (seq : BitVec 3) (p : Chip) :
    (Chip.unhandRow seq p).cu = p.cu := rfl
@[simp] theorem Chip.unhandRow_rc (seq : BitVec 3) (p : Chip) :
    (Chip.unhandRow seq p).rc = p.rc := rfl
@[simp] theorem Chip.unhandRow_ecu (seq : BitVec 3) (p : Chip) :
    (Chip.unhandRow seq p).ecu = p.ecu := rfl
@[simp] theorem Chip.modRun_event (f : RunRecord → RunRecord) (p : Chip) :
    (Chip.modRun f p).event = p.event := rfl
@[simp] theorem Chip.modRun_lbp (f : RunRecord → RunRecord) (p : Chip) :
    (Chip.modRun f p).lbp = p.lbp := rfl
@[simp] theorem Chip.modRun_mp (f : RunRecord → RunRecord) (p : Chip) :
    (Chip.modRun f p).mp = p.mp := rfl
@[simp] theorem Chip.modRun_cpm (f : RunRecord → RunRecord) (p : Chip) :
    (Chip.modRun f p).cpm = p.cpm := rfl
@[simp] theorem Chip.modRun_slots (f : RunRecord → RunRecord) (p : Chip) :
    (Chip.modRun f p).slots = p.slots := rfl
@[simp] theorem Chip.modRun_ce (f : RunRecord → RunRecord) (p : Chip) :
    (Chip.modRun f p).ce = p.ce := rfl
@[simp] theorem Chip.modRun_cu (f : RunRecord → RunRecord) (p : Chip) :
    (Chip.modRun f p).cu = p.cu := rfl
@[simp] theorem Chip.modRun_dlc (f : RunRecord → RunRecord) (p : Chip) :
    (Chip.modRun f p).dlc = p.dlc := rfl
@[simp] theorem Chip.modRun_ecu (f : RunRecord → RunRecord) (p : Chip) :
    (Chip.modRun f p).ecu = p.ecu := rfl
@[simp] theorem Chip.setRead_event (e : Fin 8) (r : Option Read) (p : Chip) :
    (Chip.setRead e r p).event = p.event := rfl
@[simp] theorem Chip.setRead_mp (e : Fin 8) (r : Option Read) (p : Chip) :
    (Chip.setRead e r p).mp = p.mp := rfl
@[simp] theorem Chip.setRead_cpm (e : Fin 8) (r : Option Read) (p : Chip) :
    (Chip.setRead e r p).cpm = p.cpm := rfl
@[simp] theorem Chip.setRead_slots (e : Fin 8) (r : Option Read) (p : Chip) :
    (Chip.setRead e r p).slots = p.slots := rfl
@[simp] theorem Chip.setRead_ce (e : Fin 8) (r : Option Read) (p : Chip) :
    (Chip.setRead e r p).ce = p.ce := rfl
@[simp] theorem Chip.setRead_cu (e : Fin 8) (r : Option Read) (p : Chip) :
    (Chip.setRead e r p).cu = p.cu := rfl
@[simp] theorem Chip.setRead_dlc (e : Fin 8) (r : Option Read) (p : Chip) :
    (Chip.setRead e r p).dlc = p.dlc := rfl
@[simp] theorem Chip.setRead_rc (e : Fin 8) (r : Option Read) (p : Chip) :
    (Chip.setRead e r p).rc = p.rc := rfl
@[simp] theorem Chip.setRead_ecu (e : Fin 8) (r : Option Read) (p : Chip) :
    (Chip.setRead e r p).ecu = p.ecu := rfl
@[simp] theorem Chip.modRead_event (e : Fin 8) (f : Read → Read) (p : Chip) :
    (Chip.modRead e f p).event = p.event := rfl
@[simp] theorem Chip.modRead_mp (e : Fin 8) (f : Read → Read) (p : Chip) :
    (Chip.modRead e f p).mp = p.mp := rfl
@[simp] theorem Chip.modRead_cpm (e : Fin 8) (f : Read → Read) (p : Chip) :
    (Chip.modRead e f p).cpm = p.cpm := rfl
@[simp] theorem Chip.modRead_slots (e : Fin 8) (f : Read → Read) (p : Chip) :
    (Chip.modRead e f p).slots = p.slots := rfl
@[simp] theorem Chip.modRead_ce (e : Fin 8) (f : Read → Read) (p : Chip) :
    (Chip.modRead e f p).ce = p.ce := rfl
@[simp] theorem Chip.modRead_cu (e : Fin 8) (f : Read → Read) (p : Chip) :
    (Chip.modRead e f p).cu = p.cu := rfl
@[simp] theorem Chip.modRead_dlc (e : Fin 8) (f : Read → Read) (p : Chip) :
    (Chip.modRead e f p).dlc = p.dlc := rfl
@[simp] theorem Chip.modRead_rc (e : Fin 8) (f : Read → Read) (p : Chip) :
    (Chip.modRead e f p).rc = p.rc := rfl
@[simp] theorem Chip.modRead_ecu (e : Fin 8) (f : Read → Read) (p : Chip) :
    (Chip.modRead e f p).ecu = p.ecu := rfl
@[simp] theorem Chip.offerRead_event (e : Fin 8) (p : Chip) :
    (Chip.offerRead e p).event = p.event := rfl
@[simp] theorem Chip.offerRead_cpm (e : Fin 8) (p : Chip) :
    (Chip.offerRead e p).cpm = p.cpm := rfl
@[simp] theorem Chip.offerRead_slots (e : Fin 8) (p : Chip) :
    (Chip.offerRead e p).slots = p.slots := rfl
@[simp] theorem Chip.offerRead_ce (e : Fin 8) (p : Chip) :
    (Chip.offerRead e p).ce = p.ce := rfl
@[simp] theorem Chip.offerRead_cu (e : Fin 8) (p : Chip) :
    (Chip.offerRead e p).cu = p.cu := rfl
@[simp] theorem Chip.offerRead_dlc (e : Fin 8) (p : Chip) :
    (Chip.offerRead e p).dlc = p.dlc := rfl
@[simp] theorem Chip.offerRead_rc (e : Fin 8) (p : Chip) :
    (Chip.offerRead e p).rc = p.rc := rfl
@[simp] theorem Chip.offerRead_ecu (e : Fin 8) (p : Chip) :
    (Chip.offerRead e p).ecu = p.ecu := rfl
@[simp] theorem Chip.respond_event (r : Response) (p : Chip) :
    (Chip.respond r p).event = p.event := rfl
@[simp] theorem Chip.respond_mp (r : Response) (p : Chip) :
    (Chip.respond r p).mp = p.mp := rfl
@[simp] theorem Chip.respond_cpm (r : Response) (p : Chip) :
    (Chip.respond r p).cpm = p.cpm := rfl
@[simp] theorem Chip.respond_slots (r : Response) (p : Chip) :
    (Chip.respond r p).slots = p.slots := rfl
@[simp] theorem Chip.respond_ce (r : Response) (p : Chip) :
    (Chip.respond r p).ce = p.ce := rfl
@[simp] theorem Chip.respond_cu (r : Response) (p : Chip) :
    (Chip.respond r p).cu = p.cu := rfl
@[simp] theorem Chip.respond_dlc (r : Response) (p : Chip) :
    (Chip.respond r p).dlc = p.dlc := rfl
@[simp] theorem Chip.respond_rc (r : Response) (p : Chip) :
    (Chip.respond r p).rc = p.rc := rfl
@[simp] theorem Chip.respond_ecu (r : Response) (p : Chip) :
    (Chip.respond r p).ecu = p.ecu := rfl
@[simp] theorem Chip.setReadValue_event (e : Fin 8) (index : Nat) (v : Word) (p : Chip) :
    (Chip.setReadValue e index v p).event = p.event := rfl
@[simp] theorem Chip.setReadValue_mp (e : Fin 8) (index : Nat) (v : Word) (p : Chip) :
    (Chip.setReadValue e index v p).mp = p.mp := rfl
@[simp] theorem Chip.setReadValue_cpm (e : Fin 8) (index : Nat) (v : Word) (p : Chip) :
    (Chip.setReadValue e index v p).cpm = p.cpm := rfl
@[simp] theorem Chip.setReadValue_slots (e : Fin 8) (index : Nat) (v : Word) (p : Chip) :
    (Chip.setReadValue e index v p).slots = p.slots := rfl
@[simp] theorem Chip.setReadValue_ce (e : Fin 8) (index : Nat) (v : Word) (p : Chip) :
    (Chip.setReadValue e index v p).ce = p.ce := rfl
@[simp] theorem Chip.setReadValue_cu (e : Fin 8) (index : Nat) (v : Word) (p : Chip) :
    (Chip.setReadValue e index v p).cu = p.cu := rfl
@[simp] theorem Chip.setReadValue_dlc (e : Fin 8) (index : Nat) (v : Word) (p : Chip) :
    (Chip.setReadValue e index v p).dlc = p.dlc := rfl
@[simp] theorem Chip.setReadValue_rc (e : Fin 8) (index : Nat) (v : Word) (p : Chip) :
    (Chip.setReadValue e index v p).rc = p.rc := rfl
@[simp] theorem Chip.setReadValue_ecu (e : Fin 8) (index : Nat) (v : Word) (p : Chip) :
    (Chip.setReadValue e index v p).ecu = p.ecu := rfl
@[simp] theorem Chip.setJob_event (j : Option CeJob) (p : Chip) :
    (Chip.setJob j p).event = p.event := rfl
@[simp] theorem Chip.setJob_lbp (j : Option CeJob) (p : Chip) :
    (Chip.setJob j p).lbp = p.lbp := rfl
@[simp] theorem Chip.setJob_mp (j : Option CeJob) (p : Chip) :
    (Chip.setJob j p).mp = p.mp := rfl
@[simp] theorem Chip.setJob_cpm (j : Option CeJob) (p : Chip) :
    (Chip.setJob j p).cpm = p.cpm := rfl
@[simp] theorem Chip.setJob_slots (j : Option CeJob) (p : Chip) :
    (Chip.setJob j p).slots = p.slots := rfl
@[simp] theorem Chip.setJob_cu (j : Option CeJob) (p : Chip) :
    (Chip.setJob j p).cu = p.cu := rfl
@[simp] theorem Chip.setJob_dlc (j : Option CeJob) (p : Chip) :
    (Chip.setJob j p).dlc = p.dlc := rfl
@[simp] theorem Chip.setJob_rc (j : Option CeJob) (p : Chip) :
    (Chip.setJob j p).rc = p.rc := rfl
@[simp] theorem Chip.setJob_ecu (j : Option CeJob) (p : Chip) :
    (Chip.setJob j p).ecu = p.ecu := rfl
@[simp] theorem Chip.queueItem_event (it : CeItem) (p : Chip) :
    (Chip.queueItem it p).event = p.event := rfl
@[simp] theorem Chip.queueItem_lbp (it : CeItem) (p : Chip) :
    (Chip.queueItem it p).lbp = p.lbp := rfl
@[simp] theorem Chip.queueItem_mp (it : CeItem) (p : Chip) :
    (Chip.queueItem it p).mp = p.mp := rfl
@[simp] theorem Chip.queueItem_cpm (it : CeItem) (p : Chip) :
    (Chip.queueItem it p).cpm = p.cpm := rfl
@[simp] theorem Chip.queueItem_slots (it : CeItem) (p : Chip) :
    (Chip.queueItem it p).slots = p.slots := rfl
@[simp] theorem Chip.queueItem_cu (it : CeItem) (p : Chip) :
    (Chip.queueItem it p).cu = p.cu := rfl
@[simp] theorem Chip.queueItem_dlc (it : CeItem) (p : Chip) :
    (Chip.queueItem it p).dlc = p.dlc := rfl
@[simp] theorem Chip.queueItem_rc (it : CeItem) (p : Chip) :
    (Chip.queueItem it p).rc = p.rc := rfl
@[simp] theorem Chip.queueItem_ecu (it : CeItem) (p : Chip) :
    (Chip.queueItem it p).ecu = p.ecu := rfl
@[simp] theorem Chip.takeItem_event (it : CeItem) (j : CeJob) (p : Chip) :
    (Chip.takeItem it j p).event = p.event := rfl
@[simp] theorem Chip.takeItem_lbp (it : CeItem) (j : CeJob) (p : Chip) :
    (Chip.takeItem it j p).lbp = p.lbp := rfl
@[simp] theorem Chip.takeItem_mp (it : CeItem) (j : CeJob) (p : Chip) :
    (Chip.takeItem it j p).mp = p.mp := rfl
@[simp] theorem Chip.takeItem_cpm (it : CeItem) (j : CeJob) (p : Chip) :
    (Chip.takeItem it j p).cpm = p.cpm := rfl
@[simp] theorem Chip.takeItem_slots (it : CeItem) (j : CeJob) (p : Chip) :
    (Chip.takeItem it j p).slots = p.slots := rfl
@[simp] theorem Chip.takeItem_cu (it : CeItem) (j : CeJob) (p : Chip) :
    (Chip.takeItem it j p).cu = p.cu := rfl
@[simp] theorem Chip.takeItem_dlc (it : CeItem) (j : CeJob) (p : Chip) :
    (Chip.takeItem it j p).dlc = p.dlc := rfl
@[simp] theorem Chip.takeItem_rc (it : CeItem) (j : CeJob) (p : Chip) :
    (Chip.takeItem it j p).rc = p.rc := rfl
@[simp] theorem Chip.takeItem_ecu (it : CeItem) (j : CeJob) (p : Chip) :
    (Chip.takeItem it j p).ecu = p.ecu := rfl
@[simp] theorem Chip.offerCodeWrite_event (j : CodeJob) (p : Chip) :
    (Chip.offerCodeWrite j p).event = p.event := rfl
@[simp] theorem Chip.offerCodeWrite_lbp (j : CodeJob) (p : Chip) :
    (Chip.offerCodeWrite j p).lbp = p.lbp := rfl
@[simp] theorem Chip.offerCodeWrite_cpm (j : CodeJob) (p : Chip) :
    (Chip.offerCodeWrite j p).cpm = p.cpm := rfl
@[simp] theorem Chip.offerCodeWrite_slots (j : CodeJob) (p : Chip) :
    (Chip.offerCodeWrite j p).slots = p.slots := rfl
@[simp] theorem Chip.offerCodeWrite_cu (j : CodeJob) (p : Chip) :
    (Chip.offerCodeWrite j p).cu = p.cu := rfl
@[simp] theorem Chip.offerCodeWrite_dlc (j : CodeJob) (p : Chip) :
    (Chip.offerCodeWrite j p).dlc = p.dlc := rfl
@[simp] theorem Chip.offerCodeWrite_rc (j : CodeJob) (p : Chip) :
    (Chip.offerCodeWrite j p).rc = p.rc := rfl
@[simp] theorem Chip.offerCodeWrite_ecu (j : CodeJob) (p : Chip) :
    (Chip.offerCodeWrite j p).ecu = p.ecu := rfl
@[simp] theorem Chip.dropEval_event (id : Nat) (p : Chip) :
    (Chip.dropEval id p).event = p.event := rfl
@[simp] theorem Chip.dropEval_lbp (id : Nat) (p : Chip) :
    (Chip.dropEval id p).lbp = p.lbp := rfl
@[simp] theorem Chip.dropEval_mp (id : Nat) (p : Chip) :
    (Chip.dropEval id p).mp = p.mp := rfl
@[simp] theorem Chip.dropEval_cpm (id : Nat) (p : Chip) :
    (Chip.dropEval id p).cpm = p.cpm := rfl
@[simp] theorem Chip.dropEval_slots (id : Nat) (p : Chip) :
    (Chip.dropEval id p).slots = p.slots := rfl
@[simp] theorem Chip.dropEval_ce (id : Nat) (p : Chip) :
    (Chip.dropEval id p).ce = p.ce := rfl
@[simp] theorem Chip.dropEval_dlc (id : Nat) (p : Chip) :
    (Chip.dropEval id p).dlc = p.dlc := rfl
@[simp] theorem Chip.dropEval_rc (id : Nat) (p : Chip) :
    (Chip.dropEval id p).rc = p.rc := rfl
@[simp] theorem Chip.dropEval_ecu (id : Nat) (p : Chip) :
    (Chip.dropEval id p).ecu = p.ecu := rfl
@[simp] theorem Chip.unqueue_event (out : CeItem → Bool) (p : Chip) :
    (Chip.unqueue out p).event = p.event := rfl
@[simp] theorem Chip.unqueue_lbp (out : CeItem → Bool) (p : Chip) :
    (Chip.unqueue out p).lbp = p.lbp := rfl
@[simp] theorem Chip.unqueue_mp (out : CeItem → Bool) (p : Chip) :
    (Chip.unqueue out p).mp = p.mp := rfl
@[simp] theorem Chip.unqueue_cpm (out : CeItem → Bool) (p : Chip) :
    (Chip.unqueue out p).cpm = p.cpm := rfl
@[simp] theorem Chip.unqueue_slots (out : CeItem → Bool) (p : Chip) :
    (Chip.unqueue out p).slots = p.slots := rfl
@[simp] theorem Chip.unqueue_cu (out : CeItem → Bool) (p : Chip) :
    (Chip.unqueue out p).cu = p.cu := rfl
@[simp] theorem Chip.unqueue_dlc (out : CeItem → Bool) (p : Chip) :
    (Chip.unqueue out p).dlc = p.dlc := rfl
@[simp] theorem Chip.unqueue_rc (out : CeItem → Bool) (p : Chip) :
    (Chip.unqueue out p).rc = p.rc := rfl
@[simp] theorem Chip.unqueue_ecu (out : CeItem → Bool) (p : Chip) :
    (Chip.unqueue out p).ecu = p.ecu := rfl
@[simp] theorem Chip.setImage_event (u : Fin 256) (r : ImageRecord) (p : Chip) :
    (Chip.setImage u r p).event = p.event := rfl
@[simp] theorem Chip.setImage_lbp (u : Fin 256) (r : ImageRecord) (p : Chip) :
    (Chip.setImage u r p).lbp = p.lbp := rfl
@[simp] theorem Chip.setImage_mp (u : Fin 256) (r : ImageRecord) (p : Chip) :
    (Chip.setImage u r p).mp = p.mp := rfl
@[simp] theorem Chip.setImage_cpm (u : Fin 256) (r : ImageRecord) (p : Chip) :
    (Chip.setImage u r p).cpm = p.cpm := rfl
@[simp] theorem Chip.setImage_slots (u : Fin 256) (r : ImageRecord) (p : Chip) :
    (Chip.setImage u r p).slots = p.slots := rfl
@[simp] theorem Chip.setImage_ce (u : Fin 256) (r : ImageRecord) (p : Chip) :
    (Chip.setImage u r p).ce = p.ce := rfl
@[simp] theorem Chip.setImage_cu (u : Fin 256) (r : ImageRecord) (p : Chip) :
    (Chip.setImage u r p).cu = p.cu := rfl
@[simp] theorem Chip.setImage_dlc (u : Fin 256) (r : ImageRecord) (p : Chip) :
    (Chip.setImage u r p).dlc = p.dlc := rfl
@[simp] theorem Chip.setImage_rc (u : Fin 256) (r : ImageRecord) (p : Chip) :
    (Chip.setImage u r p).rc = p.rc := rfl
@[simp] theorem Chip.freeImage_event (u : Fin 256) (p : Chip) :
    (Chip.freeImage u p).event = p.event := rfl
@[simp] theorem Chip.freeImage_lbp (u : Fin 256) (p : Chip) :
    (Chip.freeImage u p).lbp = p.lbp := rfl
@[simp] theorem Chip.freeImage_mp (u : Fin 256) (p : Chip) :
    (Chip.freeImage u p).mp = p.mp := rfl
@[simp] theorem Chip.freeImage_cpm (u : Fin 256) (p : Chip) :
    (Chip.freeImage u p).cpm = p.cpm := rfl
@[simp] theorem Chip.freeImage_slots (u : Fin 256) (p : Chip) :
    (Chip.freeImage u p).slots = p.slots := rfl
@[simp] theorem Chip.freeImage_ce (u : Fin 256) (p : Chip) :
    (Chip.freeImage u p).ce = p.ce := rfl
@[simp] theorem Chip.freeImage_cu (u : Fin 256) (p : Chip) :
    (Chip.freeImage u p).cu = p.cu := rfl
@[simp] theorem Chip.freeImage_dlc (u : Fin 256) (p : Chip) :
    (Chip.freeImage u p).dlc = p.dlc := rfl
@[simp] theorem Chip.freeImage_rc (u : Fin 256) (p : Chip) :
    (Chip.freeImage u p).rc = p.rc := rfl
@[simp] theorem Chip.offerMirror_event (place : Nat) (ws : List Word) (p : Chip) :
    (Chip.offerMirror place ws p).event = p.event := rfl
@[simp] theorem Chip.offerMirror_lbp (place : Nat) (ws : List Word) (p : Chip) :
    (Chip.offerMirror place ws p).lbp = p.lbp := rfl
@[simp] theorem Chip.offerMirror_cpm (place : Nat) (ws : List Word) (p : Chip) :
    (Chip.offerMirror place ws p).cpm = p.cpm := rfl
@[simp] theorem Chip.offerMirror_slots (place : Nat) (ws : List Word) (p : Chip) :
    (Chip.offerMirror place ws p).slots = p.slots := rfl
@[simp] theorem Chip.offerMirror_ce (place : Nat) (ws : List Word) (p : Chip) :
    (Chip.offerMirror place ws p).ce = p.ce := rfl
@[simp] theorem Chip.offerMirror_cu (place : Nat) (ws : List Word) (p : Chip) :
    (Chip.offerMirror place ws p).cu = p.cu := rfl
@[simp] theorem Chip.offerMirror_dlc (place : Nat) (ws : List Word) (p : Chip) :
    (Chip.offerMirror place ws p).dlc = p.dlc := rfl
@[simp] theorem Chip.offerMirror_rc (place : Nat) (ws : List Word) (p : Chip) :
    (Chip.offerMirror place ws p).rc = p.rc := rfl
@[simp] theorem Chip.offerMirror_ecu (place : Nat) (ws : List Word) (p : Chip) :
    (Chip.offerMirror place ws p).ecu = p.ecu := rfl
@[simp] theorem Chip.pushEntry_event (e : StackEntry) (p : Chip) :
    (Chip.pushEntry e p).event = p.event := rfl
@[simp] theorem Chip.pushEntry_lbp (e : StackEntry) (p : Chip) :
    (Chip.pushEntry e p).lbp = p.lbp := rfl
@[simp] theorem Chip.pushEntry_cpm (e : StackEntry) (p : Chip) :
    (Chip.pushEntry e p).cpm = p.cpm := rfl
@[simp] theorem Chip.pushEntry_slots (e : StackEntry) (p : Chip) :
    (Chip.pushEntry e p).slots = p.slots := rfl
@[simp] theorem Chip.pushEntry_ce (e : StackEntry) (p : Chip) :
    (Chip.pushEntry e p).ce = p.ce := rfl
@[simp] theorem Chip.pushEntry_cu (e : StackEntry) (p : Chip) :
    (Chip.pushEntry e p).cu = p.cu := rfl
@[simp] theorem Chip.pushEntry_dlc (e : StackEntry) (p : Chip) :
    (Chip.pushEntry e p).dlc = p.dlc := rfl
@[simp] theorem Chip.pushEntry_rc (e : StackEntry) (p : Chip) :
    (Chip.pushEntry e p).rc = p.rc := rfl
@[simp] theorem Chip.beginLoad_event (l : Load) (p : Chip) :
    (Chip.beginLoad l p).event = p.event := rfl
@[simp] theorem Chip.beginLoad_lbp (l : Load) (p : Chip) :
    (Chip.beginLoad l p).lbp = p.lbp := rfl
@[simp] theorem Chip.beginLoad_cpm (l : Load) (p : Chip) :
    (Chip.beginLoad l p).cpm = p.cpm := rfl
@[simp] theorem Chip.beginLoad_slots (l : Load) (p : Chip) :
    (Chip.beginLoad l p).slots = p.slots := rfl
@[simp] theorem Chip.beginLoad_ce (l : Load) (p : Chip) :
    (Chip.beginLoad l p).ce = p.ce := rfl
@[simp] theorem Chip.beginLoad_cu (l : Load) (p : Chip) :
    (Chip.beginLoad l p).cu = p.cu := rfl
@[simp] theorem Chip.beginLoad_dlc (l : Load) (p : Chip) :
    (Chip.beginLoad l p).dlc = p.dlc := rfl
@[simp] theorem Chip.beginLoad_rc (l : Load) (p : Chip) :
    (Chip.beginLoad l p).rc = p.rc := rfl
@[simp] theorem Chip.dropLoad_event (i : Fin 128) (p : Chip) :
    (Chip.dropLoad i p).event = p.event := rfl
@[simp] theorem Chip.dropLoad_lbp (i : Fin 128) (p : Chip) :
    (Chip.dropLoad i p).lbp = p.lbp := rfl
@[simp] theorem Chip.dropLoad_mp (i : Fin 128) (p : Chip) :
    (Chip.dropLoad i p).mp = p.mp := rfl
@[simp] theorem Chip.dropLoad_cpm (i : Fin 128) (p : Chip) :
    (Chip.dropLoad i p).cpm = p.cpm := rfl
@[simp] theorem Chip.dropLoad_slots (i : Fin 128) (p : Chip) :
    (Chip.dropLoad i p).slots = p.slots := rfl
@[simp] theorem Chip.dropLoad_ce (i : Fin 128) (p : Chip) :
    (Chip.dropLoad i p).ce = p.ce := rfl
@[simp] theorem Chip.dropLoad_cu (i : Fin 128) (p : Chip) :
    (Chip.dropLoad i p).cu = p.cu := rfl
@[simp] theorem Chip.dropLoad_dlc (i : Fin 128) (p : Chip) :
    (Chip.dropLoad i p).dlc = p.dlc := rfl
@[simp] theorem Chip.dropLoad_rc (i : Fin 128) (p : Chip) :
    (Chip.dropLoad i p).rc = p.rc := rfl
@[simp] theorem Chip.queueDecode_event (i : Fin 128) (p : Chip) :
    (Chip.queueDecode i p).event = p.event := rfl
@[simp] theorem Chip.queueDecode_lbp (i : Fin 128) (p : Chip) :
    (Chip.queueDecode i p).lbp = p.lbp := rfl
@[simp] theorem Chip.queueDecode_mp (i : Fin 128) (p : Chip) :
    (Chip.queueDecode i p).mp = p.mp := rfl
@[simp] theorem Chip.queueDecode_cpm (i : Fin 128) (p : Chip) :
    (Chip.queueDecode i p).cpm = p.cpm := rfl
@[simp] theorem Chip.queueDecode_cu (i : Fin 128) (p : Chip) :
    (Chip.queueDecode i p).cu = p.cu := rfl
@[simp] theorem Chip.queueDecode_dlc (i : Fin 128) (p : Chip) :
    (Chip.queueDecode i p).dlc = p.dlc := rfl
@[simp] theorem Chip.queueDecode_rc (i : Fin 128) (p : Chip) :
    (Chip.queueDecode i p).rc = p.rc := rfl
@[simp] theorem Chip.queueDecode_ecu (i : Fin 128) (p : Chip) :
    (Chip.queueDecode i p).ecu = p.ecu := rfl
@[simp] theorem Chip.moveWindow_event (p : Chip) :
    (Chip.moveWindow p).event = p.event := rfl
@[simp] theorem Chip.moveWindow_lbp (p : Chip) :
    (Chip.moveWindow p).lbp = p.lbp := rfl
@[simp] theorem Chip.moveWindow_mp (p : Chip) :
    (Chip.moveWindow p).mp = p.mp := rfl
@[simp] theorem Chip.moveWindow_cpm (p : Chip) :
    (Chip.moveWindow p).cpm = p.cpm := rfl
@[simp] theorem Chip.moveWindow_slots (p : Chip) :
    (Chip.moveWindow p).slots = p.slots := rfl
@[simp] theorem Chip.moveWindow_ce (p : Chip) :
    (Chip.moveWindow p).ce = p.ce := rfl
@[simp] theorem Chip.moveWindow_cu (p : Chip) :
    (Chip.moveWindow p).cu = p.cu := rfl
@[simp] theorem Chip.moveWindow_dlc (p : Chip) :
    (Chip.moveWindow p).dlc = p.dlc := rfl
@[simp] theorem Chip.moveWindow_ecu (p : Chip) :
    (Chip.moveWindow p).ecu = p.ecu := rfl
@[simp] theorem Chip.settle_event (p : Chip) :
    (Chip.settle p).event = p.event := rfl
@[simp] theorem Chip.settle_lbp (p : Chip) :
    (Chip.settle p).lbp = p.lbp := rfl
@[simp] theorem Chip.settle_mp (p : Chip) :
    (Chip.settle p).mp = p.mp := rfl
@[simp] theorem Chip.settle_cpm (p : Chip) :
    (Chip.settle p).cpm = p.cpm := rfl
@[simp] theorem Chip.settle_slots (p : Chip) :
    (Chip.settle p).slots = p.slots := rfl
@[simp] theorem Chip.settle_ce (p : Chip) :
    (Chip.settle p).ce = p.ce := rfl
@[simp] theorem Chip.settle_cu (p : Chip) :
    (Chip.settle p).cu = p.cu := rfl
@[simp] theorem Chip.settle_dlc (p : Chip) :
    (Chip.settle p).dlc = p.dlc := rfl
@[simp] theorem Chip.settle_ecu (p : Chip) :
    (Chip.settle p).ecu = p.ecu := rfl
@[simp] theorem Chip.setClip_event (k : Fin 4) (c : Clip) (p : Chip) :
    (Chip.setClip k c p).event = p.event := rfl
@[simp] theorem Chip.setClip_lbp (k : Fin 4) (c : Clip) (p : Chip) :
    (Chip.setClip k c p).lbp = p.lbp := rfl
@[simp] theorem Chip.setClip_mp (k : Fin 4) (c : Clip) (p : Chip) :
    (Chip.setClip k c p).mp = p.mp := rfl
@[simp] theorem Chip.setClip_cpm (k : Fin 4) (c : Clip) (p : Chip) :
    (Chip.setClip k c p).cpm = p.cpm := rfl
@[simp] theorem Chip.setClip_slots (k : Fin 4) (c : Clip) (p : Chip) :
    (Chip.setClip k c p).slots = p.slots := rfl
@[simp] theorem Chip.setClip_ce (k : Fin 4) (c : Clip) (p : Chip) :
    (Chip.setClip k c p).ce = p.ce := rfl
@[simp] theorem Chip.setClip_cu (k : Fin 4) (c : Clip) (p : Chip) :
    (Chip.setClip k c p).cu = p.cu := rfl
@[simp] theorem Chip.setClip_dlc (k : Fin 4) (c : Clip) (p : Chip) :
    (Chip.setClip k c p).dlc = p.dlc := rfl
@[simp] theorem Chip.setClip_rc (k : Fin 4) (c : Clip) (p : Chip) :
    (Chip.setClip k c p).rc = p.rc := rfl
@[simp] theorem Chip.applySignal_event (m : ModeSignal) (p : Chip) :
    (Chip.applySignal m p).event = p.event := rfl
@[simp] theorem Chip.applySignal_lbp (m : ModeSignal) (p : Chip) :
    (Chip.applySignal m p).lbp = p.lbp := rfl
@[simp] theorem Chip.applySignal_mp (m : ModeSignal) (p : Chip) :
    (Chip.applySignal m p).mp = p.mp := rfl
@[simp] theorem Chip.applySignal_slots (m : ModeSignal) (p : Chip) :
    (Chip.applySignal m p).slots = p.slots := rfl
@[simp] theorem Chip.applySignal_ce (m : ModeSignal) (p : Chip) :
    (Chip.applySignal m p).ce = p.ce := rfl
@[simp] theorem Chip.applySignal_cu (m : ModeSignal) (p : Chip) :
    (Chip.applySignal m p).cu = p.cu := rfl
@[simp] theorem Chip.applySignal_dlc (m : ModeSignal) (p : Chip) :
    (Chip.applySignal m p).dlc = p.dlc := rfl
@[simp] theorem Chip.applySignal_rc (m : ModeSignal) (p : Chip) :
    (Chip.applySignal m p).rc = p.rc := rfl
@[simp] theorem Chip.applySignal_ecu (m : ModeSignal) (p : Chip) :
    (Chip.applySignal m p).ecu = p.ecu := rfl
@[simp] theorem Chip.applyLink_event (m : ModeLink) (p : Chip) :
    (Chip.applyLink m p).event = p.event := rfl
@[simp] theorem Chip.applyLink_lbp (m : ModeLink) (p : Chip) :
    (Chip.applyLink m p).lbp = p.lbp := rfl
@[simp] theorem Chip.applyLink_mp (m : ModeLink) (p : Chip) :
    (Chip.applyLink m p).mp = p.mp := rfl
@[simp] theorem Chip.applyLink_slots (m : ModeLink) (p : Chip) :
    (Chip.applyLink m p).slots = p.slots := rfl
@[simp] theorem Chip.applyLink_ce (m : ModeLink) (p : Chip) :
    (Chip.applyLink m p).ce = p.ce := rfl
@[simp] theorem Chip.applyLink_cu (m : ModeLink) (p : Chip) :
    (Chip.applyLink m p).cu = p.cu := rfl
@[simp] theorem Chip.applyLink_dlc (m : ModeLink) (p : Chip) :
    (Chip.applyLink m p).dlc = p.dlc := rfl
@[simp] theorem Chip.applyLink_rc (m : ModeLink) (p : Chip) :
    (Chip.applyLink m p).rc = p.rc := rfl
@[simp] theorem Chip.applyLink_ecu (m : ModeLink) (p : Chip) :
    (Chip.applyLink m p).ecu = p.ecu := rfl
@[simp] theorem Chip.applyEdit_event (m : ModeEdit) (p : Chip) :
    (Chip.applyEdit m p).event = p.event := rfl
@[simp] theorem Chip.applyEdit_lbp (m : ModeEdit) (p : Chip) :
    (Chip.applyEdit m p).lbp = p.lbp := rfl
@[simp] theorem Chip.applyEdit_mp (m : ModeEdit) (p : Chip) :
    (Chip.applyEdit m p).mp = p.mp := rfl
@[simp] theorem Chip.applyEdit_slots (m : ModeEdit) (p : Chip) :
    (Chip.applyEdit m p).slots = p.slots := rfl
@[simp] theorem Chip.applyEdit_ce (m : ModeEdit) (p : Chip) :
    (Chip.applyEdit m p).ce = p.ce := rfl
@[simp] theorem Chip.applyEdit_cu (m : ModeEdit) (p : Chip) :
    (Chip.applyEdit m p).cu = p.cu := rfl
@[simp] theorem Chip.applyEdit_dlc (m : ModeEdit) (p : Chip) :
    (Chip.applyEdit m p).dlc = p.dlc := rfl
@[simp] theorem Chip.applyEdit_rc (m : ModeEdit) (p : Chip) :
    (Chip.applyEdit m p).rc = p.rc := rfl
@[simp] theorem Chip.applyEdit_ecu (m : ModeEdit) (p : Chip) :
    (Chip.applyEdit m p).ecu = p.ecu := rfl
@[simp] theorem Chip.countOmit_event (p : Chip) :
    (Chip.countOmit p).event = p.event := rfl
@[simp] theorem Chip.countOmit_lbp (p : Chip) :
    (Chip.countOmit p).lbp = p.lbp := rfl
@[simp] theorem Chip.countOmit_mp (p : Chip) :
    (Chip.countOmit p).mp = p.mp := rfl
@[simp] theorem Chip.countOmit_cpm (p : Chip) :
    (Chip.countOmit p).cpm = p.cpm := rfl
@[simp] theorem Chip.countOmit_slots (p : Chip) :
    (Chip.countOmit p).slots = p.slots := rfl
@[simp] theorem Chip.countOmit_ce (p : Chip) :
    (Chip.countOmit p).ce = p.ce := rfl
@[simp] theorem Chip.countOmit_cu (p : Chip) :
    (Chip.countOmit p).cu = p.cu := rfl
@[simp] theorem Chip.countOmit_dlc (p : Chip) :
    (Chip.countOmit p).dlc = p.dlc := rfl
@[simp] theorem Chip.countOmit_ecu (p : Chip) :
    (Chip.countOmit p).ecu = p.ecu := rfl
@[simp] theorem Chip.emptyLink_event (p : Chip) :
    (Chip.emptyLink p).event = p.event := rfl
@[simp] theorem Chip.emptyLink_lbp (p : Chip) :
    (Chip.emptyLink p).lbp = p.lbp := rfl
@[simp] theorem Chip.emptyLink_mp (p : Chip) :
    (Chip.emptyLink p).mp = p.mp := rfl
@[simp] theorem Chip.emptyLink_cpm (p : Chip) :
    (Chip.emptyLink p).cpm = p.cpm := rfl
@[simp] theorem Chip.emptyLink_slots (p : Chip) :
    (Chip.emptyLink p).slots = p.slots := rfl
@[simp] theorem Chip.emptyLink_ce (p : Chip) :
    (Chip.emptyLink p).ce = p.ce := rfl
@[simp] theorem Chip.emptyLink_cu (p : Chip) :
    (Chip.emptyLink p).cu = p.cu := rfl
@[simp] theorem Chip.emptyLink_rc (p : Chip) :
    (Chip.emptyLink p).rc = p.rc := rfl
@[simp] theorem Chip.emptyLink_ecu (p : Chip) :
    (Chip.emptyLink p).ecu = p.ecu := rfl
@[simp] theorem Chip.placeShadow_event (w : PostedWrite) (p : Chip) :
    (Chip.placeShadow w p).event = p.event := rfl
@[simp] theorem Chip.placeShadow_lbp (w : PostedWrite) (p : Chip) :
    (Chip.placeShadow w p).lbp = p.lbp := rfl
@[simp] theorem Chip.placeShadow_mp (w : PostedWrite) (p : Chip) :
    (Chip.placeShadow w p).mp = p.mp := rfl
@[simp] theorem Chip.placeShadow_slots (w : PostedWrite) (p : Chip) :
    (Chip.placeShadow w p).slots = p.slots := rfl
@[simp] theorem Chip.placeShadow_ce (w : PostedWrite) (p : Chip) :
    (Chip.placeShadow w p).ce = p.ce := rfl
@[simp] theorem Chip.placeShadow_cu (w : PostedWrite) (p : Chip) :
    (Chip.placeShadow w p).cu = p.cu := rfl
@[simp] theorem Chip.placeShadow_dlc (w : PostedWrite) (p : Chip) :
    (Chip.placeShadow w p).dlc = p.dlc := rfl
@[simp] theorem Chip.placeShadow_rc (w : PostedWrite) (p : Chip) :
    (Chip.placeShadow w p).rc = p.rc := rfl
@[simp] theorem Chip.placeShadow_ecu (w : PostedWrite) (p : Chip) :
    (Chip.placeShadow w p).ecu = p.ecu := rfl
@[simp] theorem Chip.emptyDirty_event (p : Chip) :
    (Chip.emptyDirty p).event = p.event := rfl
@[simp] theorem Chip.emptyDirty_lbp (p : Chip) :
    (Chip.emptyDirty p).lbp = p.lbp := rfl
@[simp] theorem Chip.emptyDirty_mp (p : Chip) :
    (Chip.emptyDirty p).mp = p.mp := rfl
@[simp] theorem Chip.emptyDirty_slots (p : Chip) :
    (Chip.emptyDirty p).slots = p.slots := rfl
@[simp] theorem Chip.emptyDirty_ce (p : Chip) :
    (Chip.emptyDirty p).ce = p.ce := rfl
@[simp] theorem Chip.emptyDirty_cu (p : Chip) :
    (Chip.emptyDirty p).cu = p.cu := rfl
@[simp] theorem Chip.emptyDirty_dlc (p : Chip) :
    (Chip.emptyDirty p).dlc = p.dlc := rfl
@[simp] theorem Chip.emptyDirty_rc (p : Chip) :
    (Chip.emptyDirty p).rc = p.rc := rfl
@[simp] theorem Chip.emptyDirty_ecu (p : Chip) :
    (Chip.emptyDirty p).ecu = p.ecu := rfl
@[simp] theorem Chip.publish_event (index : Nat) (p : Chip) :
    (Chip.publish index p).event = p.event := rfl
@[simp] theorem Chip.publish_lbp (index : Nat) (p : Chip) :
    (Chip.publish index p).lbp = p.lbp := rfl
@[simp] theorem Chip.publish_mp (index : Nat) (p : Chip) :
    (Chip.publish index p).mp = p.mp := rfl
@[simp] theorem Chip.publish_slots (index : Nat) (p : Chip) :
    (Chip.publish index p).slots = p.slots := rfl
@[simp] theorem Chip.publish_ce (index : Nat) (p : Chip) :
    (Chip.publish index p).ce = p.ce := rfl
@[simp] theorem Chip.publish_cu (index : Nat) (p : Chip) :
    (Chip.publish index p).cu = p.cu := rfl
@[simp] theorem Chip.publish_dlc (index : Nat) (p : Chip) :
    (Chip.publish index p).dlc = p.dlc := rfl
@[simp] theorem Chip.publish_rc (index : Nat) (p : Chip) :
    (Chip.publish index p).rc = p.rc := rfl
@[simp] theorem Chip.publish_ecu (index : Nat) (p : Chip) :
    (Chip.publish index p).ecu = p.ecu := rfl
@[simp] theorem Chip.takePending_event (kind : RequestKind) (tag : Nat) (p : Chip) :
    (Chip.takePending kind tag p).event = p.event := rfl
@[simp] theorem Chip.takePending_lbp (kind : RequestKind) (tag : Nat) (p : Chip) :
    (Chip.takePending kind tag p).lbp = p.lbp := rfl
@[simp] theorem Chip.takePending_slots (kind : RequestKind) (tag : Nat) (p : Chip) :
    (Chip.takePending kind tag p).slots = p.slots := rfl
@[simp] theorem Chip.takePending_ce (kind : RequestKind) (tag : Nat) (p : Chip) :
    (Chip.takePending kind tag p).ce = p.ce := rfl
@[simp] theorem Chip.takePending_cu (kind : RequestKind) (tag : Nat) (p : Chip) :
    (Chip.takePending kind tag p).cu = p.cu := rfl
@[simp] theorem Chip.takePending_dlc (kind : RequestKind) (tag : Nat) (p : Chip) :
    (Chip.takePending kind tag p).dlc = p.dlc := rfl
@[simp] theorem Chip.takePending_rc (kind : RequestKind) (tag : Nat) (p : Chip) :
    (Chip.takePending kind tag p).rc = p.rc := rfl
@[simp] theorem Chip.takePending_ecu (kind : RequestKind) (tag : Nat) (p : Chip) :
    (Chip.takePending kind tag p).ecu = p.ecu := rfl
@[simp] theorem Chip.noteReady_event (q : Nat) (p : Chip) :
    (Chip.noteReady q p).event = p.event := rfl
@[simp] theorem Chip.noteReady_lbp (q : Nat) (p : Chip) :
    (Chip.noteReady q p).lbp = p.lbp := rfl
@[simp] theorem Chip.noteReady_mp (q : Nat) (p : Chip) :
    (Chip.noteReady q p).mp = p.mp := rfl
@[simp] theorem Chip.noteReady_slots (q : Nat) (p : Chip) :
    (Chip.noteReady q p).slots = p.slots := rfl
@[simp] theorem Chip.noteReady_ce (q : Nat) (p : Chip) :
    (Chip.noteReady q p).ce = p.ce := rfl
@[simp] theorem Chip.noteReady_cu (q : Nat) (p : Chip) :
    (Chip.noteReady q p).cu = p.cu := rfl
@[simp] theorem Chip.noteReady_dlc (q : Nat) (p : Chip) :
    (Chip.noteReady q p).dlc = p.dlc := rfl
@[simp] theorem Chip.noteReady_ecu (q : Nat) (p : Chip) :
    (Chip.noteReady q p).ecu = p.ecu := rfl
@[simp] theorem Chip.nextCapture_event (c : Capture) (segment block : Nat) (p : Chip) :
    (Chip.nextCapture c segment block p).event = p.event := rfl
@[simp] theorem Chip.nextCapture_lbp (c : Capture) (segment block : Nat) (p : Chip) :
    (Chip.nextCapture c segment block p).lbp = p.lbp := rfl
@[simp] theorem Chip.nextCapture_cpm (c : Capture) (segment block : Nat) (p : Chip) :
    (Chip.nextCapture c segment block p).cpm = p.cpm := rfl
@[simp] theorem Chip.nextCapture_slots (c : Capture) (segment block : Nat) (p : Chip) :
    (Chip.nextCapture c segment block p).slots = p.slots := rfl
@[simp] theorem Chip.nextCapture_ce (c : Capture) (segment block : Nat) (p : Chip) :
    (Chip.nextCapture c segment block p).ce = p.ce := rfl
@[simp] theorem Chip.nextCapture_cu (c : Capture) (segment block : Nat) (p : Chip) :
    (Chip.nextCapture c segment block p).cu = p.cu := rfl
@[simp] theorem Chip.nextCapture_dlc (c : Capture) (segment block : Nat) (p : Chip) :
    (Chip.nextCapture c segment block p).dlc = p.dlc := rfl
@[simp] theorem Chip.nextCapture_rc (c : Capture) (segment block : Nat) (p : Chip) :
    (Chip.nextCapture c segment block p).rc = p.rc := rfl
@[simp] theorem Chip.takeSave_event (v : Save) (rest : List Save) (p : Chip) :
    (Chip.takeSave v rest p).event = p.event := rfl
@[simp] theorem Chip.takeSave_lbp (v : Save) (rest : List Save) (p : Chip) :
    (Chip.takeSave v rest p).lbp = p.lbp := rfl
@[simp] theorem Chip.takeSave_cpm (v : Save) (rest : List Save) (p : Chip) :
    (Chip.takeSave v rest p).cpm = p.cpm := rfl
@[simp] theorem Chip.takeSave_slots (v : Save) (rest : List Save) (p : Chip) :
    (Chip.takeSave v rest p).slots = p.slots := rfl
@[simp] theorem Chip.takeSave_ce (v : Save) (rest : List Save) (p : Chip) :
    (Chip.takeSave v rest p).ce = p.ce := rfl
@[simp] theorem Chip.takeSave_cu (v : Save) (rest : List Save) (p : Chip) :
    (Chip.takeSave v rest p).cu = p.cu := rfl
@[simp] theorem Chip.takeSave_dlc (v : Save) (rest : List Save) (p : Chip) :
    (Chip.takeSave v rest p).dlc = p.dlc := rfl
@[simp] theorem Chip.takeSave_rc (v : Save) (rest : List Save) (p : Chip) :
    (Chip.takeSave v rest p).rc = p.rc := rfl
@[simp] theorem Chip.putLoad_event (l : Load) (p : Chip) :
    (Chip.putLoad l p).event = p.event := rfl
@[simp] theorem Chip.putLoad_lbp (l : Load) (p : Chip) :
    (Chip.putLoad l p).lbp = p.lbp := rfl
@[simp] theorem Chip.putLoad_mp (l : Load) (p : Chip) :
    (Chip.putLoad l p).mp = p.mp := rfl
@[simp] theorem Chip.putLoad_cpm (l : Load) (p : Chip) :
    (Chip.putLoad l p).cpm = p.cpm := rfl
@[simp] theorem Chip.putLoad_slots (l : Load) (p : Chip) :
    (Chip.putLoad l p).slots = p.slots := rfl
@[simp] theorem Chip.putLoad_ce (l : Load) (p : Chip) :
    (Chip.putLoad l p).ce = p.ce := rfl
@[simp] theorem Chip.putLoad_cu (l : Load) (p : Chip) :
    (Chip.putLoad l p).cu = p.cu := rfl
@[simp] theorem Chip.putLoad_dlc (l : Load) (p : Chip) :
    (Chip.putLoad l p).dlc = p.dlc := rfl
@[simp] theorem Chip.putLoad_rc (l : Load) (p : Chip) :
    (Chip.putLoad l p).rc = p.rc := rfl
@[simp] theorem Chip.clearMissing_event (seq : BitVec 3) (p : Chip) :
    (Chip.clearMissing seq p).event = p.event := rfl
@[simp] theorem Chip.clearMissing_lbp (seq : BitVec 3) (p : Chip) :
    (Chip.clearMissing seq p).lbp = p.lbp := rfl
@[simp] theorem Chip.clearMissing_mp (seq : BitVec 3) (p : Chip) :
    (Chip.clearMissing seq p).mp = p.mp := rfl
@[simp] theorem Chip.clearMissing_cpm (seq : BitVec 3) (p : Chip) :
    (Chip.clearMissing seq p).cpm = p.cpm := rfl
@[simp] theorem Chip.clearMissing_slots (seq : BitVec 3) (p : Chip) :
    (Chip.clearMissing seq p).slots = p.slots := rfl
@[simp] theorem Chip.clearMissing_ce (seq : BitVec 3) (p : Chip) :
    (Chip.clearMissing seq p).ce = p.ce := rfl
@[simp] theorem Chip.clearMissing_cu (seq : BitVec 3) (p : Chip) :
    (Chip.clearMissing seq p).cu = p.cu := rfl
@[simp] theorem Chip.clearMissing_rc (seq : BitVec 3) (p : Chip) :
    (Chip.clearMissing seq p).rc = p.rc := rfl
@[simp] theorem Chip.clearMissing_ecu (seq : BitVec 3) (p : Chip) :
    (Chip.clearMissing seq p).ecu = p.ecu := rfl
@[simp] theorem Chip.raiseHorizon_event (q : Nat) (p : Chip) :
    (Chip.raiseHorizon q p).event = p.event := rfl
@[simp] theorem Chip.raiseHorizon_lbp (q : Nat) (p : Chip) :
    (Chip.raiseHorizon q p).lbp = p.lbp := rfl
@[simp] theorem Chip.raiseHorizon_mp (q : Nat) (p : Chip) :
    (Chip.raiseHorizon q p).mp = p.mp := rfl
@[simp] theorem Chip.raiseHorizon_cpm (q : Nat) (p : Chip) :
    (Chip.raiseHorizon q p).cpm = p.cpm := rfl
@[simp] theorem Chip.raiseHorizon_slots (q : Nat) (p : Chip) :
    (Chip.raiseHorizon q p).slots = p.slots := rfl
@[simp] theorem Chip.raiseHorizon_ce (q : Nat) (p : Chip) :
    (Chip.raiseHorizon q p).ce = p.ce := rfl
@[simp] theorem Chip.raiseHorizon_cu (q : Nat) (p : Chip) :
    (Chip.raiseHorizon q p).cu = p.cu := rfl
@[simp] theorem Chip.raiseHorizon_dlc (q : Nat) (p : Chip) :
    (Chip.raiseHorizon q p).dlc = p.dlc := rfl
@[simp] theorem Chip.raiseHorizon_ecu (q : Nat) (p : Chip) :
    (Chip.raiseHorizon q p).ecu = p.ecu := rfl
@[simp] theorem Chip.send_event (f : Frame) (p : Chip) :
    (Chip.send f p).event = p.event := rfl
@[simp] theorem Chip.send_lbp (f : Frame) (p : Chip) :
    (Chip.send f p).lbp = p.lbp := rfl
@[simp] theorem Chip.send_mp (f : Frame) (p : Chip) :
    (Chip.send f p).mp = p.mp := rfl
@[simp] theorem Chip.send_cpm (f : Frame) (p : Chip) :
    (Chip.send f p).cpm = p.cpm := rfl
@[simp] theorem Chip.send_slots (f : Frame) (p : Chip) :
    (Chip.send f p).slots = p.slots := rfl
@[simp] theorem Chip.send_ce (f : Frame) (p : Chip) :
    (Chip.send f p).ce = p.ce := rfl
@[simp] theorem Chip.send_cu (f : Frame) (p : Chip) :
    (Chip.send f p).cu = p.cu := rfl
@[simp] theorem Chip.send_rc (f : Frame) (p : Chip) :
    (Chip.send f p).rc = p.rc := rfl
@[simp] theorem Chip.send_ecu (f : Frame) (p : Chip) :
    (Chip.send f p).ecu = p.ecu := rfl
@[simp] theorem Chip.sendGrant_event (p : Chip) :
    (Chip.sendGrant p).event = p.event := rfl
@[simp] theorem Chip.sendGrant_lbp (p : Chip) :
    (Chip.sendGrant p).lbp = p.lbp := rfl
@[simp] theorem Chip.sendGrant_mp (p : Chip) :
    (Chip.sendGrant p).mp = p.mp := rfl
@[simp] theorem Chip.sendGrant_cpm (p : Chip) :
    (Chip.sendGrant p).cpm = p.cpm := rfl
@[simp] theorem Chip.sendGrant_slots (p : Chip) :
    (Chip.sendGrant p).slots = p.slots := rfl
@[simp] theorem Chip.sendGrant_ce (p : Chip) :
    (Chip.sendGrant p).ce = p.ce := rfl
@[simp] theorem Chip.sendGrant_cu (p : Chip) :
    (Chip.sendGrant p).cu = p.cu := rfl
@[simp] theorem Chip.sendGrant_rc (p : Chip) :
    (Chip.sendGrant p).rc = p.rc := rfl
@[simp] theorem Chip.sendGrant_ecu (p : Chip) :
    (Chip.sendGrant p).ecu = p.ecu := rfl
@[simp] theorem Chip.tick_event (p : Chip) :
    (Chip.tick p).event = p.event := rfl
@[simp] theorem Chip.tick_mp (p : Chip) :
    (Chip.tick p).mp = p.mp := rfl
@[simp] theorem Chip.tick_cpm (p : Chip) :
    (Chip.tick p).cpm = p.cpm := rfl
@[simp] theorem Chip.tick_slots (p : Chip) :
    (Chip.tick p).slots = p.slots := rfl
@[simp] theorem Chip.tick_ce (p : Chip) :
    (Chip.tick p).ce = p.ce := rfl
@[simp] theorem Chip.tick_cu (p : Chip) :
    (Chip.tick p).cu = p.cu := rfl
@[simp] theorem Chip.tick_ecu (p : Chip) :
    (Chip.tick p).ecu = p.ecu := rfl

end Sys2Proof.Machine
end

