-- ==== Sys2Proof/Laws/Access.lean ====
section
/-! SUPPORT. What is read back after a slot, a tracker entry or a counter is replaced, which requests wait after one is
offered, and what a grant of the posted-write head and a raised notice do. -/

namespace Sys2Proof.Machine

/-! ## Slots, reads, counters -/

@[simp] theorem Chip.slot_setSlot_same (i : Fin 128) (x : Slot) (p : Chip) : (p.setSlot i x).slot i = x := by
  simp [Chip.slot, Chip.setSlot]

theorem Chip.slot_setSlot_other {i j : Fin 128} (x : Slot) (p : Chip) (h : j ≠ i) :
    (p.setSlot i x).slot j = p.slot j := by
  have : i.val ≠ j.val := fun e => h (Fin.ext e.symm)
  simp [Chip.slot, Chip.setSlot, this]

@[simp] theorem Chip.slot_modSlot_same (i : Fin 128) (f : Slot → Slot) (p : Chip) :
    (p.modSlot i f).slot i = f (p.slot i) := Chip.slot_setSlot_same i _ p

theorem Chip.slot_modSlot_other {i j : Fin 128} (f : Slot → Slot) (p : Chip) (h : j ≠ i) :
    (p.modSlot i f).slot j = p.slot j := Chip.slot_setSlot_other _ p h

@[simp] theorem Chip.read_setRead_same (e : Fin 8) (r : Option Read) (p : Chip) : (p.setRead e r).read e = r := by
  simp [Chip.read, Chip.setRead]

theorem Chip.read_setRead_other {e x : Fin 8} (r : Option Read) (p : Chip) (h : x ≠ e) :
    (p.setRead e r).read x = p.read x := by
  have : e.val ≠ x.val := fun k => h (Fin.ext k.symm)
  simp [Chip.read, Chip.setRead, this]

theorem Counter.index_injective {a b : Counter} (h : a.index = b.index) : a = b := by
  cases a <;> cases b <;> first | rfl | (simp [Counter.index] at h)

@[simp] theorem Chip.counter_bump_same (c : Counter) (n : Nat) (p : Chip) :
    (p.bump c n).counter c = min Config.counterMax (p.counter c + n) := by
  simp [Chip.counter, Chip.bump]

theorem Chip.counter_bump_other {c k : Counter} (n : Nat) (p : Chip) (h : k ≠ c) :
    (p.bump c n).counter k = p.counter k := by
  have : c.index.val ≠ k.index.val := fun e => h (Counter.index_injective (Fin.ext e)).symm
  simp [Chip.counter, Chip.bump, this]

/-! ## Offers (R16) -/

/-- The requests of a class after an offer. -/
theorem Chip.queue_offer (r : Req) (p : Chip) (c : Fin 7) :
    (p.offer r).mp.queues[c] = if c = r.cls then p.mp.queues[c] ++ [⟨r, p.event⟩] else p.mp.queues[c] := by
  by_cases h : c = r.cls
  · subst h
    simp [Chip.offer, Mp.offer]
  · have : r.cls.val ≠ c.val := fun e => h (Fin.ext e.symm)
    simp [Chip.offer, Mp.offer, h, this]

/-- An offered request waits. -/
theorem Chip.offers_offer (r : Req) (p : Chip) : (p.offer r).Offers r :=
  ⟨⟨r, p.event⟩, by rw [Chip.queue_offer, if_pos rfl]; simp, rfl⟩

/-- An offer leaves the requests that wait. -/
theorem Chip.offers_mono (r : Req) {p : Chip} {q : Req} (h : p.Offers q) : (p.offer r).Offers q := by
  obtain ⟨o, member, rfl⟩ := h
  refine ⟨o, ?_, rfl⟩
  rw [Chip.queue_offer]
  split
  · exact List.mem_append_left _ member
  · exact member

/-! ## Words stored -/

/-- Words written apart from one another are stored. -/
theorem stored_writeWords (m : Memory) (ws : List (Nat × Word)) (hwf : Memory.wf m = true) (apart : Apart ws) :
    Stored m (Memory.writeWords m ws) ws :=
  ⟨fun aw member => Memory.readWord_writeWords_mem m ws aw.1 aw.2 hwf apart member,
    fun b outside => Memory.readByte_writeWords_other m ws b outside⟩

/-- A burst written is stored. -/
theorem stored_placeWords (m : Memory) (start : Nat) (ws : List Word) (hwf : Memory.wf m = true) :
    Stored m (Memory.writeWords m (placeWords start ws)) (placeWords start ws) :=
  stored_writeWords m _ hwf (placeWords_apart start ws)

/-! ## Notices (R37) -/

/-- A notice raised by a READY part whose ring has room waits to be written. -/
theorem Chip.raise_raises (n : Notice) (p : Chip) (isReady : p.cpm.partState = .ready) (room : p.RingRoom) :
    p.Raises (p.raise n) n := by
  refine ⟨p.cpm.nextWrite, p.cpm.writeIndex, Nat.le_refl _, ?_⟩
  have := Chip.offers_offer (.notice p.cpm.nextWrite p.cpm.writeIndex n.word0 n.word1) p
  unfold Chip.raise
  rw [isReady]
  simp only
  rw [if_neg room]
  exact this

/-! ## Grants of the posted-write head (R11, R21) -/

/-- A grant of the head by its row: the effect between the copy and the pop, the burst stored. -/
theorem State.grantHead_eq {s : State} {w : PostedWrite} {act : WriteAct} (effect : PostedWrite → Chip → Chip)
    (h : s.Heads w act) :
    s.grantHead act effect = .next { s with
      toChip :=
        ((effect w ((s.toChip.beginGrant .postedWrite).placeShadow w)).leaveQueue w).noteStatus
      mem := Memory.writeWords s.mem (placeWords w.addr w.data) } := by
  obtain ⟨head, row, grant⟩ := h
  unfold State.grantHead
  cases posted : s.lbp.posted with
  | nil => rw [posted] at head; cases head
  | cons x rest =>
    rw [posted] at head
    cases head
    simp [row, grant]

/-- A head that is not granted now, or belongs to another row, is left alone (log 5). -/
theorem State.grantHead_idle {s : State} {act : WriteAct} (effect : PostedWrite → Chip → Chip)
    (h : ∀ w, ¬s.Heads w act) : s.grantHead act effect = .next s := by
  unfold State.grantHead
  cases posted : s.lbp.posted with
  | nil => rfl
  | cons w rest =>
    simp only
    rw [if_neg]
    exact fun ⟨row, grant⟩ => h w ⟨by rw [posted]; rfl, row, grant⟩

end Sys2Proof.Machine
end

