-- ==== Sys2Proof/Laws/Cascade.lean ====
section
/-! SUPPORT. What the operations inside a command never do. Most operations of the part only move its inner work on:
they leave the posted-write queue, the credits and seqs of the link, the indices of the notice ring and the part state
alone, let counters only grow, and never shorten a serial. `Chip.Cascade a b` says all of it at once, and each such
operation has one lemma: if b came from a so, then so did the operation's answer on b. -/

namespace Sys2Proof.Machine

/-- b comes from a by inner work alone. -/
structure Chip.Cascade (a b : Chip) : Prop where
  event : b.event = a.event
  posted : b.lbp.posted = a.lbp.posted
  nextWrite : b.lbp.nextWrite = a.lbp.nextWrite
  partState : b.cpm.partState = a.cpm.partState
  publishedIndex : b.cpm.publishedIndex = a.cpm.publishedIndex
  readIndex : b.cpm.readIndex = a.cpm.readIndex
  notice : b.cpm.notice = a.cpm.notice
  writeIndex : a.cpm.writeIndex < Config.ringEntries → b.cpm.writeIndex < Config.ringEntries
  counters : (∀ c : Fin 16, a.cpm.counters[c] ≤ Config.counterMax) →
    ∀ c : Fin 16, a.cpm.counters[c] ≤ b.cpm.counters[c] ∧ b.cpm.counters[c] ≤ Config.counterMax
  overflow : a.cpm.overflow ≤ Config.counterMax → a.cpm.overflow ≤ b.cpm.overflow ∧ b.cpm.overflow ≤ Config.counterMax
  passOver : (∀ c : Fin 7, a.mp.passOver[c] ≤ Config.passOverMax) → ∀ c : Fin 7, b.mp.passOver[c] ≤ Config.passOverMax
  linkState : b.dlc.linkState = a.dlc.linkState
  sendSeq : b.dlc.sendSeq = a.dlc.sendSeq
  recvSeq : b.dlc.recvSeq = a.dlc.recvSeq
  writeCredits : b.dlc.writeCredits = a.dlc.writeCredits
  retryCount : b.dlc.retryCount = a.dlc.retryCount
  recvWindow : b.dlc.recvWindow = a.dlc.recvWindow
  outstanding : b.dlc.outstanding = a.dlc.outstanding
  released : b.dlc.released = a.dlc.released
  staging : b.dlc.staging = a.dlc.staging
  sent : b.dlc.sent = a.dlc.sent
  retention : b.dlc.retention.map (fun e => (e.seq, e.segment, e.row, e.slot, e.serial))
    = a.dlc.retention.map (fun e => (e.seq, e.segment, e.row, e.slot, e.serial))
  fetch : b.dlc.fetch.isSome = true → a.dlc.fetch.isSome = true ∨ a.dlc.retention.length < Config.retentionMax
  serial : ∀ i, (a.slot i).serial ≤ (b.slot i).serial
  run : b.rc.state = .idle ∨ (b.rc.state = a.rc.state ∧ b.rc.run.isSome = a.rc.run.isSome)

theorem Chip.Cascade.refl (p : Chip) : p.Cascade p where
  event := rfl
  posted := rfl
  nextWrite := rfl
  partState := rfl
  publishedIndex := rfl
  readIndex := rfl
  notice := rfl
  writeIndex := id
  counters := fun h c => ⟨le_refl _, h c⟩
  overflow := fun h => ⟨le_refl _, h⟩
  passOver := id
  linkState := rfl
  sendSeq := rfl
  recvSeq := rfl
  writeCredits := rfl
  retryCount := rfl
  recvWindow := rfl
  outstanding := rfl
  released := rfl
  staging := rfl
  sent := rfl
  retention := rfl
  fetch := .inl
  serial := fun _ => le_refl _
  run := .inr ⟨rfl, rfl⟩

theorem Chip.Cascade.length {a b : Chip} (h : a.Cascade b) : b.dlc.retention.length = a.dlc.retention.length := by
  simpa using congrArg List.length h.retention

theorem Chip.Cascade.trans {a b c : Chip} (h : a.Cascade b) (k : b.Cascade c) : a.Cascade c where
  event := k.event.trans h.event
  posted := k.posted.trans h.posted
  nextWrite := k.nextWrite.trans h.nextWrite
  partState := k.partState.trans h.partState
  publishedIndex := k.publishedIndex.trans h.publishedIndex
  readIndex := k.readIndex.trans h.readIndex
  notice := k.notice.trans h.notice
  writeIndex := fun x => k.writeIndex (h.writeIndex x)
  counters := fun x i => by
    have hb := h.counters x
    have hc := k.counters (fun c => (hb c).2) i
    exact ⟨le_trans (hb i).1 hc.1, hc.2⟩
  overflow := fun x => ⟨le_trans (h.overflow x).1 (k.overflow (h.overflow x).2).1, (k.overflow (h.overflow x).2).2⟩
  passOver := fun x => k.passOver (h.passOver x)
  linkState := k.linkState.trans h.linkState
  sendSeq := k.sendSeq.trans h.sendSeq
  recvSeq := k.recvSeq.trans h.recvSeq
  writeCredits := k.writeCredits.trans h.writeCredits
  retryCount := k.retryCount.trans h.retryCount
  recvWindow := k.recvWindow.trans h.recvWindow
  outstanding := k.outstanding.trans h.outstanding
  released := k.released.trans h.released
  staging := k.staging.trans h.staging
  sent := k.sent.trans h.sent
  retention := k.retention.trans h.retention
  fetch := fun x => (k.fetch x).elim h.fetch fun y => .inr (h.length ▸ y)
  serial := fun i => le_trans (h.serial i) (k.serial i)
  run := by
    rcases k.run with x | ⟨x, y⟩
    · exact .inl x
    · rcases h.run with z | ⟨z, w⟩
      · exact .inl (x.trans z)
      · exact .inr ⟨x.trans z, y.trans w⟩

theorem Chip.Cascade.foldl {α : Type} {a : Chip} {f : Chip → α → Chip} {l : List α} {p : Chip}
    (hf : ∀ q x, a.Cascade q → a.Cascade (f q x)) (h : a.Cascade p) : a.Cascade (l.foldl f p) := by
  induction l generalizing p with
  | nil => exact h
  | cons x rest ih => exact ih (hf p x h)

/-! ## Updates of one block -/

theorem Chip.Cascade.toLbp {a p : Chip} (h : a.Cascade p) {x : Lbp} (h1 : x.posted = p.lbp.posted := by rfl)
    (h2 : x.nextWrite = p.lbp.nextWrite := by rfl) : a.Cascade { p with lbp := x } :=
  h.trans { Chip.Cascade.refl p with posted := h1, nextWrite := h2 }

theorem Chip.Cascade.toMp {a p : Chip} (h : a.Cascade p) {x : Mp}
    (h1 : (∀ c : Fin 7, p.mp.passOver[c] ≤ Config.passOverMax) → ∀ c : Fin 7, x.passOver[c] ≤ Config.passOverMax :=
      by exact id) : a.Cascade { p with mp := x } :=
  h.trans { Chip.Cascade.refl p with passOver := h1 }

theorem Chip.Cascade.toCpm {a p : Chip} (h : a.Cascade p) {x : Cpm} (h1 : x.partState = p.cpm.partState := by rfl)
    (h2 : x.publishedIndex = p.cpm.publishedIndex := by rfl) (h3 : x.readIndex = p.cpm.readIndex := by rfl)
    (h4 : x.notice = p.cpm.notice := by rfl)
    (h5 : p.cpm.writeIndex < Config.ringEntries → x.writeIndex < Config.ringEntries := by exact id)
    (h6 : (∀ c : Fin 16, p.cpm.counters[c] ≤ Config.counterMax) →
      ∀ c : Fin 16, p.cpm.counters[c] ≤ x.counters[c] ∧ x.counters[c] ≤ Config.counterMax := by
        exact fun h c => ⟨le_refl _, h c⟩)
    (h7 : p.cpm.overflow ≤ Config.counterMax → p.cpm.overflow ≤ x.overflow ∧ x.overflow ≤ Config.counterMax := by
        exact fun h => ⟨le_refl _, h⟩) : a.Cascade { p with cpm := x } :=
  h.trans { Chip.Cascade.refl p with
    partState := h1, publishedIndex := h2, readIndex := h3, notice := h4, writeIndex := h5, counters := h6
    overflow := h7 }

theorem Chip.Cascade.toSlots {a p : Chip} (h : a.Cascade p) {x : Vector Slot 128}
    (h1 : ∀ i : Fin 128, (p.slots[i]).serial ≤ (x[i]).serial) : a.Cascade { p with slots := x } :=
  h.trans { Chip.Cascade.refl p with serial := h1 }

theorem Chip.Cascade.toCe {a p : Chip} (h : a.Cascade p) {x : Ce} : a.Cascade { p with ce := x } :=
  h.trans { Chip.Cascade.refl p with }

theorem Chip.Cascade.toCu {a p : Chip} (h : a.Cascade p) {x : Cu} : a.Cascade { p with cu := x } :=
  h.trans { Chip.Cascade.refl p with }

theorem Chip.Cascade.toEcu {a p : Chip} (h : a.Cascade p) {x : Ecu} : a.Cascade { p with ecu := x } :=
  h.trans { Chip.Cascade.refl p with }

theorem Chip.Cascade.toRc {a p : Chip} (h : a.Cascade p) {x : Rc}
    (h1 : x.state = .idle ∨ (x.state = p.rc.state ∧ x.run.isSome = p.rc.run.isSome)) : a.Cascade { p with rc := x } :=
  h.trans { Chip.Cascade.refl p with run := h1 }

theorem Chip.Cascade.toDlc {a p : Chip} (h : a.Cascade p) {x : Dlc} (h1 : x.linkState = p.dlc.linkState := by rfl)
    (h2 : x.sendSeq = p.dlc.sendSeq := by rfl) (h3 : x.recvSeq = p.dlc.recvSeq := by rfl)
    (h4 : x.writeCredits = p.dlc.writeCredits := by rfl) (h5 : x.retryCount = p.dlc.retryCount := by rfl)
    (h6 : x.recvWindow = p.dlc.recvWindow := by rfl) (h7 : x.outstanding = p.dlc.outstanding := by rfl)
    (h8 : x.released = p.dlc.released := by rfl) (h9 : x.staging = p.dlc.staging := by rfl)
    (h10 : x.sent = p.dlc.sent := by rfl)
    (h11 : x.retention.map (fun e => (e.seq, e.segment, e.row, e.slot, e.serial))
      = p.dlc.retention.map (fun e => (e.seq, e.segment, e.row, e.slot, e.serial)) := by rfl)
    (h12 : x.fetch.isSome = true → p.dlc.fetch.isSome = true ∨ p.dlc.retention.length < Config.retentionMax := by
      exact .inl) : a.Cascade { p with dlc := x } :=
  h.trans { Chip.Cascade.refl p with
    linkState := h1, sendSeq := h2, recvSeq := h3, writeCredits := h4, retryCount := h5, recvWindow := h6
    outstanding := h7, released := h8, staging := h9, sent := h10, retention := h11, fetch := h12 }

/-! ## The operations -/

theorem Chip.offer_cascade (r : Req) {p : Chip} {a : Chip} (h : a.Cascade p) :
    a.Cascade (Chip.offer r p) := by
  unfold Chip.offer
  repeat' first
    | with_reducible assumption
    | split
    | refine Chip.Cascade.toMp ?_

theorem Mp.withdraw_passOver (m : Mp) (r : Req) (h : ∀ c : Fin 7, m.passOver[c] ≤ Config.passOverMax) (c : Fin 7) :
    (m.withdraw r).passOver[c] ≤ Config.passOverMax := by
  unfold Mp.withdraw
  dsimp only
  split
  · exact h c
  · simp only [Fin.getElem_fin, Vector.getElem_set]
    split
    · exact Nat.zero_le _
    · exact h c

theorem Chip.withdraw_cascade (r : Req) {p : Chip} {a : Chip} (h : a.Cascade p) :
    a.Cascade (Chip.withdraw r p) :=
  h.toMp (Mp.withdraw_passOver p.mp r)

theorem Chip.setSlot_cascade (i : Fin 128) (x : Slot) {p : Chip} {a : Chip} (hx : (p.slot i).serial ≤ x.serial)
    (h : a.Cascade p) : a.Cascade (Chip.setSlot i x p) := by
  refine h.toSlots fun j => ?_
  simp only [Fin.getElem_fin, Vector.getElem_set]
  split
  · rename_i hij
    have : j = i := Fin.ext hij.symm
    subst this
    exact hx
  · exact le_refl _

theorem Chip.modSlot_cascade (i : Fin 128) (f : Slot → Slot) {p : Chip} {a : Chip}
    (hf : (p.slot i).serial ≤ (f (p.slot i)).serial) (h : a.Cascade p) : a.Cascade (Chip.modSlot i f p) :=
  Chip.setSlot_cascade i _ hf h

theorem Chip.bump_cascade (c : Counter) (n : Nat) {p : Chip} {a : Chip} (h : a.Cascade p) :
    a.Cascade (Chip.bump c n p) := by
  refine h.toCpm (h6 := fun hc d => ?_)
  have hd := hc d
  simp only [Fin.getElem_fin, Vector.getElem_set] at hd ⊢
  split
  · rename_i hcd
    simp only [hcd]
    omega
  · exact ⟨le_refl _, hd⟩

theorem Chip.raise_cascade (n : Notice) {p : Chip} {a : Chip} (h : a.Cascade p) : a.Cascade (Chip.raise n p) := by
  unfold Chip.raise
  split
  · exact h
  · split
    · exact h.toCpm (h7 := fun hx => ⟨by dsimp only; omega, Nat.min_le_left _ _⟩)
    · exact Chip.Cascade.toCpm (p := p.offer _) (Chip.offer_cascade _ h)
        (h5 := fun _ => Nat.mod_lt _ (by decide))

theorem Chip.markDirty_cascade (ws : List Nat) {p : Chip} {a : Chip} (h : a.Cascade p) :
    a.Cascade (Chip.markDirty ws p) := by
  unfold Chip.markDirty
  dsimp only
  repeat' first
    | with_reducible assumption
    | with_reducible apply Chip.offer_cascade
    | split
    | refine Chip.Cascade.toCpm ?_

theorem Chip.noteStatus_cascade {p : Chip} {a : Chip} (h : a.Cascade p) :
    a.Cascade (Chip.noteStatus p) := by
  unfold Chip.noteStatus
  dsimp only
  repeat' first
    | with_reducible assumption
    | with_reducible apply Chip.markDirty_cascade
    | with_reducible refine Chip.Cascade.foldl ?_ ?_
    | intro _ _ _
    | split
    | refine Chip.Cascade.toCpm ?_

theorem Chip.dirtyRunWords_cascade {p : Chip} {a : Chip} (h : a.Cascade p) :
    a.Cascade (Chip.dirtyRunWords p) := by
  unfold Chip.dirtyRunWords
  repeat' first
    | with_reducible assumption
    | with_reducible apply Chip.markDirty_cascade
    | with_reducible apply Chip.noteStatus_cascade
    | split

theorem Chip.offerResult_cascade (r : Result) (closes : Option Nat) {p : Chip} {a : Chip} (h : a.Cascade p) :
    a.Cascade (Chip.offerResult r closes p) := by
  unfold Chip.offerResult
  dsimp only
  repeat' first
    | with_reducible assumption
    | with_reducible apply Chip.offer_cascade
    | split
    | refine Chip.Cascade.toCpm ?_

theorem Chip.takeRequest_cascade (kind : Option RequestKind) (tag : Nat) {p : Chip} {a : Chip} (h : a.Cascade p) :
    a.Cascade (Chip.takeRequest kind tag p) := by
  unfold Chip.takeRequest
  dsimp only
  repeat' first
    | with_reducible assumption
    | split
    | refine Chip.Cascade.toCpm ?_

theorem Chip.report_cascade (outcome : ReqOutcome) (detail : Nat) {p : Chip} {a : Chip} (h : a.Cascade p) :
    a.Cascade (Chip.report outcome detail p) := by
  unfold Chip.report
  dsimp only
  repeat' first
    | with_reducible assumption
    | with_reducible apply Chip.noteStatus_cascade
    | with_reducible apply Chip.offerResult_cascade
    | split
    | refine Chip.Cascade.toCpm ?_

theorem Chip.hand_cascade (f : LaneFrame) {p : Chip} {a : Chip} (h : a.Cascade p) :
    a.Cascade (Chip.hand f p) := by
  unfold Chip.hand
  dsimp only
  repeat' first
    | with_reducible assumption
    | split
    | refine Chip.Cascade.toDlc ?_

theorem Chip.handGrant_cascade {p : Chip} {a : Chip} (h : a.Cascade p) :
    a.Cascade (Chip.handGrant p) := by
  unfold Chip.handGrant
  repeat' first
    | with_reducible assumption
    | with_reducible apply Chip.hand_cascade
    | split

theorem Chip.handMissing_cascade (flags : BitVec 8) {p : Chip} {a : Chip} (h : a.Cascade p) :
    a.Cascade (Chip.handMissing flags p) := by
  unfold Chip.handMissing
  dsimp only
  repeat' first
    | with_reducible assumption
    | with_reducible apply Chip.hand_cascade
    | split
    | refine Chip.Cascade.toDlc ?_

theorem Chip.handOpen_cascade {p : Chip} {a : Chip} (h : a.Cascade p) :
    a.Cascade (Chip.handOpen p) := by
  unfold Chip.handOpen
  repeat' first
    | with_reducible assumption
    | with_reducible apply Chip.hand_cascade
    | split

theorem Chip.handOmit_cascade (segment : Nat) {p : Chip} {a : Chip} (h : a.Cascade p) :
    a.Cascade (Chip.handOmit segment p) := by
  unfold Chip.handOmit
  dsimp only
  repeat' first
    | with_reducible assumption
    | with_reducible apply Chip.hand_cascade
    | split
    | refine Chip.Cascade.toDlc ?_

theorem Chip.unhandRow_cascade (seq : BitVec 3) {p : Chip} {a : Chip} (h : a.Cascade p) :
    a.Cascade (Chip.unhandRow seq p) := by
  unfold Chip.unhandRow
  dsimp only
  repeat' first
    | with_reducible assumption
    | split
    | refine Chip.Cascade.toDlc ?_

theorem Chip.resend_cascade {p : Chip} (r : Retained) {a : Chip} (h : a.Cascade p) :
    a.Cascade (Chip.resend p r) := by
  unfold Chip.resend
  repeat' first
    | with_reducible assumption
    | with_reducible apply Chip.bump_cascade
    | with_reducible apply Chip.hand_cascade
    | split

theorem Chip.modRun_cascade (f : RunRecord → RunRecord) {p : Chip} {a : Chip} (h : a.Cascade p) :
    a.Cascade (Chip.modRun f p) :=
  h.toRc (.inr ⟨rfl, Option.isSome_map⟩)

theorem Chip.setRead_cascade (e : Fin 8) (r : Option Read) {p : Chip} {a : Chip} (h : a.Cascade p) :
    a.Cascade (Chip.setRead e r p) := by
  unfold Chip.setRead
  dsimp only
  repeat' first
    | with_reducible assumption
    | split
    | refine Chip.Cascade.toLbp ?_

theorem Chip.modRead_cascade (e : Fin 8) (f : Read → Read) {p : Chip} {a : Chip} (h : a.Cascade p) :
    a.Cascade (Chip.modRead e f p) := by
  unfold Chip.modRead
  repeat' first
    | with_reducible assumption
    | with_reducible apply Chip.setRead_cascade

theorem Chip.offerRead_cascade (e : Fin 8) {p : Chip} {a : Chip} (h : a.Cascade p) :
    a.Cascade (Chip.offerRead e p) := by
  unfold Chip.offerRead
  repeat' first
    | with_reducible assumption
    | with_reducible apply Chip.offer_cascade
    | with_reducible apply Chip.modRead_cascade

theorem Chip.endWaitAt_cascade (w : Wait) {p : Chip} (e : Fin 8) {a : Chip} (h : a.Cascade p) :
    a.Cascade (Chip.endWaitAt w p e) := by
  unfold Chip.endWaitAt
  dsimp only
  repeat' first
    | with_reducible assumption
    | with_reducible apply Chip.setRead_cascade
    | with_reducible apply Chip.offerRead_cascade
    | split

theorem Chip.endWait_cascade (w : Wait) {p : Chip} {a : Chip} (h : a.Cascade p) :
    a.Cascade (Chip.endWait w p) := by
  unfold Chip.endWait
  repeat' first
    | with_reducible assumption
    | with_reducible apply Chip.endWaitAt_cascade
    | with_reducible refine Chip.Cascade.foldl ?_ ?_
    | intro _ _ _

theorem Chip.respond_cascade (r : Response) {p : Chip} {a : Chip} (h : a.Cascade p) :
    a.Cascade (Chip.respond r p) := by
  unfold Chip.respond
  dsimp only
  repeat' first
    | with_reducible assumption
    | split
    | refine Chip.Cascade.toLbp ?_

theorem Chip.noteOutput_cascade (r : Read) (material : OutRecord) {p : Chip} {a : Chip} (h : a.Cascade p) :
    a.Cascade (Chip.noteOutput r material p) := by
  unfold Chip.noteOutput
  dsimp only
  repeat' first
    | with_reducible assumption
    | split
    | refine Chip.Cascade.toLbp ?_

theorem Chip.completeRead_cascade (e : Fin 8) (words : List Word) (material : OutRecord)
    {p : Chip} {a : Chip} (h : a.Cascade p) :
    a.Cascade (Chip.completeRead e words material p) := by
  unfold Chip.completeRead
  repeat' first
    | with_reducible assumption
    | with_reducible apply Chip.setRead_cascade
    | with_reducible apply Chip.respond_cascade
    | with_reducible apply Chip.noteOutput_cascade
    | split

theorem Chip.completeZeros_cascade (e : Fin 8) {p : Chip} {a : Chip} (h : a.Cascade p) :
    a.Cascade (Chip.completeZeros e p) := by
  unfold Chip.completeZeros
  repeat' first
    | with_reducible assumption
    | with_reducible apply Chip.completeRead_cascade
    | split

theorem Chip.readProceed_cascade (e : Fin 8) {p : Chip} {a : Chip} (h : a.Cascade p) :
    a.Cascade (Chip.readProceed e p) := by
  unfold Chip.readProceed
  repeat' first
    | with_reducible assumption
    | with_reducible apply Chip.completeRead_cascade
    | split

theorem Chip.holdRead_cascade (e : Fin 8) (st : ReadState) {p : Chip} {a : Chip} (h : a.Cascade p) :
    a.Cascade (Chip.holdRead e st p) := by
  unfold Chip.holdRead
  repeat' first
    | with_reducible assumption
    | with_reducible apply Chip.bump_cascade
    | with_reducible apply Chip.setRead_cascade
    | split

theorem Chip.countLate_cascade (e : Fin 8) {p : Chip} {a : Chip} (h : a.Cascade p) :
    a.Cascade (Chip.countLate e p) := by
  unfold Chip.countLate
  repeat' first
    | with_reducible assumption
    | with_reducible apply Chip.bump_cascade
    | with_reducible apply Chip.setRead_cascade
    | split

theorem Chip.setReadValue_cascade (e : Fin 8) (index : Nat) (v : Word) {p : Chip} {a : Chip} (h : a.Cascade p) :
    a.Cascade (Chip.setReadValue e index v p) := by
  unfold Chip.setReadValue
  repeat' first
    | with_reducible assumption
    | with_reducible apply Chip.modRead_cascade

theorem Chip.reofferHeld_cascade (slot : Fin 128) {p : Chip} {a : Chip} (h : a.Cascade p) :
    a.Cascade (Chip.reofferHeld slot p) := by
  unfold Chip.reofferHeld
  repeat' first
    | with_reducible assumption
    | with_reducible apply Chip.offerRead_cascade
    | with_reducible refine Chip.Cascade.foldl ?_ ?_
    | intro _ _ _
    | split

theorem Chip.releaseReads_cascade {p : Chip} {a : Chip} (h : a.Cascade p) :
    a.Cascade (Chip.releaseReads p) := by
  unfold Chip.releaseReads
  repeat' first
    | with_reducible assumption
    | with_reducible apply Chip.completeZeros_cascade
    | with_reducible refine Chip.Cascade.foldl ?_ ?_
    | intro _ _ _
    | split

theorem Chip.setJob_cascade (j : Option CeJob) {p : Chip} {a : Chip} (h : a.Cascade p) :
    a.Cascade (Chip.setJob j p) := by
  unfold Chip.setJob
  dsimp only
  repeat' first
    | with_reducible assumption
    | split
    | refine Chip.Cascade.toCe ?_

theorem Chip.queueItem_cascade (it : CeItem) {p : Chip} {a : Chip} (h : a.Cascade p) :
    a.Cascade (Chip.queueItem it p) := by
  unfold Chip.queueItem
  dsimp only
  repeat' first
    | with_reducible assumption
    | split
    | refine Chip.Cascade.toCe ?_

theorem Chip.takeItem_cascade (it : CeItem) (j : CeJob) {p : Chip} {a : Chip} (h : a.Cascade p) :
    a.Cascade (Chip.takeItem it j p) := by
  unfold Chip.takeItem
  repeat' first
    | with_reducible assumption
    | split
    | refine Chip.Cascade.toCe ?_

theorem Chip.offerCodeWrite_cascade (j : CodeJob) {p : Chip} {a : Chip} (h : a.Cascade p) :
    a.Cascade (Chip.offerCodeWrite j p) := by
  unfold Chip.offerCodeWrite
  repeat' first
    | with_reducible assumption
    | with_reducible apply Chip.offer_cascade
    | with_reducible apply Chip.setJob_cascade

theorem Chip.beginCodeBlock_cascade (j : CodeJob) {p : Chip} {a : Chip} (h : a.Cascade p) :
    a.Cascade (Chip.beginCodeBlock j p) := by
  unfold Chip.beginCodeBlock
  dsimp only
  repeat' first
    | with_reducible assumption
    | with_reducible apply Chip.offer_cascade
    | with_reducible apply Chip.setJob_cascade
    | with_reducible apply Chip.offerCodeWrite_cascade
    | split

theorem Chip.codeProceed_cascade {p : Chip} {a : Chip} (h : a.Cascade p) :
    a.Cascade (Chip.codeProceed p) := by
  unfold Chip.codeProceed
  repeat' first
    | with_reducible assumption
    | with_reducible apply Chip.setJob_cascade
    | with_reducible apply Chip.offerCodeWrite_cascade
    | split

theorem Chip.captureProceed_cascade (id : Nat) {p : Chip} {a : Chip} (h : a.Cascade p) :
    a.Cascade (Chip.captureProceed id p) := by
  unfold Chip.captureProceed
  dsimp only
  repeat' first
    | with_reducible assumption
    | with_reducible apply Chip.offer_cascade
    | split
    | refine Chip.Cascade.toEcu ?_

theorem Chip.saveProceed_cascade {p : Chip} {a : Chip} (h : a.Cascade p) :
    a.Cascade (Chip.saveProceed p) := by
  unfold Chip.saveProceed
  dsimp only
  repeat' first
    | with_reducible assumption
    | with_reducible apply Chip.offer_cascade
    | split
    | refine Chip.Cascade.toEcu ?_

theorem Chip.dropEval_cascade (id : Nat) {p : Chip} {a : Chip} (h : a.Cascade p) :
    a.Cascade (Chip.dropEval id p) := by
  unfold Chip.dropEval
  dsimp only
  repeat' first
    | with_reducible assumption
    | split
    | refine Chip.Cascade.toCu ?_

theorem Chip.putEval_cascade (e : Evaluation) {p : Chip} {a : Chip} (h : a.Cascade p) :
    a.Cascade (Chip.putEval e p) := by
  unfold Chip.putEval
  dsimp only
  repeat' first
    | with_reducible assumption
    | split
    | refine Chip.Cascade.toCu ?_

theorem Chip.deliver_cascade (asker : Asker) (v : Int) {p : Chip} {a : Chip} (h : a.Cascade p) :
    a.Cascade (Chip.deliver asker v p) := by
  unfold Chip.deliver
  dsimp only
  repeat' first
    | with_reducible assumption
    | with_reducible apply Chip.setReadValue_cascade
    | with_reducible apply Chip.setJob_cascade
    | split
    | refine Chip.Cascade.toEcu ?_

theorem Chip.proceed_cascade (asker : Asker) {p : Chip} {a : Chip} (h : a.Cascade p) :
    a.Cascade (Chip.proceed asker p) := by
  unfold Chip.proceed
  repeat' first
    | with_reducible assumption
    | with_reducible apply Chip.readProceed_cascade
    | with_reducible apply Chip.codeProceed_cascade
    | with_reducible apply Chip.captureProceed_cascade
    | with_reducible apply Chip.saveProceed_cascade
    | split

theorem Chip.applyScan_cascade (id : Nat) (asker : Asker) (r : ScanResult) {p : Chip} {a : Chip} (h : a.Cascade p) :
    a.Cascade (Chip.applyScan id asker r p) := by
  unfold Chip.applyScan
  dsimp only
  repeat' first
    | with_reducible assumption
    | with_reducible apply Chip.offer_cascade
    | with_reducible apply Chip.holdRead_cascade
    | with_reducible apply Chip.countLate_cascade
    | with_reducible apply Chip.dropEval_cascade
    | with_reducible apply Chip.putEval_cascade
    | with_reducible apply Chip.deliver_cascade
    | split

theorem Chip.startEval_cascade (segment pair channel : Nat) (asker : Asker) {p : Chip} {a : Chip} (h : a.Cascade p) :
    a.Cascade (Chip.startEval segment pair channel asker p) := by
  unfold Chip.startEval
  dsimp only
  repeat' first
    | with_reducible assumption
    | with_reducible apply Chip.applyScan_cascade
    | split
    | refine Chip.Cascade.toCu ?_

theorem Chip.resumeHeld_cascade (segment : Nat) {p : Chip} {a : Chip} (h : a.Cascade p) :
    a.Cascade (Chip.resumeHeld segment p) := by
  unfold Chip.resumeHeld
  repeat' first
    | with_reducible assumption
    | with_reducible apply Chip.applyScan_cascade
    | with_reducible refine Chip.Cascade.foldl ?_ ?_
    | intro _ _ _

theorem Chip.endHeldOf_cascade (entry : Fin 8) {p : Chip} {a : Chip} (h : a.Cascade p) :
    a.Cascade (Chip.endHeldOf entry p) := by
  unfold Chip.endHeldOf
  repeat' first
    | with_reducible assumption
    | with_reducible apply Chip.applyScan_cascade
    | with_reducible refine Chip.Cascade.foldl ?_ ?_
    | intro _ _ _
    | split

theorem Chip.endReadEvals_cascade {p : Chip} {a : Chip} (h : a.Cascade p) :
    a.Cascade (Chip.endReadEvals p) := by
  unfold Chip.endReadEvals
  dsimp only
  repeat' first
    | with_reducible assumption
    | with_reducible apply Chip.withdraw_cascade
    | with_reducible apply Chip.dropEval_cascade
    | with_reducible refine Chip.Cascade.foldl ?_ ?_
    | intro _ _ _
    | split

theorem Chip.noteAux_cascade (j : DecodeJob) {p : Chip} {a : Chip} (h : a.Cascade p) :
    a.Cascade (Chip.noteAux j p) := by
  unfold Chip.noteAux
  dsimp only
  repeat' first
    | with_reducible assumption
    | with_reducible apply Chip.raise_cascade
    | split

theorem Chip.decodeAdvance_cascade (j : DecodeJob) {p : Chip} {a : Chip} (h : a.Cascade p) :
    a.Cascade (Chip.decodeAdvance j p) := by
  unfold Chip.decodeAdvance
  dsimp only
  repeat' first
    | with_reducible assumption
    | with_reducible apply Chip.offer_cascade
    | with_reducible apply Chip.setJob_cascade
    | with_reducible apply Chip.noteAux_cascade
    | split

theorem Chip.unqueue_cascade (out : CeItem → Bool) {p : Chip} {a : Chip} (h : a.Cascade p) :
    a.Cascade (Chip.unqueue out p) := by
  unfold Chip.unqueue
  dsimp only
  repeat' first
    | with_reducible assumption
    | split
    | refine Chip.Cascade.toCe ?_

theorem Chip.voidDecode_cascade (i : Fin 128) {p : Chip} {a : Chip} (h : a.Cascade p) :
    a.Cascade (Chip.voidDecode i p) := by
  unfold Chip.voidDecode
  dsimp only
  repeat' first
    | with_reducible assumption
    | with_reducible apply Chip.withdraw_cascade
    | with_reducible apply Chip.setJob_cascade
    | with_reducible apply Chip.decodeAdvance_cascade
    | with_reducible apply Chip.unqueue_cascade
    | split

theorem Chip.voidCode_cascade (i : Fin 128) {p : Chip} {a : Chip} (h : a.Cascade p) :
    a.Cascade (Chip.voidCode i p) := by
  unfold Chip.voidCode
  dsimp only
  repeat' first
    | with_reducible assumption
    | with_reducible apply Chip.withdraw_cascade
    | with_reducible apply Chip.setJob_cascade
    | with_reducible apply Chip.unqueue_cascade
    | split

theorem Chip.setImage_cascade (u : Fin 256) (r : ImageRecord) {p : Chip} {a : Chip} (h : a.Cascade p) :
    a.Cascade (Chip.setImage u r p) := by
  unfold Chip.setImage
  dsimp only
  repeat' first
    | with_reducible assumption
    | split
    | refine Chip.Cascade.toEcu ?_

theorem Chip.freeImage_cascade (u : Fin 256) {p : Chip} {a : Chip} (h : a.Cascade p) :
    a.Cascade (Chip.freeImage u p) := by
  unfold Chip.freeImage
  repeat' first
    | with_reducible assumption
    | with_reducible apply Chip.setImage_cascade

theorem Chip.offerMirror_cascade (place : Nat) (ws : List Word) {p : Chip} {a : Chip} (h : a.Cascade p) :
    a.Cascade (Chip.offerMirror place ws p) := by
  unfold Chip.offerMirror
  dsimp only
  repeat' first
    | with_reducible assumption
    | with_reducible apply Chip.offer_cascade

theorem Chip.pushEntry_cascade (e : StackEntry) {p : Chip} {a : Chip} (h : a.Cascade p) :
    a.Cascade (Chip.pushEntry e p) := by
  unfold Chip.pushEntry
  dsimp only
  repeat' first
    | with_reducible assumption
    | with_reducible apply Chip.offerMirror_cascade
    | split
    | refine Chip.Cascade.toEcu ?_

theorem Chip.freeNamed_cascade (e : StackEntry) {p : Chip} {a : Chip} (h : a.Cascade p) :
    a.Cascade (Chip.freeNamed e p) := by
  unfold Chip.freeNamed
  repeat' first
    | with_reducible assumption
    | with_reducible apply Chip.freeImage_cascade
    | split

theorem Chip.popEntry_cascade {p : Chip} {a : Chip} (h : a.Cascade p) :
    a.Cascade (Chip.popEntry p) := by
  unfold Chip.popEntry
  dsimp only
  repeat' first
    | with_reducible assumption
    | with_reducible apply Chip.offerMirror_cascade
    | with_reducible apply Chip.freeNamed_cascade
    | split
    | refine Chip.Cascade.toEcu ?_

theorem Chip.dropEntry_cascade {p : Chip} {a : Chip} (h : a.Cascade p) :
    a.Cascade (Chip.dropEntry p) := by
  unfold Chip.dropEntry
  dsimp only
  repeat' first
    | with_reducible assumption
    | with_reducible apply Chip.offerMirror_cascade
    | with_reducible apply Chip.freeNamed_cascade
    | split
    | refine Chip.Cascade.toEcu ?_

theorem Chip.dropRun_cascade {p : Chip} {a : Chip} (h : a.Cascade p) :
    a.Cascade (Chip.dropRun p) := by
  unfold Chip.dropRun
  dsimp only
  repeat' first
    | with_reducible assumption
    | with_reducible apply Chip.dropEntry_cascade
    | with_reducible refine Chip.Cascade.foldl ?_ ?_
    | intro _ _ _

theorem secure_cascade (met : Ecu → Bool) (n : Nat) {p : Chip} {a : Chip} (h : a.Cascade p) :
    a.Cascade (secure met n p) := by
  induction n generalizing p with
  | zero => exact h
  | succ n ih =>
    unfold secure
    split
    · exact h
    · exact ih (Chip.dropRun_cascade h)

theorem Chip.secureWords_cascade (n : Nat) {p : Chip} {a : Chip} (h : a.Cascade p) :
    a.Cascade (Chip.secureWords n p) := by
  unfold Chip.secureWords
  repeat' first
    | with_reducible assumption
    | with_reducible apply secure_cascade

theorem Chip.secureImage_cascade {p : Chip} {a : Chip} (h : a.Cascade p) :
    a.Cascade (Chip.secureImage p) := by
  unfold Chip.secureImage
  repeat' first
    | with_reducible assumption
    | with_reducible apply Chip.freeImage_cascade
    | with_reducible apply secure_cascade

theorem Chip.voidSaving_cascade (j : SaveJob) {p : Chip} {a : Chip} (h : a.Cascade p) :
    a.Cascade (Chip.voidSaving j p) := by
  unfold Chip.voidSaving
  dsimp only
  repeat' first
    | with_reducible assumption
    | with_reducible apply Chip.withdraw_cascade
    | with_reducible apply Chip.saveProceed_cascade
    | with_reducible apply Chip.freeImage_cascade
    | split
    | refine Chip.Cascade.toEcu ?_

theorem Chip.voidSave_cascade (i : Fin 128) {p : Chip} {a : Chip} (h : a.Cascade p) :
    a.Cascade (Chip.voidSave i p) := by
  unfold Chip.voidSave
  dsimp only
  repeat' first
    | with_reducible assumption
    | with_reducible apply Chip.modSlot_cascade
    | with_reducible apply Chip.freeImage_cascade
    | with_reducible apply Chip.voidSaving_cascade
    | exact Nat.le_refl _
    | with_reducible refine Chip.Cascade.foldl ?_ ?_
    | intro _ _ _
    | split
    | refine Chip.Cascade.toEcu ?_

theorem Chip.beginLoad_cascade (l : Load) {p : Chip} {a : Chip} (h : a.Cascade p) :
    a.Cascade (Chip.beginLoad l p) := by
  unfold Chip.beginLoad
  dsimp only
  repeat' first
    | with_reducible assumption
    | with_reducible apply Chip.offer_cascade
    | split
    | refine Chip.Cascade.toEcu ?_

theorem Chip.dropLoad_cascade (i : Fin 128) {p : Chip} {a : Chip} (h : a.Cascade p) :
    a.Cascade (Chip.dropLoad i p) := by
  unfold Chip.dropLoad
  dsimp only
  repeat' first
    | with_reducible assumption
    | split
    | refine Chip.Cascade.toEcu ?_

theorem Chip.voidLoad_cascade (i : Fin 128) {p : Chip} {a : Chip} (h : a.Cascade p) :
    a.Cascade (Chip.voidLoad i p) := by
  unfold Chip.voidLoad
  repeat' first
    | with_reducible assumption
    | with_reducible apply Chip.withdraw_cascade
    | with_reducible apply Chip.dropLoad_cascade
    | split

theorem Chip.withdrawFetch_cascade {p : Chip} {a : Chip} (h : a.Cascade p) : a.Cascade (Chip.withdrawFetch p) := by
  unfold Chip.withdrawFetch
  split
  · exact Chip.withdraw_cascade _ (h.toDlc (h12 := nofun))
  · exact h

theorem Chip.withdrawFetchOf_cascade (i : Fin 128) {p : Chip} {a : Chip} (h : a.Cascade p) :
    a.Cascade (Chip.withdrawFetchOf i p) := by
  unfold Chip.withdrawFetchOf
  repeat' first
    | with_reducible assumption
    | with_reducible apply Chip.withdrawFetch_cascade
    | split

theorem Chip.queueDecode_cascade (i : Fin 128) {p : Chip} {a : Chip} (h : a.Cascade p) :
    a.Cascade (Chip.queueDecode i p) := by
  unfold Chip.queueDecode
  dsimp only
  repeat' first
    | with_reducible assumption
    | with_reducible apply Chip.setSlot_cascade
    | with_reducible apply Chip.queueItem_cascade
    | exact Nat.le_refl _

theorem Chip.giveUpPlay_cascade (i : Fin 128) {p : Chip} {a : Chip} (h : a.Cascade p) :
    a.Cascade (Chip.giveUpPlay i p) := by
  unfold Chip.giveUpPlay
  repeat' first
    | with_reducible assumption
    | with_reducible apply Chip.queueDecode_cascade
    | split

theorem Chip.queueTest_cascade (i : Fin 128) {p : Chip} {a : Chip} (h : a.Cascade p) :
    a.Cascade (Chip.queueTest i p) := by
  unfold Chip.queueTest
  dsimp only
  repeat' first
    | with_reducible assumption
    | with_reducible apply Chip.queueItem_cascade
    | split

theorem Chip.moveWindow_cascade {p : Chip} {a : Chip} (h : a.Cascade p) :
    a.Cascade (Chip.moveWindow p) := by
  unfold Chip.moveWindow
  repeat' first
    | with_reducible assumption
    | with_reducible apply Chip.modRun_cascade

theorem Chip.releaseSlot_cascade (i : Fin 128) {p : Chip} {a : Chip} (h : a.Cascade p) :
    a.Cascade (Chip.releaseSlot i p) := by
  unfold Chip.releaseSlot
  dsimp only
  repeat' first
    | with_reducible assumption
    | with_reducible apply Chip.modSlot_cascade
    | with_reducible apply Chip.voidDecode_cascade
    | with_reducible apply Chip.voidCode_cascade
    | with_reducible apply Chip.voidSave_cascade
    | with_reducible apply Chip.voidLoad_cascade
    | with_reducible apply Chip.withdrawFetchOf_cascade
    | exact Nat.le_refl _

theorem Chip.release_cascade (i : Fin 128) {p : Chip} {a : Chip} (h : a.Cascade p) :
    a.Cascade (Chip.release i p) := by
  unfold Chip.release
  repeat' first
    | with_reducible assumption
    | with_reducible apply Chip.moveWindow_cascade
    | with_reducible apply Chip.releaseSlot_cascade

theorem Chip.releaseTest_cascade (i : Fin 128) {p : Chip} {a : Chip} (h : a.Cascade p) :
    a.Cascade (Chip.releaseTest i p) := by
  unfold Chip.releaseTest
  repeat' first
    | with_reducible assumption
    | with_reducible apply Chip.release_cascade
    | split

theorem Chip.releaseAll_cascade {p : Chip} {a : Chip} (h : a.Cascade p) :
    a.Cascade (Chip.releaseAll p) := by
  unfold Chip.releaseAll
  dsimp only
  repeat' first
    | with_reducible assumption
    | with_reducible apply Chip.modSlot_cascade
    | with_reducible apply Chip.releaseSlot_cascade
    | exact Nat.le_refl _
    | with_reducible refine Chip.Cascade.foldl ?_ ?_
    | intro _ _ _
    | split

theorem Chip.settle_cascade {p : Chip} {a : Chip} (h : a.Cascade p) :
    a.Cascade (Chip.settle p) := by
  unfold Chip.settle
  repeat' first
    | with_reducible assumption
    | with_reducible apply Chip.modRun_cascade

theorem Chip.discardWrite_cascade (i : Fin 128) {p : Chip} {a : Chip} (h : a.Cascade p) :
    a.Cascade (Chip.discardWrite i p) := by
  unfold Chip.discardWrite
  dsimp only
  repeat' first
    | with_reducible assumption
    | with_reducible apply Chip.modSlot_cascade
    | with_reducible apply Chip.voidCode_cascade
    | with_reducible apply Chip.voidSave_cascade
    | with_reducible apply Chip.voidLoad_cascade
    | with_reducible apply Chip.withdrawFetchOf_cascade
    | exact Nat.le_refl _

theorem Chip.setAside_cascade (i : Fin 128) {p : Chip} {a : Chip} (h : a.Cascade p) :
    a.Cascade (Chip.setAside i p) := by
  unfold Chip.setAside
  repeat' first
    | with_reducible assumption
    | with_reducible apply Chip.modSlot_cascade
    | with_reducible apply Chip.voidSave_cascade
    | with_reducible apply Chip.settle_cascade
    | exact Nat.le_refl _

theorem Chip.closeByDue_cascade (i : Fin 128) {p : Chip} {a : Chip} (h : a.Cascade p) :
    a.Cascade (Chip.closeByDue i p) := by
  unfold Chip.closeByDue
  dsimp only
  repeat' first
    | with_reducible assumption
    | with_reducible apply Chip.modSlot_cascade
    | with_reducible apply Chip.bump_cascade
    | with_reducible apply Chip.queueTest_cascade
    | exact Nat.le_refl _

theorem Chip.claimPassed_cascade (r : RunRecord) (i : Fin 128) {p : Chip} {a : Chip} (h : a.Cascade p) :
    a.Cascade (Chip.claimPassed r i p) := by
  unfold Chip.claimPassed
  dsimp only
  repeat' first
    | with_reducible assumption
    | with_reducible apply Chip.raise_cascade
    | with_reducible apply Chip.handOmit_cascade
    | with_reducible apply Chip.release_cascade
    | with_reducible apply Chip.settle_cascade
    | with_reducible apply Chip.discardWrite_cascade
    | with_reducible apply Chip.closeByDue_cascade
    | split

theorem Chip.beginLoadOf_cascade (i : Fin 128) {p : Chip} {a : Chip} (h : a.Cascade p) :
    a.Cascade (Chip.beginLoadOf i p) := by
  unfold Chip.beginLoadOf
  dsimp only
  repeat' first
    | with_reducible assumption
    | with_reducible apply Chip.beginLoad_cascade
    | split

theorem Chip.claimSlot_cascade (r : RunRecord) (q : Nat) (i : Fin 128) {p : Chip} {a : Chip} (h : a.Cascade p) :
    a.Cascade (Chip.claimSlot r q i p) := by
  unfold Chip.claimSlot
  have h0 : a.Cascade (p.setSlot i (p.claimedSlot r q (p.slot i))) :=
    Chip.setSlot_cascade i _ (Nat.le_succ _) h
  generalize p.setSlot i (p.claimedSlot r q (p.slot i)) = x at h0
  dsimp only
  repeat' first
    | with_reducible assumption
    | with_reducible apply Chip.queueDecode_cascade
    | with_reducible apply Chip.claimPassed_cascade
    | with_reducible apply Chip.beginLoadOf_cascade
    | split

theorem Chip.claim_cascade (q : Nat) {p : Chip} {a : Chip} (h : a.Cascade p) :
    a.Cascade (Chip.claim q p) := by
  unfold Chip.claim
  dsimp only
  repeat' first
    | with_reducible assumption
    | with_reducible apply Chip.claimSlot_cascade
    | split

theorem Chip.consume_cascade (segment : Nat) {p : Chip} {a : Chip} (h : a.Cascade p) :
    a.Cascade (Chip.consume segment p) := by
  unfold Chip.consume
  dsimp only
  repeat' first
    | with_reducible assumption
    | with_reducible apply Chip.modSlot_cascade
    | with_reducible apply Chip.releaseTest_cascade
    | exact Nat.le_refl _
    | split

theorem Chip.unpin_cascade (i : Fin 128) {p : Chip} {a : Chip} (h : a.Cascade p) :
    a.Cascade (Chip.unpin i p) := by
  unfold Chip.unpin
  repeat' first
    | with_reducible assumption
    | with_reducible apply Chip.modSlot_cascade
    | with_reducible apply Chip.releaseTest_cascade
    | exact Nat.le_refl _

theorem Chip.writeDone_cascade (i : Fin 128) {p : Chip} {a : Chip} (h : a.Cascade p) :
    a.Cascade (Chip.writeDone i p) := by
  unfold Chip.writeDone
  dsimp only
  repeat' first
    | with_reducible assumption
    | with_reducible apply Chip.modSlot_cascade
    | with_reducible apply Chip.modRun_cascade
    | with_reducible apply Chip.releaseTest_cascade
    | with_reducible apply Chip.settle_cascade
    | exact Nat.le_refl _
    | split

theorem Chip.rowAcked_cascade (e : Retained) {p : Chip} {a : Chip} (h : a.Cascade p) :
    a.Cascade (Chip.rowAcked e p) := by
  unfold Chip.rowAcked
  dsimp only
  repeat' first
    | with_reducible assumption
    | with_reducible apply Chip.modSlot_cascade
    | with_reducible apply Chip.writeDone_cascade
    | exact Nat.le_refl _
    | split

theorem Chip.passCursor_cascade (r : RunRecord) {p : Chip} {a : Chip} (h : a.Cascade p) :
    a.Cascade (Chip.passCursor r p) := by
  unfold Chip.passCursor
  dsimp only
  repeat' first
    | with_reducible assumption
    | with_reducible apply Chip.release_cascade
    | split
    | refine Chip.Cascade.toDlc ?_

theorem Chip.cursorStep_cascade {p q : Chip} {a : Chip} (hq : p.cursorStep = some q) (h : a.Cascade p) :
    a.Cascade q := by
  unfold Chip.cursorStep at hq
  split at hq
  · cases hq
  · split at hq
    · cases hq
      exact Chip.passCursor_cascade _ h
    · cases hq

theorem progressLoop_cascade (n : Nat) {p : Chip} {a : Chip} (h : a.Cascade p) : a.Cascade (progressLoop n p) := by
  induction n generalizing p with
  | zero => exact h
  | succ n ih =>
    unfold progressLoop
    split
    · rename_i hq
      exact ih (Chip.cursorStep_cascade hq h)
    · split
      · exact ih (Chip.claim_cascade _ h)
      · exact h

theorem Chip.progress_cascade {p : Chip} {a : Chip} (h : a.Cascade p) : a.Cascade (Chip.progress p) := by
  unfold Chip.progress
  split
  · exact h
  · exact progressLoop_cascade _ h

theorem Chip.maySend_room {p : Chip} {r : RunRecord} (h : p.maySend r = true) :
    p.dlc.retention.length < Config.retentionMax := by
  unfold Chip.maySend at h
  simp only [Bool.and_eq_true, decide_eq_true_eq] at h
  exact h.2

theorem Chip.offerFetch_cascade {p : Chip} {a : Chip} (h : a.Cascade p) : a.Cascade (Chip.offerFetch p) := by
  unfold Chip.offerFetch
  split
  · exact h
  · split
    · rename_i hs
      exact Chip.offer_cascade _ (h.toDlc (h12 := fun _ => .inr (Chip.maySend_room hs)))
    · exact h

theorem Chip.setClip_cascade (k : Fin 4) (c : Clip) {p : Chip} {a : Chip} (h : a.Cascade p) :
    a.Cascade (Chip.setClip k c p) := by
  unfold Chip.setClip
  dsimp only
  repeat' first
    | with_reducible assumption
    | split
    | refine Chip.Cascade.toEcu ?_

theorem Chip.dropCapture_cascade (c : Capture) {p : Chip} {a : Chip} (h : a.Cascade p) :
    a.Cascade (Chip.dropCapture c p) := by
  unfold Chip.dropCapture
  dsimp only
  repeat' first
    | with_reducible assumption
    | with_reducible apply Chip.withdraw_cascade
    | with_reducible apply Chip.unpin_cascade
    | with_reducible apply Chip.setClip_cascade
    | with_reducible refine Chip.Cascade.foldl ?_ ?_
    | intro _ _ _
    | split
    | refine Chip.Cascade.toEcu ?_

theorem Chip.setMap_cascade (m : ModeMap) {p : Chip} {a : Chip} (hi : p.rc.state = .idle) (h : a.Cascade p) :
    a.Cascade (Chip.setMap m p) := by
  refine h.trans { Chip.Cascade.refl p with run := .inl hi }

theorem Chip.endCaptureForMap_cascade {p : Chip} {a : Chip} (h : a.Cascade p) :
    a.Cascade (Chip.endCaptureForMap p) := by
  unfold Chip.endCaptureForMap
  repeat' first
    | with_reducible assumption
    | with_reducible apply Chip.report_cascade
    | with_reducible apply Chip.dropCapture_cascade
    | split

/-- A MODE_MAP application is inner work where the run is IDLE. -/
theorem Chip.applyMap_cascade (m : ModeMap) {p : Chip} {a : Chip} (hi : p.rc.state = .idle) (h : a.Cascade p) :
    a.Cascade (Chip.applyMap m p) := by
  unfold Chip.applyMap
  have k : p.Cascade ((p.endCaptureForMap.releaseAll).endReadEvals).releaseReads :=
    Chip.releaseReads_cascade (Chip.endReadEvals_cascade (Chip.releaseAll_cascade (Chip.endCaptureForMap_cascade
      (Chip.Cascade.refl p))))
  exact Chip.dirtyRunWords_cascade (Chip.setMap_cascade m (k.run.elim id fun x => x.1.trans hi) (h.trans k))

theorem Chip.applySignal_cascade (m : ModeSignal) {p : Chip} {a : Chip} (h : a.Cascade p) :
    a.Cascade (Chip.applySignal m p) := by
  unfold Chip.applySignal
  dsimp only
  repeat' first
    | with_reducible assumption
    | split
    | refine Chip.Cascade.toCpm ?_

theorem Chip.applyLink_cascade (m : ModeLink) {p : Chip} {a : Chip} (h : a.Cascade p) :
    a.Cascade (Chip.applyLink m p) := by
  unfold Chip.applyLink
  dsimp only
  repeat' first
    | with_reducible assumption
    | split
    | refine Chip.Cascade.toCpm ?_

theorem Chip.applyEdit_cascade (m : ModeEdit) {p : Chip} {a : Chip} (h : a.Cascade p) :
    a.Cascade (Chip.applyEdit m p) := by
  unfold Chip.applyEdit
  dsimp only
  repeat' first
    | with_reducible assumption
    | split
    | refine Chip.Cascade.toCpm ?_

theorem Chip.applyHeld_cascade {α : Type} (held : Option α) {apply : α → Chip → Chip} {p : Chip} {a : Chip}
    (hp : ∀ m, a.Cascade (apply m p)) (h : a.Cascade p) : a.Cascade (Chip.applyHeld held apply p) := by
  unfold Chip.applyHeld
  split
  · exact hp _
  · exact h

/-- The pending mode values are applied where the run is IDLE. -/
theorem Chip.applyPending_cascade {p : Chip} {a : Chip} (hi : p.rc.state = .idle) (h : a.Cascade p) :
    a.Cascade (Chip.applyPending p) := by
  unfold Chip.applyPending
  have h0 : a.Cascade { p with
      cpm := { p.cpm with pendingMap := none, pendingSignal := none, pendingLink := none, pendingEdit := none } } :=
    h.toCpm
  have hi0 : { p with
      cpm := { p.cpm with pendingMap := none, pendingSignal := none, pendingLink := none,
                          pendingEdit := none } }.rc.state = .idle := hi
  generalize { p with
      cpm := { p.cpm with pendingMap := none, pendingSignal := none, pendingLink := none,
                          pendingEdit := none } } = q at h0 hi0
  have h1 := Chip.applyHeld_cascade p.cpm.pendingMap (fun m => Chip.applyMap_cascade m hi0 h0) h0
  have h2 := Chip.applyHeld_cascade p.cpm.pendingSignal (fun m => Chip.applySignal_cascade m h1) h1
  have h3 := Chip.applyHeld_cascade p.cpm.pendingLink (fun m => Chip.applyLink_cascade m h2) h2
  exact Chip.applyHeld_cascade p.cpm.pendingEdit (fun m => Chip.applyEdit_cascade m h3) h3

theorem Chip.endClip_cascade (r : RunRecord) {p : Chip} {a : Chip} (h : a.Cascade p) :
    a.Cascade (Chip.endClip r p) := by
  unfold Chip.endClip
  dsimp only
  repeat' first
    | with_reducible assumption
    | with_reducible apply Chip.setClip_cascade
    | split

theorem Chip.endSaves_cascade (r : RunRecord) {p : Chip} {a : Chip} (h : a.Cascade p) :
    a.Cascade (Chip.endSaves r p) := by
  unfold Chip.endSaves
  dsimp only
  repeat' first
    | with_reducible assumption
    | with_reducible apply Chip.pushEntry_cascade
    | with_reducible apply Chip.secureWords_cascade
    | split
    | refine Chip.Cascade.toEcu ?_

theorem Chip.endEcu_cascade (r : RunRecord) (cause : EndCause) {p : Chip} {a : Chip} (h : a.Cascade p) :
    a.Cascade (Chip.endEcu r cause p) := by
  unfold Chip.endEcu
  repeat' first
    | with_reducible assumption
    | with_reducible apply Chip.popEntry_cascade
    | with_reducible apply Chip.endClip_cascade
    | with_reducible apply Chip.endSaves_cascade
    | with_reducible refine Chip.Cascade.foldl ?_ ?_
    | intro _ _ _
    | split

theorem Chip.answerStop_cascade (cause : EndCause) (omitted : Nat) {p : Chip} {a : Chip} (h : a.Cascade p) :
    a.Cascade (Chip.answerStop cause omitted p) := by
  unfold Chip.answerStop
  repeat' first
    | with_reducible assumption
    | with_reducible apply Chip.report_cascade
    | split

theorem Chip.enterIdle_cascade (cause : EndCause) {p : Chip} {a : Chip} (h : a.Cascade p) :
    a.Cascade (Chip.enterIdle cause p) := by
  unfold Chip.enterIdle
  split
  · exact h
  · rename_i r _
    dsimp only
    have h0 : a.Cascade { p with rc := ⟨.idle, some { r with endCause := cause, drainTimer := none }⟩ } :=
      h.toRc (.inl rfl)
    have k := Chip.noteStatus_cascade (Chip.raise_cascade (.runEnd r.tag cause r.kind (r.pops cause))
      (Chip.endEcu_cascade r cause (Chip.Cascade.refl
        { p with rc := ⟨.idle, some { r with endCause := cause, drainTimer := none }⟩ })))
    exact Chip.answerStop_cascade _ _ (Chip.applyPending_cascade (k.run.elim id fun x => x.1) (h0.trans k))

theorem Chip.checkEnd_cascade {p : Chip} {a : Chip} (h : a.Cascade p) :
    a.Cascade (Chip.checkEnd p) := by
  unfold Chip.checkEnd
  repeat' first
    | with_reducible assumption
    | with_reducible apply Chip.enterIdle_cascade
    | split

theorem Chip.finish_cascade {p : Chip} {a : Chip} (h : a.Cascade p) :
    a.Cascade (Chip.finish p) := by
  unfold Chip.finish
  repeat' first
    | with_reducible assumption
    | with_reducible apply Chip.noteStatus_cascade
    | with_reducible apply Chip.progress_cascade
    | with_reducible apply Chip.offerFetch_cascade
    | with_reducible apply Chip.checkEnd_cascade

theorem Chip.countOmit_cascade {p : Chip} {a : Chip} (h : a.Cascade p) :
    a.Cascade (Chip.countOmit p) := by
  unfold Chip.countOmit
  repeat' first
    | with_reducible assumption
    | with_reducible apply Chip.modRun_cascade

theorem Chip.drainWrite_cascade {p : Chip} (i : Fin 128) {a : Chip} (h : a.Cascade p) :
    a.Cascade (Chip.drainWrite p i) := by
  unfold Chip.drainWrite
  dsimp only
  repeat' first
    | with_reducible assumption
    | with_reducible apply Chip.handOmit_cascade
    | with_reducible apply Chip.discardWrite_cascade
    | with_reducible apply Chip.countOmit_cascade
    | split

theorem Chip.testReleases_cascade (slots : List (Fin 128)) {p : Chip} {a : Chip} (h : a.Cascade p) :
    a.Cascade (Chip.testReleases slots p) := by
  unfold Chip.testReleases
  repeat' first
    | with_reducible assumption
    | with_reducible apply Chip.releaseTest_cascade
    | with_reducible refine Chip.Cascade.foldl ?_ ?_
    | intro _ _ _

/-- The drain is inner work once the state is DRAINING. -/
theorem Chip.startDrain_cascade {p : Chip} {a : Chip} (h : a.Cascade { p with rc := { p.rc with state := .draining } }) :
    a.Cascade (Chip.startDrain p) := by
  unfold Chip.startDrain
  dsimp only
  refine Chip.testReleases_cascade _ (Chip.Cascade.foldl (fun q x hq => Chip.giveUpPlay_cascade x hq)
    (Chip.Cascade.foldl (fun q x hq => Chip.drainWrite_cascade x hq) (Chip.modRun_cascade _ h)))

theorem Chip.abandonRows_cascade {p : Chip} {a : Chip} (h : a.Cascade p) : a.Cascade (Chip.abandonRows p) := by
  unfold Chip.abandonRows
  have h0 : a.Cascade (p.dlc.retention.foldl (fun p e => p.unhandRow e.seq) p) :=
    Chip.Cascade.foldl (fun q e hq => Chip.unhandRow_cascade _ hq) h
  generalize p.dlc.retention.foldl (fun p e => p.unhandRow e.seq) p = q at h0
  exact h0.toDlc (h11 := by simp [Function.comp_def])

theorem Chip.giveUp_cascade {p : Chip} {a : Chip} (h : a.Cascade p) :
    a.Cascade (Chip.giveUp p) := by
  unfold Chip.giveUp
  dsimp only
  repeat' first
    | with_reducible assumption
    | with_reducible apply Chip.handOmit_cascade
    | with_reducible apply Chip.withdrawFetch_cascade
    | with_reducible apply Chip.discardWrite_cascade
    | with_reducible apply Chip.countOmit_cascade
    | with_reducible apply Chip.testReleases_cascade
    | with_reducible apply Chip.abandonRows_cascade
    | with_reducible refine Chip.Cascade.foldl ?_ ?_
    | intro _ _ _
    | split
    | refine Chip.Cascade.toDlc ?_

theorem Chip.abortRelease_cascade {p : Chip} (i : Fin 128) {a : Chip} (h : a.Cascade p) :
    a.Cascade (Chip.abortRelease p i) := by
  unfold Chip.abortRelease
  dsimp only
  repeat' first
    | with_reducible assumption
    | with_reducible apply Chip.release_cascade
    | with_reducible apply Chip.releaseTest_cascade
    | split

theorem Chip.abort_cascade {p : Chip} {a : Chip} (h : a.Cascade p) :
    a.Cascade (Chip.abort p) := by
  unfold Chip.abort
  dsimp only
  repeat' first
    | with_reducible assumption
    | with_reducible apply Chip.giveUpPlay_cascade
    | with_reducible apply Chip.discardWrite_cascade
    | with_reducible apply Chip.enterIdle_cascade
    | with_reducible apply Chip.abortRelease_cascade
    | with_reducible refine Chip.Cascade.foldl ?_ ?_
    | intro _ _ _
    | split

theorem Chip.startEdit_cascade (r : RunRecord) {p : Chip} {a : Chip} (h : a.Cascade p) :
    a.Cascade (Chip.startEdit r p) := by
  unfold Chip.startEdit
  dsimp only
  repeat' first
    | with_reducible assumption
    | with_reducible apply Chip.setClip_cascade
    | split
    | refine Chip.Cascade.toEcu ?_

theorem Chip.placeSlots_cascade (r : RunRecord) {p : Chip} {a : Chip} (h : a.Cascade p) :
    a.Cascade (Chip.placeSlots r p) := by
  unfold Chip.placeSlots
  repeat' first
    | with_reducible assumption
    | with_reducible apply Chip.modSlot_cascade
    | exact Nat.le_refl _
    | with_reducible refine Chip.Cascade.foldl ?_ ?_
    | intro _ _ _

theorem Chip.rejectWrite_cascade (initiator : Fin 8) (addr : Nat) {p : Chip} {a : Chip} (h : a.Cascade p) :
    a.Cascade (Chip.rejectWrite initiator addr p) := by
  unfold Chip.rejectWrite
  repeat' first
    | with_reducible assumption
    | with_reducible apply Chip.raise_cascade
    | with_reducible apply Chip.noteStatus_cascade

theorem Chip.protectWrite_cascade (initiator : Fin 8) (addr : Nat) {p : Chip} {a : Chip} (h : a.Cascade p) :
    a.Cascade (Chip.protectWrite initiator addr p) := by
  unfold Chip.protectWrite
  repeat' first
    | with_reducible assumption
    | with_reducible apply Chip.bump_cascade
    | with_reducible apply Chip.raise_cascade
    | with_reducible apply Chip.noteStatus_cascade

theorem Chip.track_cascade (e : Fin 8) (initiator : Fin 8) (tag addr len : Nat)
    {p : Chip} {a : Chip} (h : a.Cascade p) :
    a.Cascade (Chip.track e initiator tag addr len p) := by
  unfold Chip.track
  dsimp only
  repeat' first
    | with_reducible assumption
    | with_reducible apply Chip.setRead_cascade
    | with_reducible apply Chip.offerRead_cascade
    | split

theorem Chip.placeShadow_cascade (w : PostedWrite) {p : Chip} {a : Chip} (h : a.Cascade p) :
    a.Cascade (Chip.placeShadow w p) := by
  unfold Chip.placeShadow
  dsimp only
  repeat' first
    | with_reducible assumption
    | with_reducible refine Chip.Cascade.foldl ?_ ?_
    | intro _ _ _
    | split
    | refine Chip.Cascade.toCpm ?_

theorem Chip.strayWord_cascade (w : PostedWrite) (i : Fin 128) {p : Chip} {a : Chip} (h : a.Cascade p) :
    a.Cascade (Chip.strayWord w i p) := by
  unfold Chip.strayWord
  dsimp only
  repeat' first
    | with_reducible assumption
    | with_reducible apply Chip.bump_cascade
    | with_reducible apply Chip.raise_cascade
    | split
    | refine Chip.Cascade.toLbp ?_

theorem Chip.acceptWord_cascade (place : ViewPlace) (data : Word) {p : Chip} {a : Chip} (h : a.Cascade p) :
    a.Cascade (Chip.acceptWord place data p) := by
  unfold Chip.acceptWord
  dsimp only
  repeat' first
    | with_reducible assumption
    | with_reducible apply Chip.modSlot_cascade
    | with_reducible apply Chip.bump_cascade
    | exact Nat.le_refl _

theorem Chip.foldBurst_cascade (initiator : Fin 8) (i : Fin 128) {p : Chip} {a : Chip} (h : a.Cascade p) :
    a.Cascade (Chip.foldBurst initiator i p) := by
  unfold Chip.foldBurst
  dsimp only
  repeat' first
    | with_reducible assumption
    | with_reducible apply Chip.modSlot_cascade
    | exact Nat.le_refl _

theorem Chip.refuse_cascade (initiator : Fin 8) (i : Fin 128) {p : Chip} {a : Chip} (h : a.Cascade p) :
    a.Cascade (Chip.refuse initiator i p) := by
  unfold Chip.refuse
  dsimp only
  repeat' first
    | with_reducible assumption
    | with_reducible apply Chip.modSlot_cascade
    | with_reducible apply Chip.bump_cascade
    | with_reducible apply Chip.raise_cascade
    | with_reducible apply Chip.releaseTest_cascade
    | with_reducible apply Chip.setAside_cascade
    | exact Nat.le_refl _
    | split

theorem Chip.closeIfComplete_cascade (i : Fin 128) {p : Chip} {a : Chip} (h : a.Cascade p) :
    a.Cascade (Chip.closeIfComplete i p) := by
  unfold Chip.closeIfComplete
  repeat' first
    | with_reducible assumption
    | with_reducible apply Chip.modSlot_cascade
    | with_reducible apply Chip.queueTest_cascade
    | exact Nat.le_refl _
    | split

theorem Chip.endBurst_cascade (initiator : Fin 8) (i : Fin 128) {p : Chip} {a : Chip} (h : a.Cascade p) :
    a.Cascade (Chip.endBurst initiator i p) := by
  unfold Chip.endBurst
  dsimp only
  repeat' first
    | with_reducible assumption
    | with_reducible apply Chip.foldBurst_cascade
    | with_reducible apply Chip.refuse_cascade
    | with_reducible apply Chip.closeIfComplete_cascade
    | split

theorem Chip.concealWords_cascade (e : Fin 8) (segment : Nat) (place : ViewPlace) (ws : List (Nat × WordFlag))
    {p : Chip} {a : Chip} (h : a.Cascade p) :
    a.Cascade (Chip.concealWords e segment place ws p) := by
  unfold Chip.concealWords
  repeat' first
    | with_reducible assumption
    | with_reducible apply Chip.startEval_cascade
    | with_reducible refine Chip.Cascade.foldl ?_ ?_
    | intro _ _ _
    | split

theorem Chip.takeFetched_cascade (e : Fin 8) (place : ViewPlace) (ws : List (Nat × WordFlag))
    {p : Chip} {a : Chip} (h : a.Cascade p) :
    a.Cascade (Chip.takeFetched e place ws p) := by
  unfold Chip.takeFetched
  dsimp only
  repeat' first
    | with_reducible assumption
    | with_reducible apply Chip.bump_cascade
    | with_reducible apply Chip.modRead_cascade
    | with_reducible apply Chip.readProceed_cascade
    | with_reducible apply Chip.concealWords_cascade
    | split

theorem Chip.holdOnSlot_cascade (e : Fin 8) {p : Chip} {a : Chip} (h : a.Cascade p) :
    a.Cascade (Chip.holdOnSlot e p) := by
  unfold Chip.holdOnSlot
  repeat' first
    | with_reducible assumption
    | with_reducible apply Chip.completeZeros_cascade
    | with_reducible apply Chip.holdRead_cascade
    | with_reducible apply Chip.countLate_cascade
    | split

theorem Chip.noteClamp_cascade (mode : Nat) (marks : Nat) {p : Chip} {a : Chip} (h : a.Cascade p) :
    a.Cascade (Chip.noteClamp mode marks p) := by
  unfold Chip.noteClamp
  repeat' first
    | with_reducible assumption
    | with_reducible apply Chip.raise_cascade
    | split

theorem Chip.consumeRange_cascade (r : RunRecord) (m n : Nat) {p : Chip} {a : Chip} (h : a.Cascade p) :
    a.Cascade (Chip.consumeRange r m n p) :=
  Chip.Cascade.foldl (fun _ _ hq => Chip.consume_cascade _ hq) h

theorem Chip.writeConsume_cascade (v : Nat) {p : Chip} {a : Chip} (h : a.Cascade p) :
    a.Cascade (Chip.writeConsume v p) := by
  unfold Chip.writeConsume
  split
  · exact h
  · dsimp only
    have h0 : a.Cascade { p with cpm := { p.cpm with consumeCount := min v p.cpm.readyPrefix } } := h.toCpm
    split
    · exact Chip.finish_cascade (Chip.consumeRange_cascade _ _ _ h0)
    · exact h0

theorem Chip.writeInput_cascade (initiator : Fin 8) (w : Word) {p : Chip} {a : Chip} (h : a.Cascade p) :
    a.Cascade (Chip.writeInput initiator w p) := by
  unfold Chip.writeInput
  dsimp only
  repeat' first
    | with_reducible assumption
    | split
    | refine Chip.Cascade.toCpm ?_

theorem Chip.closeRequest_cascade (closes : Option Nat) {p : Chip} {a : Chip} (h : a.Cascade p) :
    a.Cascade (Chip.closeRequest closes p) := by
  unfold Chip.closeRequest
  dsimp only
  repeat' first
    | with_reducible assumption
    | split
    | refine Chip.Cascade.toCpm ?_

theorem Chip.emptyDirty_cascade {p : Chip} {a : Chip} (h : a.Cascade p) :
    a.Cascade (Chip.emptyDirty p) := by
  unfold Chip.emptyDirty
  dsimp only
  repeat' first
    | with_reducible assumption
    | split
    | refine Chip.Cascade.toCpm ?_

theorem Chip.ignoreRequest_cascade (tag : Nat) {p : Chip} {a : Chip} (h : a.Cascade p) :
    a.Cascade (Chip.ignoreRequest tag p) := by
  unfold Chip.ignoreRequest
  repeat' first
    | with_reducible assumption
    | with_reducible apply Chip.bump_cascade
    | with_reducible apply Chip.raise_cascade

theorem Chip.takePending_cascade (kind : RequestKind) (tag : Nat) {p : Chip} {a : Chip} (h : a.Cascade p) :
    a.Cascade (Chip.takePending kind tag p) := by
  unfold Chip.takePending
  repeat' first
    | with_reducible assumption
    | with_reducible apply Chip.offerResult_cascade
    | with_reducible apply Chip.takeRequest_cascade

theorem Chip.abandonFor_cascade (c : Capture) (tag : Nat) {p : Chip} {a : Chip} (h : a.Cascade p) :
    a.Cascade (Chip.abandonFor c tag p) := by
  unfold Chip.abandonFor
  repeat' first
    | with_reducible assumption
    | with_reducible apply Chip.offerResult_cascade
    | with_reducible apply Chip.dropCapture_cascade
    | with_reducible apply Chip.finish_cascade

theorem Chip.refuseWord_cascade (tag : Nat) {p : Chip} {a : Chip} (h : a.Cascade p) :
    a.Cascade (Chip.refuseWord tag p) := by
  unfold Chip.refuseWord
  repeat' first
    | with_reducible assumption
    | with_reducible apply Chip.takeRequest_cascade
    | with_reducible apply Chip.report_cascade
    | with_reducible apply Chip.ignoreRequest_cascade
    | split

theorem Chip.beginCapture_cascade (t count : Nat) (k : Fin 4) {p : Chip} {a : Chip} (h : a.Cascade p) :
    a.Cascade (Chip.beginCapture t count k p) := by
  unfold Chip.beginCapture
  dsimp only
  repeat' first
    | with_reducible assumption
    | with_reducible apply Chip.offer_cascade
    | with_reducible apply Chip.modSlot_cascade
    | with_reducible apply Chip.setClip_cascade
    | exact Nat.le_refl _
    | with_reducible refine Chip.Cascade.foldl ?_ ?_
    | intro _ _ _
    | split
    | refine Chip.Cascade.toEcu ?_

theorem Chip.captureClip_cascade {p : Chip} {a : Chip} (h : a.Cascade p) :
    a.Cascade (Chip.captureClip p) := by
  unfold Chip.captureClip
  dsimp only
  repeat' first
    | with_reducible assumption
    | with_reducible apply Chip.report_cascade
    | with_reducible apply Chip.beginCapture_cascade
    | split

theorem Chip.dropClip_cascade {p : Chip} {a : Chip} (h : a.Cascade p) :
    a.Cascade (Chip.dropClip p) := by
  unfold Chip.dropClip
  dsimp only
  repeat' first
    | with_reducible assumption
    | with_reducible apply Chip.report_cascade
    | with_reducible apply Chip.setClip_cascade
    | split

theorem Chip.markSegment_cascade {p : Chip} {a : Chip} (h : a.Cascade p) :
    a.Cascade (Chip.markSegment p) := by
  unfold Chip.markSegment
  dsimp only
  repeat' first
    | with_reducible assumption
    | with_reducible apply Chip.setSlot_cascade
    | with_reducible apply Chip.report_cascade
    | exact Nat.le_refl _
    | split

theorem Chip.becomeLate_cascade (e : Fin 8) (r : Read) {p : Chip} {a : Chip} (h : a.Cascade p) :
    a.Cascade (Chip.becomeLate e r p) := by
  unfold Chip.becomeLate
  dsimp only
  repeat' first
    | with_reducible assumption
    | with_reducible apply Chip.setRead_cascade
    | with_reducible apply Chip.completeZeros_cascade
    | with_reducible apply Chip.readProceed_cascade
    | with_reducible apply Chip.countLate_cascade
    | with_reducible apply Chip.endHeldOf_cascade
    | split

theorem Chip.countFlags_cascade (fs : List WordFlag) {p : Chip} {a : Chip} (h : a.Cascade p) :
    a.Cascade (Chip.countFlags fs p) := by
  unfold Chip.countFlags
  repeat' first
    | with_reducible assumption
    | with_reducible apply Chip.bump_cascade

theorem Chip.decideBlock_cascade (j : DecodeJob) (d : Decoded) {p : Chip} {a : Chip} (h : a.Cascade p) :
    a.Cascade (Chip.decideBlock j d p) := by
  unfold Chip.decideBlock
  dsimp only
  repeat' first
    | with_reducible assumption
    | with_reducible apply Chip.offer_cascade
    | with_reducible apply Chip.setJob_cascade
    | with_reducible apply Chip.decodeAdvance_cascade
    | with_reducible apply Chip.countFlags_cascade
    | split

theorem Chip.noteReady_cascade (q : Nat) {p : Chip} {a : Chip} (h : a.Cascade p) :
    a.Cascade (Chip.noteReady q p) := by
  unfold Chip.noteReady
  dsimp only
  repeat' first
    | with_reducible assumption
    | with_reducible apply Chip.modRun_cascade
    | split
    | refine Chip.Cascade.toCpm ?_

theorem Chip.savePoint_cascade (i : Fin 128) {p : Chip} {a : Chip} (h : a.Cascade p) :
    a.Cascade (Chip.savePoint i p) := by
  unfold Chip.savePoint
  dsimp only
  repeat' first
    | with_reducible assumption
    | with_reducible apply Chip.setSlot_cascade
    | with_reducible apply Chip.setImage_cascade
    | with_reducible apply Chip.freeImage_cascade
    | with_reducible apply Chip.secureImage_cascade
    | exact Nat.le_refl _
    | split
    | refine Chip.Cascade.toEcu ?_

theorem Chip.readyWriteSide_cascade (i : Fin 128) {p : Chip} {a : Chip} (h : a.Cascade p) :
    a.Cascade (Chip.readyWriteSide i p) := by
  unfold Chip.readyWriteSide
  dsimp only
  repeat' first
    | with_reducible assumption
    | with_reducible apply Chip.raise_cascade
    | with_reducible apply Chip.setAside_cascade
    | with_reducible apply Chip.savePoint_cascade
    | split

theorem Chip.takeReport_cascade (i : Fin 128) (recovered : Recovered) {p : Chip} {a : Chip} (h : a.Cascade p) :
    a.Cascade (Chip.takeReport i recovered p) := by
  unfold Chip.takeReport
  dsimp only
  repeat' first
    | with_reducible assumption
    | with_reducible apply Chip.modSlot_cascade
    | with_reducible apply Chip.reofferHeld_cascade
    | with_reducible apply Chip.resumeHeld_cascade
    | with_reducible apply Chip.queueTest_cascade
    | with_reducible apply Chip.releaseTest_cascade
    | with_reducible apply Chip.finish_cascade
    | with_reducible apply Chip.noteReady_cascade
    | with_reducible apply Chip.readyWriteSide_cascade
    | exact Nat.le_refl _

theorem Chip.reportDecode_cascade (j : DecodeJob) {p : Chip} {a : Chip} (h : a.Cascade p) :
    a.Cascade (Chip.reportDecode j p) := by
  unfold Chip.reportDecode
  dsimp only
  repeat' first
    | with_reducible assumption
    | with_reducible apply Chip.setJob_cascade
    | with_reducible apply Chip.takeReport_cascade
    | split

theorem Chip.beginCoding_cascade (j : CodeJob) {p : Chip} {a : Chip} (h : a.Cascade p) :
    a.Cascade (Chip.beginCoding j p) := by
  unfold Chip.beginCoding
  repeat' first
    | with_reducible assumption
    | with_reducible apply Chip.offer_cascade
    | with_reducible apply Chip.setJob_cascade
    | with_reducible apply Chip.beginCodeBlock_cascade
    | split

theorem Chip.startEditCoding_cascade (j : CodeJob) (flags : List WordFlag) {p : Chip} {a : Chip} (h : a.Cascade p) :
    a.Cascade (Chip.startEditCoding j flags p) := by
  unfold Chip.startEditCoding
  dsimp only
  repeat' first
    | with_reducible assumption
    | with_reducible apply Chip.raise_cascade
    | with_reducible apply Chip.beginCodeBlock_cascade
    | split

theorem Chip.gatherBlock_cascade (j : CodeJob) {p : Chip} {a : Chip} (h : a.Cascade p) :
    a.Cascade (Chip.gatherBlock j p) := by
  unfold Chip.gatherBlock
  dsimp only
  repeat' first
    | with_reducible assumption
    | with_reducible apply Chip.setJob_cascade
    | with_reducible apply Chip.offerCodeWrite_cascade
    | with_reducible apply Chip.codeProceed_cascade
    | with_reducible apply Chip.startEval_cascade
    | with_reducible refine Chip.Cascade.foldl ?_ ?_
    | intro _ _ _
    | split

theorem Chip.codeAdvance_cascade (j : CodeJob) {p : Chip} {a : Chip} (h : a.Cascade p) :
    a.Cascade (Chip.codeAdvance j p) := by
  unfold Chip.codeAdvance
  repeat' first
    | with_reducible assumption
    | with_reducible apply Chip.offer_cascade
    | with_reducible apply Chip.setJob_cascade
    | with_reducible apply Chip.beginCodeBlock_cascade
    | split

theorem Chip.reportCode_cascade (j : CodeJob) {p : Chip} {a : Chip} (h : a.Cascade p) :
    a.Cascade (Chip.reportCode j p) := by
  unfold Chip.reportCode
  dsimp only
  repeat' first
    | with_reducible assumption
    | with_reducible apply Chip.modSlot_cascade
    | with_reducible apply Chip.setJob_cascade
    | with_reducible apply Chip.finish_cascade
    | exact Nat.le_refl _
    | split

theorem Chip.concealBlock_cascade (segment block : Nat) (asker : Nat → Asker) (ws : List (Nat × WordFlag))
    {p : Chip} {a : Chip} (h : a.Cascade p) :
    a.Cascade (Chip.concealBlock segment block asker ws p) := by
  unfold Chip.concealBlock
  repeat' first
    | with_reducible assumption
    | with_reducible apply Chip.startEval_cascade
    | with_reducible refine Chip.Cascade.foldl ?_ ?_
    | intro _ _ _

theorem Chip.captureRead_cascade (c : Capture) (ws : List (Nat × WordFlag)) {p : Chip} {a : Chip} (h : a.Cascade p) :
    a.Cascade (Chip.captureRead c ws p) := by
  unfold Chip.captureRead
  dsimp only
  repeat' first
    | with_reducible assumption
    | with_reducible apply Chip.captureProceed_cascade
    | with_reducible apply Chip.concealBlock_cascade
    | split
    | refine Chip.Cascade.toEcu ?_

theorem Chip.nextCapture_cascade (c : Capture) (segment block : Nat) {p : Chip} {a : Chip} (h : a.Cascade p) :
    a.Cascade (Chip.nextCapture c segment block p) := by
  unfold Chip.nextCapture
  dsimp only
  repeat' first
    | with_reducible assumption
    | with_reducible apply Chip.offer_cascade
    | split
    | refine Chip.Cascade.toEcu ?_

theorem Chip.endCapture_cascade (c : Capture) {p : Chip} {a : Chip} (h : a.Cascade p) :
    a.Cascade (Chip.endCapture c p) := by
  unfold Chip.endCapture
  dsimp only
  repeat' first
    | with_reducible assumption
    | with_reducible apply Chip.report_cascade
    | with_reducible apply Chip.setClip_cascade
    | split
    | refine Chip.Cascade.toEcu ?_

theorem Chip.captureWritten_cascade (c : Capture) {p : Chip} {a : Chip} (h : a.Cascade p) :
    a.Cascade (Chip.captureWritten c p) := by
  unfold Chip.captureWritten
  dsimp only
  repeat' first
    | with_reducible assumption
    | with_reducible apply Chip.unpin_cascade
    | with_reducible apply Chip.finish_cascade
    | with_reducible apply Chip.nextCapture_cascade
    | with_reducible apply Chip.endCapture_cascade
    | split

theorem Chip.takeSave_cascade (v : Save) (rest : List Save) {p : Chip} {a : Chip} (h : a.Cascade p) :
    a.Cascade (Chip.takeSave v rest p) := by
  unfold Chip.takeSave
  dsimp only
  repeat' first
    | with_reducible assumption
    | with_reducible apply Chip.offer_cascade
    | split
    | refine Chip.Cascade.toEcu ?_

theorem Chip.saveRead_cascade (j : SaveJob) (ws : List (Nat × WordFlag)) {p : Chip} {a : Chip} (h : a.Cascade p) :
    a.Cascade (Chip.saveRead j ws p) := by
  unfold Chip.saveRead
  dsimp only
  repeat' first
    | with_reducible assumption
    | with_reducible apply Chip.saveProceed_cascade
    | with_reducible apply Chip.concealBlock_cascade
    | split
    | refine Chip.Cascade.toEcu ?_

theorem Chip.saveWritten_cascade (j : SaveJob) {p : Chip} {a : Chip} (h : a.Cascade p) :
    a.Cascade (Chip.saveWritten j p) := by
  unfold Chip.saveWritten
  dsimp only
  repeat' first
    | with_reducible assumption
    | with_reducible apply Chip.offer_cascade
    | with_reducible apply Chip.setImage_cascade
    | split
    | refine Chip.Cascade.toEcu ?_

theorem Chip.endSave_cascade (j : SaveJob) {p : Chip} {a : Chip} (h : a.Cascade p) :
    a.Cascade (Chip.endSave j p) := by
  unfold Chip.endSave
  dsimp only
  repeat' first
    | with_reducible assumption
    | with_reducible apply Chip.modSlot_cascade
    | with_reducible apply Chip.pushEntry_cascade
    | with_reducible apply Chip.secureWords_cascade
    | with_reducible apply Chip.queueTest_cascade
    | exact Nat.le_refl _
    | split
    | refine Chip.Cascade.toEcu ?_

theorem Chip.putLoad_cascade (l : Load) {p : Chip} {a : Chip} (h : a.Cascade p) :
    a.Cascade (Chip.putLoad l p) := by
  unfold Chip.putLoad
  dsimp only
  repeat' first
    | with_reducible assumption
    | split
    | refine Chip.Cascade.toEcu ?_

theorem Chip.loadWritten_cascade (l : Load) {p : Chip} {a : Chip} (h : a.Cascade p) :
    a.Cascade (Chip.loadWritten l p) := by
  unfold Chip.loadWritten
  repeat' first
    | with_reducible assumption
    | with_reducible apply Chip.offer_cascade
    | with_reducible apply Chip.dropLoad_cascade
    | with_reducible apply Chip.queueTest_cascade
    | with_reducible apply Chip.putLoad_cascade
    | split

theorem Chip.acceptRow_cascade (row : StagedRow) {p : Chip} {a : Chip} (h : a.Cascade p) :
    a.Cascade (Chip.acceptRow row p) := by
  unfold Chip.acceptRow
  dsimp only
  repeat' first
    | with_reducible assumption
    | with_reducible apply Chip.modSlot_cascade
    | with_reducible apply Chip.queueDecode_cascade
    | exact Nat.le_refl _
    | split

theorem Chip.noteOverrun_cascade (row : StagedRow) {p : Chip} {a : Chip} (h : a.Cascade p) :
    a.Cascade (Chip.noteOverrun row p) := by
  unfold Chip.noteOverrun
  dsimp only
  repeat' first
    | with_reducible assumption
    | with_reducible apply Chip.modSlot_cascade
    | with_reducible apply Chip.bump_cascade
    | with_reducible apply Chip.raise_cascade
    | exact Nat.le_refl _
    | split

theorem Chip.stageRow_cascade (row : StagedRow) {p : Chip} {a : Chip} (h : a.Cascade p) :
    a.Cascade (Chip.stageRow row p) := by
  unfold Chip.stageRow
  repeat' first
    | with_reducible assumption
    | with_reducible apply Chip.acceptRow_cascade
    | with_reducible apply Chip.noteOverrun_cascade
    | split

theorem Chip.clearMissing_cascade (seq : BitVec 3) {p : Chip} {a : Chip} (h : a.Cascade p) :
    a.Cascade (Chip.clearMissing seq p) := by
  unfold Chip.clearMissing
  dsimp only
  repeat' first
    | with_reducible assumption
    | split
    | refine Chip.Cascade.toDlc ?_

theorem Chip.takeMissing_cascade (flags : BitVec 8) {p : Chip} {a : Chip} (h : a.Cascade p) :
    a.Cascade (Chip.takeMissing flags p) := by
  unfold Chip.takeMissing
  repeat' first
    | with_reducible assumption
    | with_reducible apply Chip.resend_cascade
    | with_reducible refine Chip.Cascade.foldl ?_ ?_
    | intro _ _ _

theorem Chip.raiseHorizon_cascade (q : Nat) {p : Chip} {a : Chip} (h : a.Cascade p) :
    a.Cascade (Chip.raiseHorizon q p) := by
  unfold Chip.raiseHorizon
  repeat' first
    | with_reducible assumption
    | with_reducible apply Chip.modRun_cascade

theorem Chip.dueRecord_cascade (i : Fin 128) {p : Chip} {a : Chip} (h : a.Cascade p) :
    a.Cascade (Chip.dueRecord i p) := by
  unfold Chip.dueRecord
  repeat' first
    | with_reducible assumption
    | with_reducible apply Chip.closeByDue_cascade
    | split

theorem Chip.breakEdit_cascade (i : Fin 128) {p : Chip} {a : Chip} (h : a.Cascade p) :
    a.Cascade (Chip.breakEdit i p) := by
  unfold Chip.breakEdit
  dsimp only
  repeat' first
    | with_reducible assumption
    | with_reducible apply Chip.raise_cascade
    | with_reducible apply Chip.handOmit_cascade
    | with_reducible apply Chip.releaseTest_cascade
    | with_reducible apply Chip.settle_cascade
    | with_reducible apply Chip.discardWrite_cascade

theorem Chip.dueEdit_cascade (i : Fin 128) {p : Chip} {a : Chip} (h : a.Cascade p) :
    a.Cascade (Chip.dueEdit i p) := by
  unfold Chip.dueEdit
  dsimp only
  repeat' first
    | with_reducible assumption
    | with_reducible apply Chip.handOmit_cascade
    | with_reducible apply Chip.closeByDue_cascade
    | with_reducible apply Chip.breakEdit_cascade
    | split

theorem Chip.dueRevert_cascade (i : Fin 128) {p : Chip} {a : Chip} (h : a.Cascade p) :
    a.Cascade (Chip.dueRevert i p) := by
  unfold Chip.dueRevert
  repeat' first
    | with_reducible assumption
    | with_reducible apply Chip.handOmit_cascade
    | split

theorem Chip.dueClaimed_cascade (kind : RunKind) (i : Fin 128) {p : Chip} {a : Chip} (h : a.Cascade p) :
    a.Cascade (Chip.dueClaimed kind i p) := by
  unfold Chip.dueClaimed
  repeat' first
    | with_reducible assumption
    | with_reducible apply Chip.dueRecord_cascade
    | with_reducible apply Chip.dueEdit_cascade
    | with_reducible apply Chip.dueRevert_cascade
    | split

theorem Chip.takeDue_cascade (segment : Nat) {p : Chip} {a : Chip} (h : a.Cascade p) :
    a.Cascade (Chip.takeDue segment p) := by
  unfold Chip.takeDue
  repeat' first
    | with_reducible assumption
    | with_reducible apply Chip.raise_cascade
    | with_reducible apply Chip.finish_cascade
    | with_reducible apply Chip.raiseHorizon_cascade
    | with_reducible apply Chip.dueClaimed_cascade
    | split

theorem Chip.dropBad_cascade {p : Chip} {a : Chip} (h : a.Cascade p) :
    a.Cascade (Chip.dropBad p) := by
  unfold Chip.dropBad
  repeat' first
    | with_reducible assumption
    | with_reducible apply Chip.bump_cascade
    | split

theorem Chip.drainExpired_cascade {p : Chip} {a : Chip} (h : a.Cascade p) :
    a.Cascade (Chip.drainExpired p) := by
  unfold Chip.drainExpired
  repeat' first
    | with_reducible assumption
    | with_reducible apply Chip.modRun_cascade
    | with_reducible apply Chip.finish_cascade
    | with_reducible apply Chip.giveUp_cascade

end Sys2Proof.Machine
end

