-- ==== Sys2Proof/Tests/Slice0.lean ====
section
/-! SUPPORT. Tests: ill-formed commands, the spec's worked values, one step of each command on a small state, and a
state that meets the hypotheses of each statement. Expected values come from the spec's tables and rules. -/

namespace Sys2Proof.Tests

open Sys2Proof Sys2Proof.Machine

-- One theorem at a time: each evaluates a step in the kernel, and many at once take too many threads.
set_option Elab.async false

/-! ## Small states -/

/-- The state after a command; the state before, where it stops. -/
def after (c : Instr) (s : State) : State :=
  match exec c s with
  | .next t => t
  | _ => s

/-- A READY part with its link UP: audio view at 0x400000, private region at 0x600000, digital input 2, output 3. -/
def ready : State :=
  { State.reset with
    cpm := { Cpm.reset with
      partState := .ready, writtenSet := ⟨true, true, true, true⟩, map := ⟨0x400000, 0x600000, 2, 3⟩
      signal := ⟨4, 8, 6, .one, 1, 2000⟩, link := ⟨2000, 200, 5000, 3, 5000⟩, edit := ⟨4, true⟩
      statusHeld := (Vector.replicate 24 0).set 0 0x2000001 }
    dlc := { Dlc.reset with linkState := .up, writeCredits := 8, outstanding := 32, released := 0 } }

/-- A state whose only request to MP is the given one. -/
def offering (r : Req) (s : State) : State :=
  { s with mp := { Mp.reset with queues := Mp.reset.queues.set r.cls [⟨r, 0⟩] } }

/-- A posted write of initiator 1. -/
def posted (addr : Nat) (range : Range) (data : List Nat) : PostedWrite := ⟨7, 1, addr, data.map word, range⟩

/-- A state with a posted write at the head of the queue, offered. -/
def headed (w : PostedWrite) (s : State) : State :=
  { offering .postedWrite s with lbp := { s.lbp with posted := [w] } }

/-- A write of a whole cell. -/
def cell (n : Nat) (ws : List Nat) : PostedWrite := posted (0x20 * n) .controlPage ws

/-- A request with tag 9, by kind code and arguments. -/
def request (kind : Nat) (args : List Nat) : PostedWrite :=
  cell 4 (args ++ List.replicate (7 - args.length) 0 ++ [9 + 256 * kind])

/-- A slot record replaced. -/
def withSlot (i : Fin 128) (x : Slot) (s : State) : State := { s with slots := s.slots.set i x }

/-- A slot claimed for a segment at position 0, both sides as they start. -/
def claimed (segment : Nat) : Slot :=
  { Slot.releasedWith 1 none 128 with claimed := true, segment := segment }

/-- A run from a segment on, ACTIVE, with every slot free and none of its positions still to claim. -/
def run (kind : RunKind) (writer : Option WriterKind) (params : RunParams) (t0 length : Nat) (s : State) : State :=
  { s with
    slots := Vector.replicate 128 (Slot.releasedWith 0 none 128)
    rc := ⟨.active, some {
      kind := kind, tag := 5, t0 := t0, backward := false, length := length, rate := 1, writer := writer
      params := params, windowBase := 0, readyCount := 0, doneCount := 0, settledCount := 0, dueHorizon := none
      omitCount := 0, drainTimer := none, endCause := .none }⟩ }

/-- A read of initiator 3 in tracker entry 0, offered. -/
def reading (addr len : Nat) (range : Range) (s : State) : State :=
  let r : Read := ⟨3, 77, addr, len, range, .offered, [], [], none, false, false, .none⟩
  { offering (.read 0) s with lbp := { s.lbp with reads := s.lbp.reads.set 0 (some r) } }

/-- Words stored in DRAM. -/
def storing (ws : List (Nat × Nat)) (s : State) : State :=
  { s with mem := Memory.writeWords s.mem (ws.map fun x => (x.1, word x.2)) }

/-! ## Commands no row can stand for (R1, R81, R83) -/

theorem smoke_writeAccept : (Instr.writeAccept 0 0 []).wellFormed = false := by decide +kernel
theorem smoke_readAccept : (Instr.readAccept 0 0 0 0).wellFormed = false := by decide +kernel
theorem smoke_openedReceived : (Instr.openedReceived Frame.openLink.bytes).wellFormed = false := by decide +kernel
theorem smoke_clearReceived : (Instr.clearReceived Frame.opened.bytes).wellFormed = false := by decide +kernel
theorem smoke_playRowReceived : (Instr.playRowReceived (Frame.due 3).bytes).wellFormed = false := by decide +kernel
theorem smoke_grantReceived : (Instr.grantReceived (Frame.missing 3).bytes).wellFormed = false := by decide +kernel
theorem smoke_missingReceived : (Instr.missingReceived (Frame.grant 1 2).bytes).wellFormed = false := by
  decide +kernel
theorem smoke_dueReceived : (Instr.dueReceived (Frame.omitSegment 3).bytes).wellFormed = false := by decide +kernel
theorem smoke_badCrcFrame : (Instr.badCrcFrame Frame.opened.bytes).wellFormed = false := by decide +kernel
theorem smoke_droppedFrame : (Instr.droppedFrame [0x70]).wellFormed = false := by decide +kernel
theorem smoke_accepts : (Instr.openedReceived Frame.opened.bytes).wellFormed = true := by decide +kernel

/-- No word spells a command (log 32). -/
theorem test_decodeTableWord : decodeTableWord 16 0 = none := rfl

/-! ## Values the spec works out -/

/-- The interpolations of the table of spec/07. -/
theorem test_interpolate :
    [interpolate 5 10 1 3, interpolate 5 10 2 2, interpolate 5 10 3 1, interpolate 10 5 2 2,
      interpolate 1000 (-2000) 1 2, interpolate 1000 (-2000) 2 1, interpolate 120000 120503 1 1] =
    [6, 8, 9, 8, 0, -1000, 120252] := by decide +kernel

/-- The fades of the table of spec/07, and the two of R129. -/
theorem test_holdFade :
    [holdFade 1000 8 0 4, holdFade (-1000) 8 0 4, holdFade 1000 16 0 4, holdFade (-1) 8 0 4, holdFade 1 8 0 4] =
    [500, -500, 0, -1, 0] := by decide +kernel

/-- The crossfades of spec/08. -/
theorem test_crossfade :
    [crossfade 1000 (-1000) 0 16, crossfade 1000 (-1000) 7 16, crossfade 1000 (-1000) 15 16,
      crossfade (-1000) 1000 0 16, crossfade (-1000) 1000 7 16, crossfade (-1000) 1000 15 16,
      crossfade 8388606 (-8388606) 0 16] =
    [875, 0, -1000, -875, 0, 1000, 7340030] := by decide +kernel

/-- A silent block 0 of segment 0 (spec/04). -/
def silent : List Nat := encodeBlock (List.replicate 24 8388606 ++ [0, 0, 0, 0])

/-- Q28 and Q29 of the three blocks of spec/04. -/
theorem test_encode :
    silent.drop 28 = [210, 16777015] ∧
    (encodeBlock (List.replicate 24 8388606 ++ [0, 1, 0, 0])).drop 28 = [206, 16777213 - 195] ∧
    (encodeBlock (List.replicate 28 8388606)).drop 28 = [217, 16777010] := by decide +kernel

/-- Rows that all arrived, but for the listed void ones. -/
def rowsVoid (voids : List Nat) : Vector RowRecord 30 :=
  voids.foldl (fun v r => v.setIfInBounds r (.arrived true 0)) (Vector.replicate 30 (.arrived false 0))

/-- The silent block with a word changed. -/
def hit (changes : List (Nat × Nat)) : List Nat := changes.foldl (fun cs x => cs.set x.1 x.2) silent

/-- The decoding cases of spec/04: no damage, one error, two errors, an erased word, one erasure and an error, an
out-of-field word, three void rows, and the miscorrection. -/
theorem test_decode :
    (decodeBlock (rowsVoid []) 0 silent) = .all silent .clean ∧
    (decodeBlock (rowsVoid []) 0 (hit [(5, 8389606)])) = .correct silent 5 0 ∧
    (decodeBlock (rowsVoid []) 0 (hit [(0, 8388607), (1, 8388607)])).flags = List.replicate 30 .lost ∧
    (decodeBlock (rowsVoid []) 0 (hit [(0, 8388607), (2, 8388607)])).words =
      hit [(0, 8388607), (1, 8388604), (2, 8388607)] ∧
    (decodeBlock (rowsVoid [10]) 0 silent) = .all silent .clean ∧
    (decodeBlock (rowsVoid [10]) 0 (hit [(10, 8388615)])) = .correct silent 10 0 ∧
    (decodeBlock (rowsVoid [10]) 0 (hit [(4, 8388609)])).flags = List.replicate 30 .lost ∧
    (decodeBlock (rowsVoid []) 0 (hit [(9, 16777214)])) = .correct silent 9 0 ∧
    (decodeBlock (rowsVoid [4, 5, 6]) 0 silent).flags =
      (((List.replicate 30 WordFlag.unchecked).set 5 .lost).set 12 .lost).set 28 .lost := by decide +kernel

/-- The two-row dropout of spec/04: rows 4 and 5 void, both words delivered 0. -/
theorem test_decode_two_rows :
    decodeBlock (rowsVoid [4, 5]) 0 (hit [(5, 0), (28, 0)]) =
      ⟨silent, ((List.replicate 30 WordFlag.clean).set 5 .fixed).set 28 .fixed⟩ := by decide +kernel

/-- Rows 13, 14 and 15 carry positions 1, 8 and 15; row 4 position 28 (R41, spec/04, spec/07). -/
theorem test_rows :
    [rowImageWord 13 0, rowImageWord 14 1, rowImageWord 15 2, rowImageWord 4 0] = [1, 38, 75, 28] ∧
    [rowOfPosition 1, rowOfPosition 8, rowOfPosition 15, rowOfPosition 28] = [13, 14, 15, 4] := by decide +kernel

/-- The CRC of the parameters of R187 over the nine digits, its published check value. -/
theorem test_crc : crc16 [0x31, 0x32, 0x33, 0x34, 0x35, 0x36, 0x37, 0x38, 0x39] = 0xAEE7 := by decide +kernel

/-- Classes 1, 2, 4 and 7 waiting, as in the pass-over table of spec/01; classes 1 and 2 keep a request. -/
def busy : Mp :=
  { queues := #v[[⟨.neighbour 0, 0⟩, ⟨.neighbour 1, 1⟩, ⟨.neighbour 2, 2⟩, ⟨.neighbour 3, 3⟩], [⟨.staging, 0⟩], [],
      [⟨.read 0, 0⟩], [], [], [⟨.notice 0 0 0 0, 0⟩]]
    passOver := #v[0, 8, 0, 8, 0, 0, 8] }

/-- At counts of 8 the lowest such class goes first; else the lowest waiting one (spec/01, grants 1 and 9). -/
theorem test_passOver :
    busy.choice = some 1 ∧ { busy with passOver := Vector.replicate 7 0 }.choice = some 0 ∧
    (Chip.beginGrant (.neighbour 0) { Chip.reset with mp := { busy with passOver := Vector.replicate 7 0 } }).mp.passOver =
      #v[0, 1, 0, 1, 0, 0, 1] := by decide +kernel

/-! ## One step of each command -/

/-- R19: an unconfigured part, DRAM kept. -/
theorem test_pinReset :
    let t := after .pinReset (storing [(0x1000, 7)] ready)
    t.cpm.partState = .unconfigured ∧ t.dlc.linkState = .down ∧ t.mem = [(0x1000, 7)] := by decide +kernel

/-- R5: a write to the private region counts and raises PROTECT. -/
theorem test_writeAccept :
    let t := after (.writeAccept 1 0x600000 [7]) ready
    t.toChip.counter .protect = 1 ∧ t.lbp.posted = [] ∧
      (t.mp.queues[(6 : Fin 7)]).map Offer.req = [.notice 0 0 0x6000000A 1, .status 1] := by decide +kernel

/-- R14: a read behind a posted write of the same group waits. -/
theorem test_readAccept :
    let t := after (.readAccept 3 77 0x1004 1) (headed (posted 0x1000 .plain [1, 2]) ready)
    (t.toChip.read 0).map (fun r => (r.state, r.waits)) = some (.waiting, [.posted 7]) := by decide +kernel

/-- R4: the words are stored, byte 0 of each at the lowest address (log 2). -/
theorem test_writeGrant :
    (after .writeGrant (headed (posted 0x1000 .plain [0x01020304, 5]) ready)).mem =
      [(0x1000, 4), (0x1001, 3), (0x1002, 2), (0x1003, 1), (0x1004, 5)] := by decide +kernel

/-- A RECORD run with slot 5 FILLING for segment 1029. -/
def recording : State :=
  withSlot 5 { claimed 1029 with write := .filling } (run .record (some .record) .none 1029 1 ready)

/-- R7, R8: channel 0 of pair 3 taken as a code value, the most negative sample clamped. -/
theorem test_audioViewWrite :
    let t := after .audioViewWrite
      (headed (posted (0x400000 + 1536 * 5 + 24) (.audioView ⟨5, 3, 0⟩) [0x800000, 1000]) recording)
    Memory.readWord t.mem (0x640000 + 2048 * 5 + 24) = 0 ∧
      Memory.readWord t.mem (0x640000 + 2048 * 5 + 28) = 8389606 ∧
      t.toChip.counter .clippedSamples = 1 ∧ (t.toChip.slot 5).written = 0xC0 := by decide +kernel

/-- R24: initiator 9 is clamped to 7. -/
theorem test_modeMapWrite :
    (after .modeMapWrite (headed (cell 0 [0x400000, 0x600000, 9, 3, 0, 0, 0, 0]) ready)).cpm.map =
      ⟨0x400000, 0x600000, 7, 3⟩ := by decide +kernel

/-- R25: a base off its multiple (mark 0) changes nothing and is noticed. -/
theorem test_modeMapWrite_rejected :
    let t := after .modeMapWrite (headed (cell 0 [0x440004, 0x600000, 2, 3, 0, 0, 0, 0]) ready)
    t.cpm.map = ready.cpm.map ∧ (t.mp.queues[(6 : Fin 7)]).map Offer.req = [.notice 0 0 0x10D 1] := by
  decide +kernel

/-- R24: fields below and above their ranges. -/
theorem test_modeSignalWrite :
    (after .modeSignalWrite (headed (cell 1 [0, 300, 3, 3, 2, 49, 0, 0]) ready)).cpm.signal =
      ⟨1, 255, 4, .none, 2, 50⟩ := by decide +kernel

/-- R23: in force at once while IDLE. -/
theorem test_modeLinkWrite :
    (after .modeLinkWrite (headed (cell 2 [100, 20, 1000, 15, 1000000, 0, 0, 0]) ready)).cpm.link =
      ⟨100, 20, 1000, 15, 1000000⟩ := by decide +kernel

/-- R24, R11.2: the default exponent clamped, undo off. -/
theorem test_modeEditWrite :
    (after .modeEditWrite (headed (cell 3 [11, 0, 0, 0, 0, 0, 0, 0]) ready)).cpm.edit = ⟨10, false⟩ := by
  decide +kernel

/-- R48: REVERSE from segment 2 claims segments 2, 1 and 0. -/
theorem test_play :
    let t := after .play (headed (request 1 [2, 3, 1]) ready)
    t.rc.state = .active ∧ (t.toChip.slot 0).claimed = true ∧ (t.toChip.slot 0).position = 2 ∧
      (t.toChip.slot 3).claimed = false := by decide +kernel

/-- R111: a write side starts FILLING. -/
theorem test_record :
    (fun x : Slot => (x.write, x.serial)) ((after .record (headed (request 2 [1000, 1]) ready)).toChip.slot 104) =
      (.filling, 1) := by decide +kernel

/-- R138: a crossfade that ends after the range is RANGE with detail 5. -/
theorem test_edit :
    ((after .edit (headed (request 3 [1000, 1, 192100, 192177]) ready)).mp.queues[(6 : Fin 7)]).any
      (fun o => match o.req with
        | .result _ r _ => r == ⟨9, .range, 5⟩
        | _ => false) = true := by decide +kernel

/-- R167: a partial run is BADSTATE with its tag. -/
theorem test_revert :
    let s := { ready with ecu := { Ecu.reset with stack := [.seg 1000 0, .run 8 1000 1 true] } }
    ((after .revert (headed (request 4 []) s)).mp.queues[(6 : Fin 7)]).any
      (fun o => match o.req with
        | .result _ r _ => r == ⟨9, .badState, 0x801⟩
        | _ => false) = true := by decide +kernel

/-- R115, R119: nothing to drain, so the run ends STOPPED at once. -/
theorem test_stop :
    let t := after .stop (headed (request 5 []) recording)
    t.rc.state = .idle ∧ t.rc.run.map RunRecord.endCause = some .stopped ∧
      t.dlc.lane.map LaneEntry.frame = [.omitSegment 1029] := by decide +kernel

/-- A PLAY run with segment 1029 READY in slot 5, grade ONE. -/
def played : State :=
  withSlot 5 { claimed 1029 with play := .ready, recovered := .recovered .one .digital false false 6 1 .record }
    (run .play none .none 1029 2 ready)

/-- R153, R155: a capture begun; a ONE source makes the clip grade NONE. -/
theorem test_capture :
    let t := after .capture (headed (request 6 [1029, 1, 2]) played)
    (t.ecu.clips[(2 : Fin 4)]).state = .filling ∧ (t.toChip.slot 5).pins = 1 ∧
      t.ecu.capture.map Capture.grade = some .none := by decide +kernel

/-- R157: a READY clip emptied. -/
theorem test_dropClip :
    let s := { ready with
      ecu := { Ecu.reset with clips := Ecu.reset.clips.set 3 ⟨.ready, 4, some .free, false, false⟩ } }
    (after .dropClip (headed (request 7 [3]) s)).ecu.clips[(3 : Fin 4)] = Clip.reset := by decide +kernel

/-- R57, R150: XOR 0x11 on base 0. -/
theorem test_mark :
    let t := after .mark (headed (request 8 [1029, 2, 0x11]) recording)
    (t.toChip.slot 5).outgoingMarker = 0x11 := by decide +kernel

/-- R87: the link opens anew. -/
theorem test_linkClear :
    (after .linkClear (headed (request 9 []) ready)).dlc.lane.map LaneEntry.frame = [.clearLink, .openLink] := by
  decide +kernel

/-- R29: an unknown kind. -/
theorem test_badReq :
    ((after .badReq (headed (request 10 []) ready)).mp.queues[(6 : Fin 7)]).map Offer.req =
      [.result 0 ⟨9, .badReq, 0⟩ (some 0)] := by decide +kernel

/-- R33, R50: position 0 consumed, its slot released; the count stops at the ready prefix. -/
theorem test_consumeCountWrite :
    let s := { played with cpm := { played.cpm with readyPrefix := 1 } }
    let t := after .consumeCountWrite (headed (posted 0xC0 .controlPage [5]) s)
    t.cpm.consumeCount = 1 ∧ (t.toChip.slot 5).claimed = false := by decide +kernel

/-- R34: locked, grade field 1, from initiator 2. -/
theorem test_inputStatusWrite :
    (after .inputStatusWrite (headed { posted 0xE0 .controlPage [0x80000001] with initiator := 2 } ready)).cpm.incoming =
      .known .one := by decide +kernel

/-- R38: an index past the published one is ignored. -/
theorem test_noticeReadIndexWrite :
    let s := { ready with cpm := { ready.cpm with publishedIndex := 3, writeIndex := 3, notice := true } }
    (after .noticeReadIndexWrite (headed (posted 0x120 .controlPage [3]) s)).cpm.notice = false ∧
      (after .noticeReadIndexWrite (headed (posted 0x120 .controlPage [4]) s)).cpm.readIndex = 0 := by decide +kernel

/-- R4: the words at the address. -/
theorem test_readGrant :
    (after (.readGrant 0) (reading 0x1000 2 .plain (storing [(0x1004, 9)] ready))).lbp.responses =
      [.data 3 77 [0, 9]] := by decide +kernel

/-- R182 and the last table of spec/10: NONE with no record, ONE after material of grade ONE. -/
theorem test_outputStatusRead :
    let s := reading 0x100 1 .controlPage (storing [(0x100, 0xF0)] ready)
    (after (.outputStatusRead 0) s).lbp.responses = [.data 3 77 [0xF2]] ∧
      (after (.outputStatusRead 0) { s with lbp := { s.lbp with outRecord := .grade .one } }).lbp.responses =
        [.data 3 77 [0xF1]] := by decide +kernel

/-- R9, R10: the sample of a stored word, and the record of its segment. -/
theorem test_audioViewFetch :
    let t := after (.audioViewFetch 0) (reading (0x400000 + 1536 * 5) 1 (.audioView ⟨5, 0, 0⟩)
      (storing [(0x600000 + 2048 * 5, 8388605)] played))
    t.lbp.responses = [.data 3 77 [0xFFFFFFFF]] ∧ t.lbp.outRecord = .grade .one := by decide +kernel

/-- The evaluation of pair 16, left, of segment 1029, its neighbour block asked for. -/
def evaluation : Evaluation :=
  ⟨4, .read 0 0, 192 * 1029 + 16, 0, 4, 8, 6, .lookBehind, 1, none, some ⟨1029, 1, 0x600000⟩, none⟩

/-- A read whose one word that evaluation serves. -/
def concealing (s : State) : State :=
  let r : Read := ⟨3, 77, 0x400000 + 1536 * 5 + 128, 1, .audioView ⟨5, 16, 0⟩, .concealing, [], [none], none, false,
    false, .grade .one⟩
  { s with lbp := { s.lbp with reads := s.lbp.reads.set 0 (some r) }, cu := ⟨[evaluation], 5⟩ }

/-- The worked line of spec/07: pairs 15 and 17 hold 120,000 and 120,503, pair 16 is LOST; the value is 120,252. -/
theorem test_neighbourFetch :
    (after (.neighbourFetch 4) (offering (.neighbour 4) (concealing (storing
      [(0x600000 + 2048 * 5 + 4 * 36, 8508606), (0x600000 + 2048 * 5 + 4 * 40, 8509109),
        (0x600000 + 2048 * 5 + 4 * 482, 0x3000)] played)))).lbp.responses =
      [.data 3 77 [120252]] := by decide +kernel

/-- R13: a read held on its slot completes with zeros. -/
theorem test_readLate :
    let s := reading 0x401E00 2 (.audioView ⟨5, 0, 0⟩) ready
    let r : Read := ⟨3, 77, 0x401E00, 2, .audioView ⟨5, 0, 0⟩, .heldOnSlot, [], [], some 0, false, false, .none⟩
    let t := after (.readLate 0) { s with lbp := { s.lbp with reads := s.lbp.reads.set 0 (some r) } }
    t.lbp.responses = [.data 3 77 [0, 0]] ∧ t.toChip.counter .readLate = 1 := by decide +kernel

/-- A row of segment 1029 in staging; slot 5 is EMPTY for it in a PLAY run. -/
def staged : State :=
  let s := withSlot 5 (claimed 1029) (run .play none .none 1029 2 ready)
  offering .staging { s with
    dlc := { s.dlc with outstanding := 31, staging := [⟨1029, 13, false, 0, List.replicate 16 6⟩] } }

/-- R41: row 13 lies at position 1 of each block. -/
theorem test_stagingWrite :
    let t := after .stagingWrite staged
    Memory.readWord t.mem (0x600000 + 2048 * 5 + 4 * 1) = 6 ∧ Memory.readWord t.mem (0x600000 + 2048 * 5 + 4 * 31) = 6 ∧
      (t.toChip.slot 5).play = .arriving ∧ t.dlc.released = 1 := by decide +kernel

/-- Slot 5 QUEUED for segment 1029, its row 1 the next to fetch. -/
def fetching : State :=
  let s := withSlot 5 { claimed 1029 with write := .queued } recording
  offering .rowFetch { s with dlc := { s.dlc with fetch := some ⟨5, 1029, 1, 0, 0x600000⟩ } }

/-- R41, R90: row 0 carries position 0 of each block under send seq 0. -/
theorem test_rowFetch :
    let t := after .rowFetch (storing [(0x640000 + 2048 * 5 + 4 * 30, 17)] fetching)
    t.dlc.lane.map LaneEntry.frame = [.row 0 1029 0 ([0, 17] ++ List.replicate 14 0)] ∧ t.dlc.writeCredits = 7 ∧
      (t.toChip.slot 5).write = .sending := by decide +kernel

/-- A decode item for slot 5 in the queue. -/
def decodeQueued : State :=
  { played with ce := ⟨[⟨.decode 5 1029 1 (rowsVoid []), 0⟩], none⟩ }

/-- R76: block 0 is read first. -/
theorem test_ceTakeDecodeItem :
    let t := after (.ceTakeDecodeItem 5) decodeQueued
    (t.mp.queues[(4 : Fin 7)]).map Offer.req = [.codeEngine] ∧ t.ce.queue = [] := by decide +kernel

/-- A code item for slot 5, every word written, in the queue. -/
def codeQueued : State :=
  withSlot 5 { claimed 1029 with write := .closed } { recording with
    ce := ⟨[⟨.code 5 1029 1 .live .record none, 0⟩], none⟩ }

/-- R58: CODING from the take. -/
theorem test_ceTakeCodeItem : ((after (.ceTakeCodeItem 5) codeQueued).toChip.slot 5).write = .coding := by
  decide +kernel

/-- A decode item of slot 5 in progress, at block 0. -/
def decodeJob : DecodeJob :=
  ⟨5, 1029, 1, rowsVoid [10], 0x600000, 0, .blockRead, [], [], 0, 0, .absent, false⟩

/-- The state with a job of CE. -/
def working (j : CeJob) (s : State) : State := offering .codeEngine { s with ce := ⟨[], some j⟩ }

/-- R72: the voided word of a silent block restored, FIXED. -/
theorem test_decodeBlockRead :
    let t := after .decodeBlockRead (working (.decode decodeJob)
      { played with mem := Memory.writeWords [] (placeWords 0x602800 ((hit [(10, 0)]).map word)) })
    t.toChip.counter .fixedWords = 1 ∧
      t.ce.job.map (fun j => match j with
        | .decode j => j.stage
        | _ => .finalWrite) = some (.blockWrite silent) := by decide +kernel

/-- R76: block 0 goes to its place with the valid mark clear. -/
theorem test_decodeBlockWrite :
    let t := after .decodeBlockWrite
      (working (.decode { decodeJob with stage := .blockWrite silent, flags := List.replicate 30 .clean }) played)
    Memory.readWord t.mem (0x602800 + 4 * 28) = 210 ∧ Memory.readWord t.mem (0x602800 + 4 * 510) = 1029 := by
  decide +kernel

/-- A PLAY run of one segment whose last decode has its report to write. -/
def reporting : State :=
  withSlot 5 { claimed 1029 with play := .checking } (working (.decode { decodeJob with
    block := 15, stage := .finalWrite, flags := List.replicate 480 .clean, fixedCount := 2, lostCount := 1
    recovered := .recovered .one .digital false true 6 1 .record }) (run .play none .none 1029 1 ready))

/-- R54, R76, R109: decode word 0x00020225, the slot READY, the run COMPLETE. -/
theorem test_decodeFinalWrite :
    let t := after .decodeFinalWrite reporting
    Memory.readWord t.mem (0x602800 + 4 * 511) = 0x20225 ∧ (t.toChip.slot 5).play = .ready ∧
      t.rc.run.map RunRecord.endCause = some .complete := by decide +kernel

/-- A code item of slot 5 in progress. -/
def codeJob : CodeJob :=
  ⟨5, 1029, 1, .live, .record, none, BitVec.allOnes 384, 1, 6, 0, 0, 0x600000, 5, [], 0, .blockRead, [], [], false⟩

/-- An EDIT of slot 5: punch-in at pair 8, out at pair 100, F = 16. -/
def punch : Punch := ⟨192 * 1029 + 8, 192 * 1029 + 100, 4⟩

/-- R179: grade ONE of the old material, source TAPE where nothing was taken. -/
theorem test_codeFlagMapRead :
    let t := after .codeFlagMapRead (working (.code { codeJob with
      stage := .flagMapRead, writer := .edit, punch := some punch, written := 0 }) played)
    t.ce.job.map (fun j => match j with
      | .code j => j.copyWord
      | _ => 0) = some 9 := by decide +kernel

/-- R40, R66: the written words, then T, 0x010, the copy word and the marker. -/
theorem test_codeBlockRead :
    let t := after .codeBlockRead (working (.code codeJob) (storing [(0x642800, 44)] ready))
    t.ce.job.map (fun j => match j with
      | .code j => (match j.stage with
        | .blockWrite ws => (ws.take 2, (ws.drop 24).take 4)
        | _ => ([], []))
      | _ => ([], [])) = some ([44, 0], [1029, 16, 5, 6]) := by decide +kernel

/-- R67: the block in the outgoing image. -/
theorem test_codeBlockWrite :
    let t := after .codeBlockWrite (working (.code { codeJob with block := 1, stage := .blockWrite silent }) ready)
    Memory.readWord t.mem (0x642800 + 4 * 58) = 210 ∧ Memory.readWord t.mem (0x642800 + 4 * 510) = 0 := by
  decide +kernel

/-- R58, R67: summary and code word; the slot QUEUED, row 0 fetched. -/
theorem test_codeSummaryWrite :
    let t := after .codeSummaryWrite (withSlot 5 { claimed 1029 with write := .coding }
      (working (.code { codeJob with block := 15, stage := .summaryWrite, clipCount := 1, underrunCount := 2 })
        recording))
    Memory.readWord t.mem (0x642800 + 4 * 510) = 0x80000405 ∧ Memory.readWord t.mem (0x642800 + 4 * 511) = 0x40105 ∧
      (t.toChip.slot 5).write = .queued ∧ t.dlc.fetch.isSome = true := by decide +kernel

/-- A capture of segment 1029 into clip 2. -/
def capture : Capture := ⟨1, 2, 1029, 1, .none, 0x600000, 0, 0, .reading, []⟩

/-- The state of that capture. -/
def capturing (c : Capture) : State :=
  withSlot 5 { played.toChip.slot 5 with pins := 1 } (offering .capture { played with
    ecu := { Ecu.reset with
      capture := some c, clips := Ecu.reset.clips.set 2 ⟨.filling, 1, none, false, false⟩ }
    cpm := { played.cpm with request := some ⟨0, some .capture, 9, false⟩, nextRequest := 1 } })

/-- R154: stored values of the block's 24 audio words. -/
theorem test_captureBlockRead :
    ((after .captureBlockRead (storing [(0x602800, 31)] (capturing capture))).ecu.capture.map Capture.values) =
      some (some 31 :: List.replicate 23 (some 0)) := by decide +kernel

/-- R154, R155: the last block written, the clip READY and single-use. -/
theorem test_captureBlockWrite :
    let t := after .captureBlockWrite (capturing { capture with
      block := 15, stage := .writing, values := List.replicate 24 (some 3) })
    Memory.readWord t.mem (0x600000 + 0x80000 + 0x40000 + 4 * 360) = 3 ∧
      t.ecu.clips[(2 : Fin 4)] = ⟨.ready, 1, some .none, true, false⟩ ∧ (t.toChip.slot 5).pins = 0 := by
  decide +kernel

/-- A save of slot 5 into image 4. -/
def save : Save := ⟨5, 1029, 1, 4⟩

/-- R163: the save begins with a read. -/
theorem test_saveTake :
    let t := after .saveTake { played with ecu := { Ecu.reset with saves := [save] } }
    (t.mp.queues[(5 : Fin 7)]).map Offer.req = [.save] ∧ t.ecu.saves = [] := by decide +kernel

/-- A state with a save in progress. -/
def saving (j : SaveJob) : State := offering .save { played with ecu := { Ecu.reset with saving := some j } }

/-- R163: the values of the block. -/
theorem test_saveBlockRead :
    ((after .saveBlockRead (storing [(0x602800, 31)]
      (saving ⟨save, 0x600000, 0, .reading, [], false, false⟩))).ecu.saving.map SaveJob.values) =
      some (some 31 :: List.replicate 23 (some 0)) := by decide +kernel

/-- R163: after block 15 the image record carries the recovered grade and marker. -/
theorem test_saveBlockWrite :
    let t := after .saveBlockWrite
      (saving ⟨save, 0x600000, 15, .writing, List.replicate 24 (some 3), true, false⟩)
    t.ecu.images[(4 : Fin 256)] = ⟨true, 1029, .one, false, true, 6⟩ ∧
      Memory.readWord t.mem (0x700000 + 2048 * 4 + 4 * 450) = 3 := by decide +kernel

/-- R163, R165: summary word written, SEG entry pushed. -/
theorem test_saveClosingWrite :
    let t := after .saveClosingWrite (saving ⟨save, 0x600000, 15, .closing, [], false, false⟩)
    Memory.readWord t.mem (0x700000 + 2048 * 4 + 4 * 510) = 0x80000405 ∧ t.ecu.stack = [.seg 1029 4] := by
  decide +kernel

/-- A load of image 4 into the outgoing image of slot 5. -/
def loading (block : Nat) (values : Option (List Word)) : State :=
  offering (.load 5) { ready with ecu := { Ecu.reset with loads := [⟨5, 1, 4, 0x600000, block, values⟩] } }

/-- R169: 24 words of the undo image. -/
theorem test_loadBlockRead :
    ((after (.loadBlockRead 5) (storing [(0x702000, 8)] (loading 0 none))).ecu.loads.map Load.values) =
      [some (8 :: List.replicate 23 0)] := by decide +kernel

/-- R169: into the outgoing image; the load is over after block 15. -/
theorem test_loadBlockWrite :
    let t := after (.loadBlockWrite 5) (loading 15 (some (List.replicate 24 8)))
    Memory.readWord t.mem (0x642800 + 4 * 473) = 8 ∧ Memory.readWord t.mem (0x642800 + 4 * 474) = 0 ∧
      t.ecu.loads = [] := by decide +kernel

/-- A mirror write of one word, waiting. -/
def mirroring : State := offering (.mirror [(0x780000, 1029)]) ready

/-- R161. -/
theorem test_stackMirrorWrite : Memory.readWord (after .stackMirrorWrite mirroring).mem 0x780000 = 1029 := by
  decide +kernel

/-- A final result waiting. -/
def resulting : State :=
  offering (.result 0 ⟨9, .done, 6⟩ (some 0))
    { ready with cpm := { ready.cpm with request := some ⟨0, some .stop, 9, true⟩ } }

/-- R29, R32: the result cell, and no request pending any more. -/
theorem test_resultWrite :
    let t := after .resultWrite resulting
    Memory.readWord t.mem 0xA0 = 0x109 ∧ Memory.readWord t.mem 0xA4 = 6 ∧ t.cpm.request = none := by decide +kernel

/-- Status words 2 and 5 dirty. -/
def statusDue : State :=
  offering (.status 0) { ready with cpm := { ready.cpm with
    dirty := [2, 5], statusOffered := some 0, statusHeld := (Vector.replicate 24 0).set 5 3 } }

/-- R35: the values held, in the status block. -/
theorem test_statusWrite :
    let t := after .statusWrite statusDue
    Memory.readWord t.mem 0x174 = 3 ∧ Memory.readWord t.mem 0x168 = 0 ∧ t.cpm.dirty = [] := by decide +kernel

/-- The notice of entry 63, waiting. -/
def noticing : State :=
  offering (.notice 0 63 14 2) { ready with cpm := { ready.cpm with publishedIndex := 63, readIndex := 63 } }

/-- R37, R38: the entry and the index, which wraps; NOTICE asserted. -/
theorem test_noticeWrite :
    let t := after .noticeWrite noticing
    Memory.readWord t.mem 0x9F8 = 14 ∧ Memory.readWord t.mem 0x140 = 0 ∧ t.cpm.publishedIndex = 0 ∧
      t.cpm.notice = true := by decide +kernel

/-- R85: UP, with 32 credits to grant. -/
theorem test_openedReceived :
    let t := after (.openedReceived Frame.opened.bytes) { ready with dlc := { Dlc.reset with linkState := .opening } }
    t.dlc.linkState = .up ∧ t.dlc.released = 32 ∧ t.dlc.lane.map LaneEntry.frame = [.grant] := by decide +kernel

/-- R86: OPENING, with an OPEN. -/
theorem test_clearReceived :
    let t := after (.clearReceived Frame.clearLink.bytes) ready
    t.dlc.linkState = .opening ∧ t.dlc.lane.map LaneEntry.frame = [.openLink] := by decide +kernel

/-- A PLAY row of segment 1029. -/
def playRow (seq : BitVec 3) (row : BitVec 5) : List Byte :=
  (Frame.playRow seq 1029 row false 0 (List.replicate 16 6)).bytes

set_option maxRecDepth 1000000 in
/-- R96: seq 2 while 0 is expected asks for 0 and 1. -/
theorem test_playRowReceived :
    let t := after (.playRowReceived (playRow 2 4)) ready
    t.dlc.lane.map LaneEntry.frame = [.missing 3] ∧ t.dlc.recvWindow = 4 ∧ t.dlc.outstanding = 31 ∧
      t.dlc.staging.map StagedRow.row = [4] := by decide +kernel

/-- Row 0 of segment 1029 retained under seq 0. -/
def retaining : State :=
  withSlot 5 { claimed 1029 with write := .sending } { recording with
    dlc := { recording.dlc with
      retention := [⟨0, 1029, 0, 5, 1, some (List.replicate 16 6)⟩], sendSeq := 1, ackTimer := some 10 } }

/-- R91: the row acknowledged, credits up to 32. -/
theorem test_grantReceived :
    let t := after (.grantReceived (Frame.grant 1 30).bytes) retaining
    t.dlc.retention = [] ∧ t.dlc.writeCredits = 32 ∧ (t.toChip.slot 5).rowsAcked = 1 := by decide +kernel

/-- R92: the row again, counted. -/
theorem test_missingReceived :
    let t := after (.missingReceived (Frame.missing 1).bytes) retaining
    t.dlc.lane.map LaneEntry.frame = [.row 0 1029 0 (List.replicate 16 6)] ∧ t.toChip.counter .resends = 1 := by
  decide +kernel

/-- R56, R113: an unwritten slot becomes FILL with 384 underruns. -/
theorem test_dueReceived :
    let t := after (.dueReceived (Frame.due 1029).bytes) recording
    (fun x : Slot => (x.write, x.material, x.underrunCount)) (t.toChip.slot 5) = (.closed, .fill, 384) ∧
      t.toChip.counter .underrun = 1 := by decide +kernel

/-- R81: counted. -/
theorem test_badCrcFrame : (after (.badCrcFrame [0x70, 0, 0]) ready).toChip.counter .badCrcRows = 1 := by
  decide +kernel

/-- R83: an OPENED in UP changes nothing. -/
theorem test_droppedFrame : (after (.droppedFrame Frame.opened.bytes) ready).dlc = ready.dlc := by decide +kernel

/-- Credits released, a GRANT waiting. -/
def granting : State :=
  { ready with dlc := { ready.dlc with outstanding := 24, released := 8, lane := [⟨.grant, 0⟩] } }

/-- R99, R187: kind 2, next-expected 0, 8 credits; the credits become outstanding. -/
theorem test_frameLeaves :
    let t := after (.frameLeaves false) granting
    t.dlc.sent.map (List.take 2) = [[0x20, 8]] ∧ t.dlc.outstanding = 32 ∧ t.dlc.released = 0 := by decide +kernel

/-- R84. -/
theorem test_openRetryExpiry :
    let t := after .openRetryExpiry
      { ready with dlc := { Dlc.reset with linkState := .opening, openTimer := some 0 } }
    t.dlc.lane.map LaneEntry.frame = [.openLink] ∧ t.dlc.openTimer = some 5000 := by decide +kernel

/-- A row retained, its timer expired, after some retries. -/
def expired (retries : Nat) : State :=
  { retaining with dlc := { retaining.dlc with ackTimer := some 0, retryCount := retries } }

/-- R93: again below the retry limit of 3; at it the link fails. -/
theorem test_ackTimerExpiry :
    (after .ackTimerExpiry (expired 2)).dlc.retryCount = 3 ∧
      (after .ackTimerExpiry (expired 3)).dlc.linkState = .failed := by decide +kernel

/-- R99. -/
theorem test_creditTimerExpiry :
    (after .creditTimerExpiry { ready with dlc := { ready.dlc with creditTimer := some 0 } }).dlc.lane.map
      LaneEntry.frame = [.grant] := by decide +kernel

/-- Slot 5 SENDING in a drain whose timer has expired. -/
def draining : State :=
  { retaining with rc := { state := .draining, run := retaining.rc.run.map fun r => { r with drainTimer := some 0 } } }

/-- R94, R118: the send is given up and the run ends. -/
theorem test_drainTimerExpiry :
    let t := after .drainTimerExpiry draining
    t.rc.state = .idle ∧ t.dlc.retention.map Retained.words = [none] := by decide +kernel

/-! ## A state for the hypotheses of each statement -/

/-- An offered head is granted next. -/
theorem heads (w : PostedWrite) (s : State) : (headed w s).Heads w w.act := ⟨rfl, rfl, rfl⟩

/-- An offered request word is taken. -/
theorem asks (w : PostedWrite) (s : State) (k : RequestKind) (act : w.act = .request k)
    (isReady : s.cpm.partState = .ready) (free : s.cpm.request = none) : (headed w s).Asks w k :=
  ⟨⟨rfl, act, rfl⟩, isReady, free⟩

/-- Counters at 0 are in their range. -/
theorem countersBounded (p : Chip) (zero : p.cpm.counters = Vector.replicate 16 0) (none : p.cpm.overflow = 0) :
    CountersBounded p := by
  constructor
  · intro c
    rw [zero]
    simp
  · rw [none]
    exact Nat.zero_le _

/-- A ring with room. -/
theorem ringRoom (p : Chip) (room : ((p.cpm.writeIndex + 1) % 64 != p.cpm.readIndex) = true) : p.RingRoom := by
  simpa [Chip.RingRoom, Config.ringEntries] using room

/-- A ring with room for n notices beside those that releases of slots raise. -/
theorem roomAfter (p : Chip) (n : Nat)
    (room : ((List.range (n + 2)).all fun k => (p.cpm.writeIndex + k + 1) % 64 != p.cpm.readIndex) = true) :
    p.RoomAfterReleases n := by
  have holds : ∀ k, k < n + 2 → (p.cpm.writeIndex + k + 1) % 64 ≠ p.cpm.readIndex := by simpa using room
  exact ⟨fun k hk => holds k (by omega), .inl holds⟩

theorem witness_IdleStepIsOneMicrosecond : ready.pending = [] := rfl

theorem witness_SilentCommandsKeepMemory : Instr.silent .pinReset = true ∧ ∃ t, exec .pinReset ready = .next t :=
  ⟨rfl, _, rfl⟩

theorem witness_EveryStepKeepsMemoryForm :
    Memory.wf (storing [(0x1000, 7)] ready).mem = true ∧ ∃ t, step (storing [(0x1000, 7)] ready) = .next t :=
  ⟨by decide +kernel, _, rfl⟩

/-- A FAILED link keeps its credit counts while staging is empty (log 41). -/
def failed : State :=
  { ready with dlc := { Dlc.reset with linkState := .failed, outstanding := 20, released := 3 } }

theorem witness_EveryStepKeepsCreditsBalance :
    (CreditsBalance ready.toChip ∧ ∃ t, step ready = .next t) ∧
    (CreditsBalance failed.toChip ∧ ∃ t, step failed = .next t) :=
  ⟨⟨⟨by decide +kernel, fun _ => by decide +kernel⟩, _, rfl⟩,
    ⟨⟨by decide +kernel, fun h => absurd rfl h⟩, _, rfl⟩⟩

theorem witness_EveryStepKeepsRetentionBound : RetentionBounded fetching.toChip ∧ ∃ t, step fetching = .next t :=
  ⟨⟨by decide +kernel, by decide +kernel, fun _ => by decide +kernel⟩, _, rfl⟩

theorem witness_EveryStepKeepsBoundsAndNotice :
    (∃ t, step ready = .next t) ∧ CountsBounded ready.toChip ∧ NoticeFollows ready.toChip ∧
      PostedBounded (headed (posted 0x1000 .plain [1, 2]) ready).toChip :=
  ⟨⟨_, rfl⟩, ⟨countersBounded _ rfl rfl, by decide +kernel, by decide +kernel, by decide +kernel, by decide +kernel,
    by decide +kernel⟩, rfl, by decide +kernel, by
      intro w h
      have : w = posted 0x1000 .plain [1, 2] := by simpa [headed] using h
      rw [this]
      decide +kernel⟩

theorem witness_EveryStepKeepsSlotsAndRun :
    (∃ t, step recording = .next t) ∧ SlotsPlaced recording.toChip ∧ RunRecorded recording.toChip ∧
      (recording.toChip.slot 5).claimed = true := by
  refine ⟨⟨_, rfl⟩, ?_, ⟨fun _ => rfl, fun h => by cases h⟩, by decide +kernel⟩
  unfold SlotsPlaced
  decide +kernel

theorem witness_CountersNeverFallWhileReady :
    Instr.stop ≠ .pinReset ∧ ready.cpm.partState = .ready ∧ CountersBounded ready.toChip ∧
      ∃ t, exec .stop ready = .next t :=
  ⟨by decide, rfl, countersBounded _ rfl rfl, _, rfl⟩

theorem witness_WriteAcceptDecides :
    legalBurst (4 : BusAddr).toNat [(1 : Word), 2].length = false ∧
    (legalBurst (0x7FFFFC : BusAddr).toNat [(1 : Word)].length = true ∧
      ready.toChip.rangeOf (0x7FFFFC : BusAddr).toNat = .privateRegion) ∧
    (let s := { ready with lbp := { ready.lbp with posted := List.replicate 15 (posted 0x1000 .plain [1]) } };
      legalBurst (0x800000 : BusAddr).toNat [(1 : Word)].length = true ∧
        s.toChip.rangeOf (0x800000 : BusAddr).toNat ≠ .privateRegion ∧ s.lbp.posted.length < 16) ∧
    ready.cpm.partState = .ready ∧ State.reset.cpm.partState = .unconfigured ∧ ready.toChip.RingRoom :=
  ⟨by decide +kernel, by decide +kernel, by decide +kernel, rfl, rfl, ringRoom _ (by decide +kernel)⟩

theorem witness_ReadAcceptDecides :
    legalBurst (0x10 : BusAddr).toNat 8 = false ∧ legalBurst (0x20 : BusAddr).toNat 8 = true ∧
      ∃ x, ready.toChip.read x = none := ⟨by decide +kernel, by decide +kernel, 7, by decide +kernel⟩

/-- A head write for each command that grants one by its row. -/
def headTable : List (Instr × WriteAct × PostedWrite) :=
  [(.writeGrant, .plain, posted 0x1000 .plain [1, 2]), (.modeMapWrite, .modeMap, cell 0 (List.replicate 8 0)),
    (.modeSignalWrite, .modeSignal, cell 1 (List.replicate 8 0)), (.modeLinkWrite, .modeLink, cell 2 (List.replicate 8 0)),
    (.modeEditWrite, .modeEdit, cell 3 (List.replicate 8 0)), (.play, .request .play, request 1 []),
    (.record, .request .record, request 2 []), (.edit, .request .edit, request 3 []),
    (.revert, .request .revert, request 4 []), (.stop, .request .stop, request 5 []),
    (.capture, .request .capture, request 6 []), (.dropClip, .request .dropClip, request 7 []),
    (.mark, .request .mark, request 8 []), (.linkClear, .request .linkClear, request 9 []),
    (.badReq, .badRequest, request 10 []), (.consumeCountWrite, .consumeCount, posted 0xC0 .controlPage [5]),
    (.inputStatusWrite, .inputStatus, posted 0xE0 .controlPage [5]),
    (.noticeReadIndexWrite, .readIndex, posted 0x120 .controlPage [5])]

theorem witness_HeadGrantStoresBurst :
    Memory.wf ready.mem = true ∧
      ∀ x ∈ headTable, x.1.headRow = some x.2.1 ∧ (headed x.2.2 ready).Heads x.2.2 x.2.1 := by
  refine ⟨rfl, ?_⟩
  have table : ∀ x ∈ headTable, x.1.headRow = some x.2.1 ∧ x.2.2.act = x.2.1 := by decide +kernel
  intro x member
  obtain ⟨row, act⟩ := table x member
  exact ⟨row, act ▸ heads x.2.2 ready⟩

/-- Two plain writes in the queue, a read waiting for the first. -/
def waiting : State :=
  let w := posted 0x1000 .plain [1, 2]
  let r : Read := ⟨3, 77, 0x1004, 1, .plain, .waiting, [.posted 7], [], none, false, false, .none⟩
  let s := headed w ready
  { s with lbp := { s.lbp with posted := [w, { w with id := 8 }], reads := s.lbp.reads.set 0 (some r) } }

theorem witness_WriteGrantLeavesTheRest :
    waiting.Heads (posted 0x1000 .plain [1, 2]) .plain ∧ (posted 0x1000 .plain [1, 2]).addr % 4 = 0 ∧
      Memory.wf waiting.mem = true ∧ waiting.lbp.posted.tail ≠ [] ∧
      ∃ r, waiting.toChip.read 0 = some r ∧ r.state = .waiting ∧ r.waits = [.posted (posted 0x1000 .plain [1, 2]).id] :=
  ⟨⟨rfl, by decide +kernel, rfl⟩, by decide +kernel, rfl, by decide +kernel, _, rfl, rfl, rfl⟩

theorem witness_AudioViewWriteTakesWords :
    let w := posted (0x400000 + 1536 * 5 + 24) (.audioView ⟨5, 3, 0⟩) [0x800000, 1000]
    (headed w recording).Heads w (.audioView ⟨5, 3, 0⟩) ∧ Memory.wf (headed w recording).mem = true ∧
      CountersBounded (headed w recording).toChip :=
  ⟨heads _ _, rfl, countersBounded _ rfl rfl⟩

/-- The words of an audio view write that its slot accepts (R7). -/
def taken (s : State) (w : PostedWrite) (place : ViewPlace) : List (Word × Nat) :=
  w.data.zipIdx.filter fun dk =>
    (s.toChip.slot place.slot).write == .filling && s.toChip.needs place.slot (place.advance dk.2).pair

/-- Every needed channel is written once the accepted words are. -/
def fills (s : State) (w : PostedWrite) (place : ViewPlace) : Prop :=
  ∀ k, k < 384 → s.toChip.needs place.slot (k / 2) = true →
    ((s.toChip.slot place.slot).written.getLsbD k || (taken s w place).any fun dk =>
      2 * (place.advance dk.2).pair + (place.advance dk.2).channel == k) = true

/-- An EDIT run with slot 5 as given, beside its segment and its awaiting marker base. -/
def editingOn (x : Slot) (clip : Option (Fin 4)) (n : Nat) : State :=
  withSlot 5 x (run .edit (some .edit) (.edit punch clip 0 0 n) 1029 1 ready)

theorem witness_AudioViewWriteTakesWords_slot :
    let w := posted (0x400000 + 1536 * 5 + 64) (.audioView ⟨5, 8, 0⟩) [0x800000, 1000]
    let place : ViewPlace := ⟨5, 8, 0⟩
    let last (x : Slot) : Slot := { x with write := .filling, written := BitVec.allOnes 384 ^^^ 0x30000 }
    let recordLast := withSlot 5 (last (claimed 1029)) recording
    let editLast := editingOn { last (claimed 1029) with play := .ready } none 1
    let editOpen := editingOn { claimed 1029 with write := .filling } none 1
    let filled := withSlot 5 { claimed 1029 with write := .filling, material := .fill } recording
    let shut := withSlot 5 { claimed 1029 with write := .closed } recording
    let here (s : State) (w : PostedWrite) : Prop := (headed w s).Heads w (.audioView place) ∧
      Memory.wf (headed w s).mem = true ∧ s.cpm.pendingMap = none ∧ s.cpm.partState = .ready ∧ s.toChip.RingRoom ∧
      s.lbp.strayNoticed = false ∧ (∃ r, s.rc = ⟨.active, some r⟩ ∧ r.kind ≠ .revert) ∧
      (s.toChip.slot 5).claimed = true
    let digital : PostedWrite := { w with initiator := 2 }
    (here recordLast w ∧ taken recordLast w place ≠ [] ∧ fills recordLast w place) ∧
      (here editLast w ∧ fills editLast w place ∧ (editLast.toChip.slot 5).play = .ready ∧
        (editLast.toChip.slot 5).undoSave ≠ .inProgress) ∧
      (here editOpen w ∧ ¬fills editOpen w place) ∧
      (here recording digital ∧ digital.initiator.val = recording.cpm.map.digitalIn ∧
        recording.cpm.incoming = .unknown ∧ taken recording digital place ≠ [] ∧
        (recording.toChip.slot 5).material ≠ .fill ∧ (taken recording digital place).length = digital.data.length) ∧
      (here filled digital ∧ taken filled digital place ≠ [] ∧ (filled.toChip.slot 5).material = .fill) ∧
      (here editOpen digital ∧ taken editOpen digital place ≠ [] ∧ (editOpen.toChip.slot 5).play ≠ .ready) ∧
      (here shut w ∧ taken shut w place = [] ∧ (taken shut w place).length ≠ w.data.length) := by
  refine ⟨⟨⟨heads _ _, rfl, rfl, rfl, ringRoom _ (by decide +kernel), rfl, ⟨_, rfl, ?_⟩, ?_⟩, ?_, ?_⟩,
    ⟨⟨heads _ _, rfl, rfl, rfl, ringRoom _ (by decide +kernel), rfl, ⟨_, rfl, ?_⟩, ?_⟩, ?_, ?_, ?_⟩,
    ⟨⟨heads _ _, rfl, rfl, rfl, ringRoom _ (by decide +kernel), rfl, ⟨_, rfl, ?_⟩, ?_⟩, ?_⟩,
    ⟨⟨heads _ _, rfl, rfl, rfl, ringRoom _ (by decide +kernel), rfl, ⟨_, rfl, ?_⟩, ?_⟩, rfl, rfl, ?_, ?_, ?_⟩,
    ⟨⟨heads _ _, rfl, rfl, rfl, ringRoom _ (by decide +kernel), rfl, ⟨_, rfl, ?_⟩, ?_⟩, ?_, ?_⟩,
    ⟨⟨heads _ _, rfl, rfl, rfl, ringRoom _ (by decide +kernel), rfl, ⟨_, rfl, ?_⟩, ?_⟩, ?_, ?_⟩,
    ⟨heads _ _, rfl, rfl, rfl, ringRoom _ (by decide +kernel), rfl, ⟨_, rfl, ?_⟩, ?_⟩, ?_, ?_⟩ <;>
  first
  | decide +kernel
  | (unfold fills; decide +kernel)

/-- A part with no mode word written yet. -/
def unconfigured : State := State.reset

/-- A mode word with every field out of its range. -/
def wild (n : Nat) : PostedWrite := cell n (List.replicate 8 0xFFFFFFFF)

theorem witness_ModeWordsApply :
    ((headed (wild 1) ready).Heads (wild 1) .modeSignal ∧
      (headed (wild 1) ready).AppliesNow { ready.cpm.writtenSet with signal := true } ∧
      ((headed (wild 1) ready).shadowed (wild 1)).clampMarks 1 signalRanges ≠ 0) ∧
    ((headed (wild 1) unconfigured).Heads (wild 1) .modeSignal ∧
      (headed (wild 1) unconfigured).AppliesNow { unconfigured.cpm.writtenSet with signal := true }) ∧
    ((headed (wild 2) ready).Heads (wild 2) .modeLink ∧
      (headed (wild 2) ready).AppliesNow { ready.cpm.writtenSet with link := true } ∧
      ((headed (wild 2) ready).shadowed (wild 2)).clampMarks 2 linkRanges ≠ 0) ∧
    ((headed (wild 2) unconfigured).Heads (wild 2) .modeLink ∧
      (headed (wild 2) unconfigured).AppliesNow { unconfigured.cpm.writtenSet with link := true }) ∧
    ((headed (wild 3) ready).Heads (wild 3) .modeEdit ∧
      (headed (wild 3) ready).AppliesNow { ready.cpm.writtenSet with edit := true } ∧
      ((headed (wild 3) ready).shadowed (wild 3)).clampMarks 3 editRanges ≠ 0) ∧
    ((headed (wild 3) unconfigured).Heads (wild 3) .modeEdit ∧
      (headed (wild 3) unconfigured).AppliesNow { unconfigured.cpm.writtenSet with edit := true }) ∧
    ready.toChip.RingRoom :=
  ⟨⟨heads _ _, .inl ⟨rfl, rfl⟩, by decide +kernel⟩, ⟨heads _ _, .inr ⟨rfl, rfl⟩⟩,
    ⟨heads _ _, .inl ⟨rfl, rfl⟩, by decide +kernel⟩, ⟨heads _ _, .inr ⟨rfl, rfl⟩⟩,
    ⟨heads _ _, .inl ⟨rfl, rfl⟩, by decide +kernel⟩, ⟨heads _ _, .inr ⟨rfl, rfl⟩⟩, ringRoom _ (by decide +kernel)⟩

/-- The MODE_MAP cell of `ready`. -/
def mapWrite : PostedWrite := cell 0 [0x400000, 0x600000, 2, 3, 0, 0, 0, 0]

theorem witness_ModeWordsHeldDuringRun :
    recording.cpm.partState = .ready ∧ recording.rc.state ≠ .idle ∧
      (headed mapWrite recording).Heads mapWrite .modeMap ∧
      mapRejectMarks ((headed mapWrite recording).shadowed mapWrite).readMap.audioBase
        ((headed mapWrite recording).shadowed mapWrite).readMap.privateBase = 0 ∧
      (headed (wild 1) recording).Heads (wild 1) .modeSignal ∧ (headed (wild 2) recording).Heads (wild 2) .modeLink ∧
      (headed (wild 3) recording).Heads (wild 3) .modeEdit :=
  ⟨rfl, by decide +kernel, heads _ _, by decide +kernel, heads _ _, heads _ _, heads _ _⟩

theorem witness_ModeMapWriteDecides :
    let marks (s : State) (w : PostedWrite) : Nat :=
      let audio := (s.shadowed w).cellField 0 0 % 0x1000000
      let priv := (s.shadowed w).cellField 0 1 % 0x1000000
      (if audio % 0x40000 = 0 then 0 else 1) + (if priv % 0x200000 = 0 then 0 else 2) +
        (if audio < priv + 0x200000 ∧ priv < audio + 0x30000 then 4 else 0) +
        (if audio < 0x1000 ∨ priv < 0x1000 then 8 else 0)
    ((headed (wild 0) ready).Heads (wild 0) .modeMap ∧ marks (headed (wild 0) ready) (wild 0) ≠ 0 ∧
      ready.toChip.RingRoom) ∧
    ((headed mapWrite ready).Heads mapWrite .modeMap ∧ marks (headed mapWrite ready) mapWrite = 0 ∧
      (headed mapWrite ready).AppliesNow { ready.cpm.writtenSet with map := true } ∧
      (headed mapWrite ready).ecu.capture = none) ∧
    ((headed mapWrite unconfigured).Heads mapWrite .modeMap ∧ marks (headed mapWrite unconfigured) mapWrite = 0 ∧
      (headed mapWrite unconfigured).AppliesNow { unconfigured.cpm.writtenSet with map := true } ∧
      (headed mapWrite unconfigured).ecu.capture = none) :=
  ⟨⟨heads _ _, by decide +kernel, ringRoom _ (by decide +kernel)⟩,
    ⟨heads _ _, by decide +kernel, .inl ⟨rfl, rfl⟩, rfl⟩, ⟨heads _ _, by decide +kernel, .inr ⟨rfl, rfl⟩, rfl⟩⟩

/-- A capture under way with no run in progress, its block read offered beside a posted write at the head. -/
def captureHeaded (w : PostedWrite) (stage : CopyStage) : State :=
  let s := headed w { capturing { capture with stage := stage } with rc := ⟨.idle, none⟩ }
  { s with mp := { s.mp with queues := s.mp.queues.set 5 [⟨.capture, 0⟩] } }

theorem witness_ModeMapWriteDecides_capture :
    let s := captureHeaded mapWrite .reading
    s.Heads mapWrite .modeMap ∧ s.AppliesNow { s.cpm.writtenSet with map := true } ∧ s.ecu.capture = some capture ∧
      (∃ q, s.cpm.request = some q) ∧ (mapRejectMarks (s.shadowed mapWrite).readMap.audioBase
        (s.shadowed mapWrite).readMap.privateBase = 0) ∧
      ((s.mp.queues[(5 : Fin 7)]).countP (fun o => o.req == .capture) = 1) ∧
      (capture.count ≤ 64 ∧ capture.segment ≤ 0 ∧ 0 < capture.count) ∧
      (let alone := { s with cpm := { s.cpm with request := none } };
        alone.Heads mapWrite .modeMap ∧ alone.ecu.capture = some capture ∧ alone.cpm.request = none) :=
  ⟨⟨rfl, rfl, rfl⟩, .inl ⟨rfl, rfl⟩, rfl, ⟨_, rfl⟩, by decide +kernel, by decide +kernel, by decide, ⟨rfl, rfl, rfl⟩,
    rfl, rfl⟩

/-- A part with some mode words written. -/
def partly (marks : WrittenSet) : State :=
  { State.reset with cpm := { Cpm.reset with writtenSet := marks } }

theorem witness_FourthMarkEntersReady :
    (∀ marks, (partly marks).cpm.partState = .unconfigured) ∧
      (headed mapWrite (partly ⟨false, true, true, true⟩)).Heads mapWrite .modeMap ∧
      mapRejectMarks ((headed mapWrite (partly ⟨false, true, true, true⟩)).shadowed mapWrite).readMap.audioBase
        ((headed mapWrite (partly ⟨false, true, true, true⟩)).shadowed mapWrite).readMap.privateBase = 0 ∧
      (headed (wild 1) (partly ⟨true, false, true, true⟩)).Heads (wild 1) .modeSignal ∧
      (headed (wild 2) (partly ⟨true, true, false, true⟩)).Heads (wild 2) .modeLink ∧
      (headed (wild 3) (partly ⟨true, true, true, false⟩)).Heads (wild 3) .modeEdit :=
  ⟨fun _ => rfl, heads _ _, by decide +kernel, heads _ _, heads _ _, heads _ _⟩

/-- A READY part with a request PENDING. -/
def pendingRequest : State :=
  { ready with cpm := { ready.cpm with request := some ⟨0, some .stop, 8, false⟩, nextRequest := 1 } }

theorem witness_RequestWordDecides :
    (Instr.badReq.headRow = some .badRequest ∧ (headed (request 10 []) unconfigured).Heads (request 10 []) .badRequest ∧
      unconfigured.cpm.partState = .unconfigured) ∧
    (Instr.play.headRow = some (.request .play) ∧
      (headed (request 1 []) pendingRequest).Heads (request 1 []) (.request .play) ∧
      pendingRequest.cpm.partState = .ready ∧ ∃ q, pendingRequest.cpm.request = some q ∧
        ¬(∃ k, WriteAct.request .play = .request k ∧ k.abandons = true ∧ q.kind = some .capture ∧ q.reported = false ∧
          pendingRequest.ecu.capture.isSome = true)) ∧
    ((headed (request 10 []) ready).Heads (request 10 []) .badRequest ∧
      (headed (request 1 []) ready).Heads (request 1 []) (.request .play) ∧ ready.cpm.partState = .ready ∧
      ready.cpm.request = none) ∧ pendingRequest.toChip.RingRoom :=
  ⟨⟨rfl, heads _ _, rfl⟩, ⟨rfl, heads _ _, rfl, _, rfl, fun ⟨_, _, _, h, _⟩ => by cases h⟩,
    ⟨heads _ _, heads _ _, rfl, rfl⟩, ringRoom _ (by decide +kernel)⟩

theorem witness_RequestWordDecides_capture :
    let s := captureHeaded (request 1 [2, 3, 1]) .writing
    Instr.play.headRow = some (.request .play) ∧ s.Heads (request 1 [2, 3, 1]) (.request .play) ∧
      s.cpm.partState = .ready ∧ RequestKind.play.abandons = true ∧
      (∃ q, s.cpm.request = some q ∧ q.kind = some .capture ∧ q.reported = false) ∧ s.ecu.capture.isSome = true ∧
      s.rc.run = none :=
  ⟨rfl, ⟨rfl, rfl, rfl⟩, rfl, rfl, ⟨_, rfl, rfl, rfl⟩, rfl, rfl⟩

/-- The link is opening. -/
def opening : State :=
  { ready with dlc := { Dlc.reset with linkState := .opening, openTimer := some 0, lane := [⟨.openLink, 0⟩] } }

theorem witness_RunStartsRefused :
    ((headed (request 1 []) recording).Asks (request 1 []) .play ∧ recording.rc.state ≠ .idle) ∧
    (let w := request 1 [16777212, 16777214, 1];
      (headed w ready).Asks w .play ∧ ready.rc.state = .idle ∧ ((headed w ready).shadowed w).arg 2 = 1 ∧
        ((headed w ready).shadowed w).arg 0 + 1 < ((headed w ready).shadowed w).arg 1) ∧
    (let w := request 2 [16777212, 2];
      (headed w ready).Asks w .record ∧ ((headed w ready).shadowed w).arg 1 ≠ 0 ∧
        16777213 < ((headed w ready).shadowed w).arg 0 + ((headed w ready).shadowed w).arg 1) ∧
    (let w := request 3 [16777212, 1];
      (headed w opening).Asks w .edit ∧ opening.rc.state = .idle ∧ ((headed w opening).shadowed w).arg 0 ≤ 16777212 ∧
        ((headed w opening).shadowed w).arg 0 + ((headed w opening).shadowed w).arg 1 ≤ 16777213 ∧
        opening.dlc.linkState ≠ .up) ∧
    (let w := request 4 [];
      (headed w ready).Asks w .revert ∧ ready.rc.state = .idle ∧ ready.dlc.linkState = .up ∧ ready.ecu.stack = []) :=
  ⟨⟨asks _ _ _ (by decide +kernel) rfl rfl, by decide +kernel⟩,
    ⟨asks _ _ _ (by decide +kernel) rfl rfl, rfl, by decide +kernel, by decide +kernel⟩,
    ⟨asks _ _ _ (by decide +kernel) rfl rfl, by decide +kernel, by decide +kernel⟩,
    ⟨asks _ _ _ (by decide +kernel) rfl rfl, rfl, by decide +kernel, by decide +kernel, by decide +kernel⟩,
    ⟨asks _ _ _ (by decide +kernel) rfl rfl, rfl, rfl, rfl⟩⟩

theorem witness_PlayAndRecordStart :
    (let w := request 1 [2, 3, 1];
      let a := (headed w ready).shadowed w;
      (headed w ready).Asks w .play ∧ ready.rc.state = .idle ∧ ready.dlc.linkState = .up ∧ a.arg 2 = 1 ∧
        a.arg 0 ≤ 16777212 ∧ a.arg 1 ≠ 0 ∧ a.arg 1 ≤ a.arg 0 + 1) ∧
    (let w := request 2 [16777212, 1];
      let a := (headed w ready).shadowed w;
      (headed w ready).Asks w .record ∧ a.arg 0 ≤ 16777212 ∧ a.arg 1 ≠ 0 ∧ a.arg 0 + a.arg 1 ≤ 16777213) ∧
    (let w := request 1 [16777212, 0, 0];
      let a := (headed w ready).shadowed w;
      (headed w ready).Asks w .play ∧ a.arg 2 = 0 ∧ a.arg 0 ≤ 16777212 ∧ a.arg 1 = 0) :=
  ⟨⟨asks _ _ _ (by decide +kernel) rfl rfl, rfl, rfl, by decide +kernel⟩,
    ⟨asks _ _ _ (by decide +kernel) rfl rfl, by decide +kernel⟩,
    ⟨asks _ _ _ (by decide +kernel) rfl rfl, by decide +kernel⟩⟩

/-- Clip 1 holds one segment. -/
def clipReady : State :=
  { ready with ecu := { Ecu.reset with clips := Ecu.reset.clips.set 1 ⟨.ready, 1, some .free, false, false⟩ } }

theorem witness_EditStarts :
    let holds (s : State) (w : PostedWrite) (clip : Option (Fin 4)) : Prop :=
      let a := s.shadowed w
      let f := if a.arg 4 = 0 then s.cpm.edit.defaultF else a.arg 4
      s.Asks w .edit ∧ s.rc.state = .idle ∧ s.dlc.linkState = .up ∧ a.arg 1 ≠ 0 ∧ a.arg 0 + a.arg 1 ≤ 16777213 ∧
        (a.arg 4 ≠ 0 → 4 ≤ a.arg 4 ∧ a.arg 4 ≤ 10) ∧ a.arg 2 + 2 ^ f ≤ a.arg 3 ∧ 192 * a.arg 0 ≤ a.arg 2 ∧
        a.arg 2 < 192 * (a.arg 0 + a.arg 1) ∧ a.arg 3 + 2 ^ f ≤ 192 * (a.arg 0 + a.arg 1) ∧
        ((a.arg 5 = 0 ∧ clip = none) ∨
          ∃ k, a.arg 5 = 1 ∧ a.arg 6 = k.val ∧ clip = some k ∧ (s.ecu.clips[k]).state = .ready ∧
            a.arg 3 + 2 ^ f - a.arg 2 ≤ 192 * (s.ecu.clips[k]).length)
    (let w := request 3 [1000, 2, 192000, 192368, 0, 0];
      holds (headed w ready) w none) ∧
    (let w := request 3 [1000, 1, 192000, 192176, 4, 1, 1];
      holds (headed w clipReady) w (some 1)) :=
  ⟨⟨asks _ _ _ (by decide +kernel) rfl rfl, rfl, rfl, by decide +kernel, by decide +kernel, by decide +kernel,
      by decide +kernel, by decide +kernel, by decide +kernel, by decide +kernel, .inl (by decide +kernel)⟩,
    ⟨asks _ _ _ (by decide +kernel) rfl rfl, rfl, rfl, by decide +kernel, by decide +kernel, by decide +kernel,
      by decide +kernel, by decide +kernel, by decide +kernel, by decide +kernel, .inr ⟨1, by decide +kernel⟩⟩⟩

/-- A stack with one EDIT run of given SEG entries on it. -/
def stacked (segs : List (Nat × Fin 256)) (partialMark : Bool) : State :=
  { ready with ecu := { Ecu.reset with
    stack := segs.map (fun x => .seg x.1 x.2) ++ [.run 8 1000 segs.length partialMark] } }

theorem witness_RevertStarts :
    let holds (segs : List (Nat × Fin 256)) (partialMark : Bool) : Prop :=
      let s := headed (request 4 []) (stacked segs partialMark)
      s.Asks (request 4 []) .revert ∧ s.rc.state = .idle ∧ s.dlc.linkState = .up ∧
        s.ecu.stack = [] ++ segs.map (fun x => .seg x.1 x.2) ++ [.run 8 1000 segs.length partialMark] ∧
        ∀ x ∈ segs, 1000 ≤ x.1 ∧ x.1 ≤ 16777212
    holds [(1000, 3)] true ∧ holds [] false ∧ holds [(1001, 0), (1000, 255)] false ∧
      ((headed (request 4 []) (stacked [(1001, 0), (1000, 255)] false)).ecu.saves = [] ∧
        (headed (request 4 []) (stacked [(1001, 0), (1000, 255)] false)).ecu.saving = none) :=
  ⟨⟨asks _ _ _ (by decide +kernel) rfl rfl, rfl, rfl, rfl, by decide +kernel⟩,
    ⟨asks _ _ _ (by decide +kernel) rfl rfl, rfl, rfl, rfl, by decide +kernel⟩,
    ⟨asks _ _ _ (by decide +kernel) rfl rfl, rfl, rfl, rfl, by decide +kernel⟩, rfl, rfl⟩

/-- Clip 0 SPENT, clip 1 of one segment READY, clips 2 and 3 EMPTY. -/
def clipSpent : State :=
  { ready with ecu := { Ecu.reset with
    clips := (Ecu.reset.clips.set 1 ⟨.ready, 1, some .free, false, false⟩).set 0 ⟨.spent, 1, some .none, true, false⟩ } }

/-- The first check an EDIT of segment 1000 on fails (R138), from its arguments. -/
def editFails (s : State) (w : PostedWrite) : Option (ReqOutcome × Nat) :=
  let a := s.shadowed w
  let f := if a.arg 4 = 0 then s.cpm.edit.defaultF else a.arg 4
  let clip : Clip := s.ecu.clips[Fin.ofNat 4 (a.arg 6)]
  if a.arg 1 = 0 then some (.range, 1)
  else if a.arg 4 ≠ 0 ∧ (a.arg 4 < 4 ∨ 10 < a.arg 4) then some (.range, 2)
  else if a.arg 3 < a.arg 2 + 2 ^ f then some (.range, 3)
  else if a.arg 2 < 192 * a.arg 0 ∨ 192 * (a.arg 0 + a.arg 1) ≤ a.arg 2 then some (.range, 4)
  else if 192 * (a.arg 0 + a.arg 1) < a.arg 3 + 2 ^ f then some (.range, 5)
  else if 1 < a.arg 5 ∨ (a.arg 5 = 1 ∧ 3 < a.arg 6) then some (.range, 6)
  else if a.arg 5 = 1 ∧ clip.state = .spent then some (.copy, 1)
  else if a.arg 5 = 1 ∧ clip.state = .empty then some (.badState, 1)
  else if a.arg 5 = 1 ∧ 192 * clip.length < a.arg 3 + 2 ^ f - a.arg 2 then some (.range, 7)
  else none

theorem witness_RunStartsRefused_checks :
    (let w := request 1 [2, 3, 1];
      (headed w opening).Asks w .play ∧ opening.rc.state = .idle ∧ opening.dlc.linkState ≠ .up ∧
        ((headed w opening).shadowed w).arg 2 = 1 ∧
        ((headed w opening).shadowed w).arg 1 ≤ ((headed w opening).shadowed w).arg 0 + 1) ∧
    (let w := request 1 [16777212, 1, 2];
      (headed w ready).Asks w .play ∧ 1 < ((headed w ready).shadowed w).arg 2 ∧
        ((headed w ready).shadowed w).arg 0 + ((headed w ready).shadowed w).arg 1 ≤ 16777213) ∧
    (∀ x ∈ [([1000, 0, 192000, 192176], (ReqOutcome.range, 1)), ([1000, 1, 192000, 192100, 3], (.range, 2)),
        ([1000, 1, 192000, 192100, 11], (.range, 2)), ([1000, 1, 192000, 192015], (.range, 3)),
        ([1000, 1, 191999, 192176], (.range, 4)), ([1000, 1, 192192, 192208], (.range, 4)),
        ([1000, 1, 192000, 192177], (.range, 5)), ([1000, 1, 192000, 192176, 4, 2], (.range, 6)),
        ([1000, 1, 192000, 192176, 4, 1, 4], (.range, 6)), ([1000, 1, 192000, 192176, 4, 1, 0], (.copy, 1)),
        ([1000, 1, 192000, 192176, 4, 1, 3], (.badState, 1)), ([1000, 2, 192000, 192177, 4, 1, 1], (.range, 7))],
      let w := request 3 x.1;
      (headed w clipSpent).Asks w .edit ∧ ((headed w clipSpent).shadowed w).arg 0 = 1000 ∧
        ((headed w clipSpent).shadowed w).arg 1 ≤ 2 ∧ clipSpent.dlc.linkState = .up ∧
        editFails (headed w clipSpent) w = some x.2) ∧
    (let w := request 4 [];
      let s := { stacked [(1000, 3)] false with dlc := opening.dlc };
      (headed w s).Asks w .revert ∧ s.rc.state = .idle ∧ s.dlc.linkState ≠ .up ∧
        s.ecu.stack = [.seg 1000 3, .run 8 1000 1 false]) :=
  ⟨⟨asks _ _ _ (by decide +kernel) rfl rfl, rfl, by decide +kernel, by decide +kernel, by decide +kernel⟩,
    ⟨asks _ _ _ (by decide +kernel) rfl rfl, by decide +kernel, by decide +kernel⟩,
    fun x hx => ⟨asks _ _ _ (by revert x; decide +kernel) rfl rfl, by revert x; decide +kernel⟩,
    ⟨asks _ _ _ (by decide +kernel) rfl rfl, rfl, by decide +kernel, rfl⟩⟩

theorem witness_StopDrainsTheRun :
    ((headed (request 5 []) recording).Heads (request 5 []) (.request .stop) ∧ recording.cpm.partState = .ready ∧
      recording.cpm.request = none ∧ (∃ r, recording.rc = ⟨.active, some r⟩) ∧ recording.cpm.pendingMap = none ∧
      (recording.toChip.slot 5).claimed = true ∧ (recording.toChip.slot 5).write = .filling ∧
      recording.dlc.linkState = .up) ∧
    ((headed (request 5 []) ready).Heads (request 5 []) (.request .stop) ∧ ready.cpm.request = none ∧
      ready.rc.state ≠ .active) ∧
    (let s := { capturing capture with rc := ⟨.idle, none⟩ };
      (headed (request 5 []) s).Heads (request 5 []) (.request .stop) ∧ s.rc.state = .idle ∧
        s.ecu.capture = some capture ∧ ∃ q, s.cpm.request = some q ∧ q.kind = some .capture ∧ q.reported = false) :=
  ⟨⟨heads _ _, rfl, rfl, ⟨_, rfl⟩, rfl, by decide +kernel, by decide +kernel, rfl⟩,
    ⟨heads _ _, rfl, by decide +kernel⟩, ⟨heads _ _, rfl, rfl, _, rfl, rfl, rfl⟩⟩

/-- A stack of 1,024 words: the run of segments 50 and 51, then runs that saved nothing (R161). -/
def fullStack : List StackEntry :=
  [.seg 50 1, .seg 51 2, .run 6 50 2 false] ++ List.replicate 254 (.run 1 2 0 false)

theorem fullStack_oldest : OldestRun fullStack [.seg 50 1, .seg 51 2] (List.replicate 254 (.run 1 2 0 false)) :=
  ⟨fun e he => by
    rcases List.mem_cons.1 he with h | h
    · exact ⟨_, _, h⟩
    · exact ⟨_, _, List.mem_singleton.1 h⟩, 6, 50, 2, false, rfl⟩

theorem fullStack_depth : stackDepth fullStack = 1024 := by decide +kernel

/-- The play side of no slot is on its way and no write side is SENDING. -/
def quiet (s : State) : Prop :=
  ∀ i, (s.toChip.slot i).claimed = true → (s.toChip.slot i).play ≠ .arriving ∧
    (s.toChip.slot i).play ≠ .checking ∧ (s.toChip.slot i).write ≠ .sending

theorem witness_StopDrainsTheRun_ends :
    let w := request 5 []
    let here (s : State) : Prop := (headed w s).Heads w (.request .stop) ∧ s.cpm.partState = .ready ∧
      s.cpm.request = none ∧ s.toChip.RoomAfterReleases 1
    (here retaining ∧ (∃ r, retaining.rc = ⟨.active, some r⟩ ∧ r.kind ≠ .play) ∧
      (retaining.toChip.slot 5).claimed = true ∧ (retaining.toChip.slot 5).write = .sending) ∧
    (let s := { recording with cpm := { recording.cpm with pendingMap := some ⟨0x800000, 0xA00000, 1, 4⟩ } };
      here s ∧ quiet s ∧ (∃ r, s.rc = ⟨.active, some r⟩) ∧ s.ecu.capture = none ∧
        ∃ m, s.cpm.pendingMap = some m) ∧
    (here recording ∧ quiet recording ∧ (∃ r, recording.rc = ⟨.active, some r⟩ ∧ r.kind ≠ .edit) ∧
      recording.cpm.pendingMap = none) ∧
    (let s := { editingOn { claimed 1029 with write := .filling } (some 1) 1 with
        ecu := { Ecu.reset with stack := fullStack, segCount := 0, partialMark := true } };
      here s ∧ quiet s ∧ s.cpm.pendingMap = none ∧
        (∃ r, s.rc = ⟨.active, some r⟩ ∧ r.kind = .edit ∧ r.params = .edit punch (some 1) 0 0 1) ∧
        1024 < stackDepth s.ecu.stack + 4) := by
  refine ⟨⟨⟨heads _ _, rfl, rfl, roomAfter _ _ (by decide +kernel)⟩, ⟨_, rfl, ?_⟩, ?_, ?_⟩,
    ⟨⟨heads _ _, rfl, rfl, roomAfter _ _ (by decide +kernel)⟩, ?_, ⟨_, rfl⟩, rfl, _, rfl⟩,
    ⟨⟨heads _ _, rfl, rfl, roomAfter _ _ (by decide +kernel)⟩, ?_, ⟨_, rfl, ?_⟩, rfl⟩,
    ⟨⟨heads _ _, rfl, rfl, roomAfter _ _ (by decide +kernel)⟩, ?_, rfl, ⟨_, rfl, rfl, rfl⟩, ?_⟩⟩ <;>
  first
  | decide +kernel
  | (unfold quiet; decide +kernel)

theorem witness_ClipRequestsActOnTheirClip :
    (let w := request 6 [1029, 1, 3];
      let s := headed w played;
      s.Asks w .capture ∧ (s.shadowed w).arg 2 = (3 : Fin 4).val ∧ (s.shadowed w).arg 0 = 1029 ∧
        (s.shadowed w).arg 1 = 1 ∧ (s.ecu.clips[(3 : Fin 4)]).state = .empty ∧
        (s.toChip.slot (slotOf 1029)).holds 1029 = true ∧ (s.toChip.slot (slotOf 1029)).play = .ready ∧
        (s.toChip.slot (slotOf 1029)).recovered = .recovered .one .digital false false 6 1 .record) ∧
    (let w := request 7 [4];
      (headed w ready).Asks w .dropClip ∧ 3 < ((headed w ready).shadowed w).arg 0) ∧
    (let w := request 7 [3];
      (headed w ready).Asks w .dropClip ∧ ((headed w ready).shadowed w).arg 0 = (3 : Fin 4).val ∧
        ((headed w ready).ecu.clips[(3 : Fin 4)]).inUse = false) ∧
    (let w := request 7 [0];
      let s := headed w { ready with
        ecu := { Ecu.reset with clips := Ecu.reset.clips.set 0 ⟨.ready, 4, some .free, false, true⟩ } };
      s.Asks w .dropClip ∧ (s.shadowed w).arg 0 = (0 : Fin 4).val ∧ (s.ecu.clips[(0 : Fin 4)]).inUse = true) :=
  ⟨⟨asks _ _ _ (by decide +kernel) rfl rfl, by decide +kernel⟩,
    ⟨asks _ _ _ (by decide +kernel) rfl rfl, by decide +kernel⟩,
    ⟨asks _ _ _ (by decide +kernel) rfl rfl, by decide +kernel⟩,
    ⟨asks _ _ _ (by decide +kernel) rfl rfl, by decide +kernel⟩⟩

/-- `played`, with a next segment READY in slot 6 that may not be copied. -/
def playedNone : State :=
  withSlot 6 { claimed 1030 with play := .ready, recovered := .recovered .none .digital false false 6 1 .record } played

theorem witness_ClipRequestsActOnTheirClip_refused :
    (∀ x ∈ [[1029, 1, 4], [1029, 0, 3], [1029, 65, 3], [16777212, 2, 3], [1029, 3, 2], [1029, 2, 2], [1029, 1, 1]],
      (headed (request 6 x) playedNone).Asks (request 6 x) .capture ∧
        (headed (request 6 x) clipSpent).Asks (request 6 x) .capture) ∧
    (let a (x : List Nat) := (headed (request 6 x) playedNone).shadowed (request 6 x);
      3 < (a [1029, 1, 4]).arg 2 ∧ (a [1029, 0, 3]).arg 1 = 0 ∧ 64 < (a [1029, 65, 3]).arg 1 ∧
        16777213 < (a [16777212, 2, 3]).arg 0 + (a [16777212, 2, 3]).arg 1) ∧
    (clipSpent.ecu.clips[(1 : Fin 4)]).state ≠ .empty ∧ (playedNone.ecu.clips[(2 : Fin 4)]).state = .empty ∧
    (let isReady (g : Nat) : Prop := (playedNone.toChip.slot (slotOf (1029 + g))).holds (1029 + g) = true ∧
        (playedNone.toChip.slot (slotOf (1029 + g))).play = .ready;
      isReady 0 ∧ isReady 1 ∧ ¬isReady 2) ∧
    (playedNone.toChip.slot (slotOf 1029)).recovered.grade ≠ .none ∧
    (playedNone.toChip.slot (slotOf 1030)).recovered.grade = .none :=
  ⟨fun x hx => ⟨asks _ _ _ (by revert x; decide +kernel) rfl rfl, asks _ _ _ (by revert x; decide +kernel) rfl rfl⟩,
    by decide +kernel, by decide +kernel, by decide +kernel, by decide +kernel, by decide +kernel, by decide +kernel⟩

theorem witness_MarkChangesTheEffect :
    (let w := request 8 [1029, 2, 65535];
      let s := headed w recording;
      let x := s.toChip.slot 5;
      s.Asks w .mark ∧ (s.shadowed w).arg 0 = 1029 ∧ (s.shadowed w).arg 1 ≤ 2 ∧ (s.shadowed w).arg 2 ≤ 65535 ∧
        slotOf 1029 = 5 ∧ x.holds 1029 = true ∧ x.write = .filling) ∧
    (let w := request 8 [1029, 0, 0];
      let s := headed w played;
      let x := s.toChip.slot 5;
      s.Asks w .mark ∧ (s.shadowed w).arg 0 = 1029 ∧ (s.shadowed w).arg 1 ≤ 2 ∧ (s.shadowed w).arg 2 ≤ 65535 ∧
        x.holds 1029 = true ∧ x.write ≠ .filling ∧ x.write ≠ .closed) ∧
    (List.replicate 16 BitEffect.keep).length = 16 ∧ 65535 < 65536 :=
  ⟨⟨asks _ _ _ (by decide +kernel) rfl rfl, by decide +kernel⟩,
    ⟨asks _ _ _ (by decide +kernel) rfl rfl, by decide +kernel⟩, rfl, by decide⟩

theorem witness_MarkChangesTheEffect_refused :
    (∀ x ∈ [[16777213, 2, 1], [16777212, 3, 1], [16777212, 2, 65536], [16777212, 2, 65535]],
      (headed (request 8 x) recording).Asks (request 8 x) .mark) ∧
    (let a (x : List Nat) := (headed (request 8 x) recording).shadowed (request 8 x);
      16777212 < (a [16777213, 2, 1]).arg 0 ∧
        ((a [16777212, 3, 1]).arg 0 ≤ 16777212 ∧ 2 < (a [16777212, 3, 1]).arg 1) ∧
        ((a [16777212, 2, 65536]).arg 1 ≤ 2 ∧ 65535 < (a [16777212, 2, 65536]).arg 2) ∧
        ((a [16777212, 2, 65535]).arg 2 ≤ 65535 ∧ (a [16777212, 2, 65535]).arg 0 = 16777212)) ∧
    (recording.toChip.slot (slotOf 16777212)).holds 16777212 = false :=
  ⟨fun x hx => asks _ _ _ (by revert x; decide +kernel) rfl rfl, by decide +kernel, by decide +kernel⟩

theorem witness_LinkClearReopensTheLink :
    (headed (request 9 []) ready).Asks (request 9 []) .linkClear ∧
      (headed (request 9 []) failed).Asks (request 9 []) .linkClear ∧
      (headed (request 9 []) opening).Asks (request 9 []) .linkClear ∧ ready.dlc.linkState = .up ∧
      failed.dlc.linkState = .failed ∧ opening.dlc.linkState = .opening ∧ ready.rc.state = .idle ∧
      ready.toChip.RingRoom ∧ (recording.rc.state ≠ .idle → recording.rc.run.isSome = true) :=
  ⟨asks _ _ _ (by decide +kernel) rfl rfl, asks _ _ _ (by decide +kernel) rfl rfl,
    asks _ _ _ (by decide +kernel) rfl rfl, rfl, rfl, rfl, rfl, ringRoom _ (by decide +kernel), fun _ => rfl⟩

/-- A PLAY run with slot 5 as given, beside a decode item at its last block. -/
def playing (x : Slot) : State :=
  withSlot 5 x (working (.decode { decodeJob with block := 15, slot := 6, segment := 1030 })
    (run .play none .none 1029 2 ready))

/-- `draining` with its STOP waiting for the end. -/
def drained : State := { draining with cpm := { draining.cpm with
  request := some ⟨0, some .stop, 8, false⟩, nextRequest := 1 } }

/-- An EDIT run with slot 5 READY, not consumed and its write side DONE, on a full stack. -/
def editingFull : State :=
  { editingOn { claimed 1029 with play := .ready, write := .done } (some 1) 1 with
    ecu := { Ecu.reset with stack := fullStack } }

/-- Each form of a slot that an abort tells apart. -/
theorem abort_slots :
    let played (x : Slot) : Prop := x.play = .ready ∧ x.consumed = true ∧ x.pins = 0
    let at5 (s : State) : Slot := s.toChip.slot 5
    ((at5 recording).claimed = true ∧ (at5 recording).play = .empty ∧ (recording.toChip.slot 4).claimed = false) ∧
    (let x := at5 (playing { claimed 1029 with play := .arriving });
      x.claimed = true ∧ x.play = .arriving ∧ ¬played x) ∧
    (let x := at5 (playing { claimed 1029 with play := .ready, consumed := true }); x.claimed = true ∧ played x) ∧
    (let x := at5 (playing { claimed 1029 with play := .ready, consumed := true, pins := 1 });
      x.claimed = true ∧ x.play ≠ .empty ∧ ¬played x) ∧
    (at5 editingFull).claimed = true ∧ (at5 editingFull).write = .done ∧ ¬played (at5 editingFull) ∧
    (∃ r, editingFull.rc.run = some r ∧ r.kind = .edit ∧ r.params = .edit punch (some 1) 0 0 1) ∧
    OldestRun editingFull.ecu.stack [.seg 50 1, .seg 51 2] (List.replicate 254 (.run 1 2 0 false)) ∧
    stackDepth editingFull.ecu.stack = 1024 := by
  refine ⟨?_, ?_, ?_, ?_, ?_, ?_, ?_, ⟨_, rfl, rfl, rfl⟩, fullStack_oldest, fullStack_depth⟩ <;> decide +kernel

theorem witness_LinkClearReopensTheLink_abort :
    let w := request 9 []
    let here (s : State) (link : LinkState) : Prop := (headed w s).Asks w .linkClear ∧ s.dlc.linkState = link ∧
      (∃ r, s.rc.run = some r) ∧ s.rc.state ≠ .idle ∧ s.toChip.RoomAfterReleases 2
    here recording .up ∧ here draining .up ∧ here { recording with dlc := failed.dlc } .failed ∧
      here (playing { claimed 1029 with play := .arriving }) .up ∧ here editingFull .up := by
  refine ⟨⟨?_, rfl, ⟨_, rfl⟩, ?_, ?_⟩, ⟨?_, rfl, ⟨_, rfl⟩, ?_, ?_⟩, ⟨?_, rfl, ⟨_, rfl⟩, ?_, ?_⟩,
    ⟨?_, rfl, ⟨_, rfl⟩, ?_, ?_⟩, ⟨?_, rfl, ⟨_, rfl⟩, ?_, ?_⟩⟩ <;>
  first
  | decide +kernel
  | exact asks _ _ _ (by decide +kernel) rfl rfl
  | exact roomAfter _ _ (by decide +kernel)

/-- A PLAY run whose position 0 is READY and counted in the ready prefix. -/
def consumable : State := { played with cpm := { played.cpm with readyPrefix := 1 } }

theorem witness_ConsumeCountConsumes :
    let w := posted 0xC0 .controlPage [5]
    let zero := posted 0xC0 .controlPage [0]
    (headed zero consumable).Heads zero .consumeCount ∧ (headed w consumable).Heads w .consumeCount ∧
      consumable.cpm.pendingMap = none ∧ (zero.wordAt 0x0C0).toNat ≤ consumable.cpm.consumeCount ∧
      consumable.cpm.consumeCount < (w.wordAt 0x0C0).toNat ∧
      ∃ r, consumable.rc.run = some r ∧ r.backward = false ∧ r.t0 = 1029 ∧
        (consumable.toChip.slot (slotOf 1029)).holds 1029 = true :=
  ⟨heads _ _, heads _ _, rfl, by decide +kernel, by decide +kernel, _, rfl, rfl, rfl, by decide +kernel⟩

theorem witness_InputStatusAndReadIndex :
    (let w := { posted 0xE0 .controlPage [0x80000001] with initiator := 2 };
      (headed w ready).Heads w .inputStatus ∧ ready.cpm.partState = .ready ∧ w.initiator.val = ready.cpm.map.digitalIn) ∧
    (let s := { ready with cpm := { ready.cpm with publishedIndex := 1, readIndex := 62, notice := true } };
      let w := posted 0x120 .controlPage [1];
      let old := posted 0x120 .controlPage [2];
      (headed w s).Heads w .readIndex ∧ (headed old s).Heads old .readIndex ∧ s.cpm.readIndex < 64 ∧
        s.cpm.publishedIndex < 64 ∧
        (∃ k, k ≤ (s.cpm.publishedIndex + 64 - s.cpm.readIndex) % 64 ∧
          (w.wordAt 0x120).toNat = (s.cpm.readIndex + k) % 64) ∧
        ∀ k, k ≤ (s.cpm.publishedIndex + 64 - s.cpm.readIndex) % 64 →
          (old.wordAt 0x120).toNat ≠ (s.cpm.readIndex + k) % 64) :=
  ⟨⟨heads _ _, rfl, by decide +kernel⟩, heads _ _, heads _ _, by decide +kernel, by decide +kernel,
    ⟨3, by decide +kernel⟩, by decide +kernel⟩

theorem witness_ReadsReturnWords :
    (let r : Read := ⟨3, 77, 0x1000, 2, .plain, .offered, [], [], none, false, false, .none⟩;
      (reading 0x1000 2 .plain ready).ReadNext 0 r ∧ r.range ≠ .controlPage ∧ ∀ place, r.range ≠ .audioView place) ∧
    (let r : Read := ⟨3, 77, 0xE0, 8, .controlPage, .offered, [], [], none, false, false, .none⟩;
      (reading 0xE0 8 .controlPage ready).ReadNext 0 r ∧ ¬0x100 < r.addr + 4 * r.len) ∧
    (let r : Read := ⟨3, 77, 0x100, 1, .controlPage, .offered, [], [], none, false, false, .none⟩;
      (reading 0x100 1 .controlPage ready).ReadNext 0 r ∧ r.range = .controlPage ∧
        r.initiator.val = ready.cpm.map.digitalOut ∧ r.addr ≤ 0x100 ∧ 0x100 < r.addr + 4 * r.len) :=
  ⟨⟨⟨by decide +kernel, rfl, rfl⟩, by decide +kernel, by intro place h; cases h⟩,
    ⟨⟨by decide +kernel, rfl, rfl⟩, by decide +kernel⟩, ⟨⟨by decide +kernel, rfl, rfl⟩, by decide +kernel⟩⟩

/-- An audio-view read of pair 16, left, of slot 5. -/
def viewRead : Read :=
  ⟨3, 77, 0x400000 + 1536 * 5 + 128, 1, .audioView ⟨5, 16, 0⟩, .offered, [], [], none, false, false, .none⟩

/-- A state where that read is granted next. -/
def viewing (s : State) : State := reading (0x400000 + 1536 * 5 + 128) 1 (.audioView ⟨5, 16, 0⟩) s

theorem witness_AudioViewFetchReads :
    (∀ s, (viewing s).mp = (viewing ready).mp) ∧
    ((viewing ready).ReadNext 0 viewRead ∧ ((viewing ready).toChip.slot 5).claimed = false) ∧
    ((viewing reporting).ReadNext 0 viewRead ∧ ((viewing reporting).toChip.slot 5).claimed = true ∧
      ((viewing reporting).toChip.slot 5).play = .checking ∧ viewRead.late = false ∧ viewRead.holdTimer = none) ∧
    ((viewing played).ReadNext 0 viewRead ∧ ((viewing played).toChip.slot 5).claimed = true ∧
      ((viewing played).toChip.slot 5).play = .ready ∧
      flagIn (Memory.readWord (viewing played).mem (0x600000 + 2048 * 5 + 4 * (480 + 38 / 16))) (38 % 16) ≠ .lost) ∧
    (let s := viewing (storing [(0x600000 + 2048 * 5 + 4 * 482, 0x3000)] played);
      s.ReadNext 0 viewRead ∧ (s.toChip.slot 5).claimed = true ∧ (s.toChip.slot 5).play = .ready ∧
        flagIn (Memory.readWord s.mem (0x600000 + 2048 * 5 + 4 * (480 + 38 / 16))) (38 % 16) = .lost ∧
        0 < 192 * (s.toChip.slot 5).segment + 16) :=
  ⟨fun _ => rfl, ⟨⟨by decide +kernel, rfl, rfl⟩, by decide +kernel⟩, ⟨⟨by decide +kernel, rfl, rfl⟩, by decide +kernel⟩,
    ⟨⟨by decide +kernel, rfl, rfl⟩, by decide +kernel⟩, ⟨⟨by decide +kernel, rfl, rfl⟩, by decide +kernel⟩⟩

/-- The scan of an evaluation over a block of silence, with the listed pair slots LOST. -/
def scanned (e : Evaluation) (lost : List Nat) (slot : Slot) : ScanResult :=
  { e with fetch := none }.scan false (some ⟨1029, 1, slot,
    (List.range 12).map fun q => if lost.contains q then (8388606, .lost) else (8388606, .clean)⟩)

theorem witness_NeighbourFetchGoesOn :
    let s := offering (.neighbour 4) (concealing played)
    (s.toChip.evaluation evaluation.id = some evaluation ∧
      evaluation.fetch = some ⟨1029, 1, 0x600000⟩ ∧ s.mp.mayGrant (.neighbour evaluation.id) = true) ∧
    (∃ e' place, scanned evaluation [0, 1, 2, 3] (s.toChip.slot 5) = .fetch e' place) ∧
    (∃ v late, scanned evaluation [] (s.toChip.slot 5) = .ended v late) ∧
    ∃ e', scanned { evaluation with stage := .lookAhead, behind := some (7, 1) } []
      { claimed 1029 with play := .arriving } = .held e' :=
  ⟨⟨by decide +kernel, rfl, rfl⟩, ⟨_, _, rfl⟩, ⟨_, _, rfl⟩, _, rfl⟩

/-- Block 1 of segment 1029, granted READY, with a good word in pair slot 0 and LOST ones in the others but the last. -/
def granted : Fetched :=
  ⟨1029, 1, { claimed 1029 with play := .ready },
    (8388616, .clean) :: List.replicate 10 (8388606, .lost) ++ [(8388626, .fixed)]⟩

theorem witness_EvaluationValue :
    (granted.slot.holds granted.segment = true ∧ granted.slot.play = .ready) ∧
    (let e := { evaluation with index := 192 * 1029 + 17 };
      e.stage = .lookBehind ∧ e.distance ≤ 5 ∧ 5 ≤ e.index ∧ 5 ≤ e.hold + 2 ^ e.fade ∧ e.gap < 5 ∧
        (∀ k, k ≤ 5 → e.distance ≤ k → (e.index - k) / 192 = 1029 ∧ (e.index - k) % 192 / 12 = 1) ∧
        (∀ k, k < 5 → e.distance ≤ k → (granted.words.getD ((e.index - k) % 192 % 12) (0, .lost)).2 = .lost) ∧
        (granted.words.getD ((e.index - 5) % 192 % 12) (0, .lost)).2 ≠ .lost) ∧
    (let e := { evaluation with index := 192 * 1029 + 20, gap := 8, stage := .lookAhead, behind := some (10, 6) };
      e.distance ≤ 3 ∧ 3 ≤ e.gap + 1 - 6 ∧ e.index + 3 < 192 * 16777213 ∧
        (∀ k, k ≤ 3 → e.distance ≤ k → (e.index + k) / 192 = 1029 ∧ (e.index + k) % 192 / 12 = 1) ∧
        (∀ k, k < 3 → e.distance ≤ k → (granted.words.getD ((e.index + k) % 192 % 12) (0, .lost)).2 = .lost) ∧
        (granted.words.getD ((e.index + 3) % 192 % 12) (0, .lost)).2 ≠ .lost) ∧
    (let e := { evaluation with index := 192 * 1029 + 22, hold := 3, fade := 0 };
      e.stage = .lookBehind ∧ e.distance ≤ 5 ∧ e.hold + 2 ^ e.fade < 5 ∧
        ∀ k, k < 5 → e.distance ≤ k → k ≤ e.index ∧ k ≤ e.hold + 2 ^ e.fade ∧ (e.index - k) / 192 = 1029 ∧
          (e.index - k) % 192 / 12 = 1 ∧ (granted.words.getD ((e.index - k) % 192 % 12) (0, .lost)).2 = .lost) ∧
    (let e := { evaluation with index := 0 };
      e.stage = .lookBehind ∧ e.distance ≤ 1 ∧ e.index < 1 ∧ ∀ k, k < 1 → ¬e.distance ≤ k) :=
  ⟨by decide +kernel, by decide +kernel, by decide +kernel, by decide +kernel, by decide +kernel⟩

theorem witness_EvaluationValue_noGoodWord :
    (let e := { evaluation with index := 192 * 1029 + 13, gap := 4, stage := .lookAhead, behind := some (10, 3) };
      let f : Fetched := { granted with words := List.replicate 12 (8388606, .lost) };
      f.slot.holds f.segment = true ∧ f.slot.play = .ready ∧ e.distance ≤ 3 ∧ e.gap + 1 - 3 < 3 ∧
        ∀ k, k < 3 → e.distance ≤ k → k ≤ e.gap + 1 - 3 ∧ e.index + k < 192 * 16777213 ∧
          (e.index + k) / 192 = f.segment ∧ (e.index + k) % 192 / 12 = f.block ∧
          (f.words.getD ((e.index + k) % 192 % 12) (0, .lost)).2 = .lost) ∧
    (let e := { evaluation with index := 192 * 16777213 - 1, stage := .lookAhead, behind := some (10, 1) };
      e.distance ≤ 1 ∧ 192 * 16777213 ≤ e.index + 1 ∧ ∀ k, k < 1 → ¬e.distance ≤ k) ∧
    (let e := { evaluation with index := 192 * 1029 + 12 };
      e.stage = .lookBehind ∧ e.distance ≤ e.index ∧ e.distance ≤ e.hold + 2 ^ e.fade ∧
        (e.index - e.distance) / 192 = 1029 ∧ (e.index - e.distance) % 192 / 12 = 0) ∧
    (let e := { evaluation with index := 192 * 1029 + 191, stage := .lookAhead, behind := some (10, 4) };
      e.distance ≤ e.gap + 1 - 4 ∧ e.index + e.distance < 192 * 16777213 ∧ (e.index + e.distance) / 192 = 1030 ∧
        (e.index + e.distance) % 192 / 12 = 0 ∧ e.asker = .read 0 0 ∧
        ∀ entry k, { e with asker := .save 3 }.asker ≠ .read entry k) ∧
    (Slot.releasedWith 1 none 0).holds 1030 = false ∧ (claimed 1030).play = .empty ∧
    (let x := { claimed 1030 with play := .checking };
      x.holds 1030 = true ∧ (x.play = .arriving ∨ x.play = .checking)) :=
  ⟨by decide +kernel, by decide +kernel, by decide +kernel,
    ⟨by decide, by decide, by decide, by decide, rfl, fun _ _ h => by cases h⟩, by decide +kernel, by decide +kernel,
    by decide +kernel⟩

/-- A read with its hold timer at its end. -/
def lateRead (state : ReadState) (values : List (Option Word)) : Read :=
  { viewRead with state := state, values := values, holdTimer := some 0 }

/-- Its state, with an evaluation held for it. -/
def lateState (r : Read) (evals : List Evaluation) : State :=
  { ready with lbp := { ready.lbp with reads := ready.lbp.reads.set 0 (some r) }, cu := ⟨evals, 5⟩ }

theorem witness_ReadLateResolves :
    (let r := lateRead .heldOnSlot [];
      (lateState r []).toChip.read 0 = some r ∧ r.holdTimer = some 0 ∧ r.late = false ∧ r.state = .heldOnSlot ∧
        r.lateCounted = false ∧ { r with lateCounted := true }.late = false) ∧
    (let r := lateRead .offered [];
      (lateState r []).toChip.read 0 = some r ∧ r.state = .offered) ∧
    (let r := lateRead .heldOnNeighbour [none];
      let ev := { evaluation with stage := .held, behind := some (7, 9) };
      (lateState r [ev]).toChip.read 0 = some r ∧ (lateState r [ev]).cu.evals = [ev] ∧ ev.stage = .held ∧
        ev.asker = .read 0 0 ∧ ev.behind = some (7, 9) ∧ r.values = [none] ∧ r.lateCounted = false) :=
  ⟨by decide +kernel, by decide +kernel, by decide +kernel⟩

/-- Two words held, one with its value; and with another word still sought in another block. -/
theorem witness_ReadLateResolves_several :
    let held (k : Nat) : Evaluation :=
      { evaluation with id := 4 + k, asker := .read 0 k, stage := .held, behind := some (7, 9) }
    let seeking : Evaluation := { evaluation with id := 3, asker := .read 0 0 }
    let r (values : List (Option Word)) : Read := { lateRead .heldOnNeighbour values with len := 3 }
    let here (s : State) (values : List (Option Word)) : Prop := s.toChip.read 0 = some (r values) ∧
      (r values).holdTimer = some 0 ∧ (r values).late = false ∧ (r values).state = .heldOnNeighbour ∧
      (s.cu.evals.map Evaluation.id).Nodup ∧ (∃ ev ∈ s.cu.evals, ev.stage = .held ∧ ev.asker = .read 0 1) ∧
      ∀ ev ∈ s.cu.evals, ev.stage = .held → ev.behind ≠ none
    here (lateState (r [some 1, none, none]) [held 1, held 2]) [some 1, none, none] ∧
      here (lateState (r [none, none, none]) [held 1, seeking, held 2]) [none, none, none] ∧
      (r []).lateCounted = false ∧ { r [] with lateCounted := true }.late = false := by decide +kernel

/-- `staged` with the row's slot as given. -/
def stagedOn (x : Slot) : State := withSlot 5 x staged

/-- Every row in but row 13. -/
def almostIn : Slot :=
  { claimed 1029 with play := .arriving, rows := (Vector.replicate 30 (.arrived false 0)).set 13 .notIn }

theorem witness_StagingWriteTakesTheHead :
    (∀ x, (stagedOn x).dlc.staging = ⟨1029, 13, false, 0, List.replicate 16 6⟩ :: [] ∧
      (stagedOn x).mp.mayGrant .staging = true ∧ Memory.wf (stagedOn x).mem = true) ∧
    (let s := stagedOn (claimed 1029);
      s.toChip.takesRows 1029 = true ∧ (s.toChip.slot 5).segment = 1029 ∧ (s.toChip.slot 5).play = .empty ∧
        (s.toChip.slot 5).rows[Fin.ofNat 30 13] = .notIn ∧
        ∃ r : Fin 30, ((s.toChip.slot 5).rows.set (Fin.ofNat 30 13) (.arrived false 0))[r] = .notIn) ∧
    ((stagedOn almostIn).toChip.takesRows 1029 = true ∧
      ∀ r : Fin 30, (almostIn.rows.set (Fin.ofNat 30 13) (.arrived false 0))[r] ≠ .notIn) ∧
    (let s := stagedOn (claimed 901);
      s.toChip.takesRows 1029 = true ∧ (s.toChip.slot 5).claimed = true ∧ (s.toChip.slot 5).segment ≠ 1029 ∧
        s.cpm.partState = .ready ∧ (s.toChip.slot 5).overrun = none ∧ s.toChip.RingRoom) ∧
    ((stagedOn (Slot.releasedWith 0 none 128)).toChip.slot 5).claimed = false :=
  ⟨fun _ => ⟨rfl, rfl, rfl⟩, ⟨by decide +kernel, by decide +kernel, by decide +kernel, by decide +kernel, 0,
    by decide +kernel⟩, ⟨by decide +kernel, by decide +kernel⟩, ⟨by decide +kernel, by decide +kernel,
    by decide +kernel, rfl, by decide +kernel, ringRoom _ (by decide +kernel)⟩, by decide +kernel⟩

/-- The rows a run takes: those of its window, forward and backward; and an overrun record of either segment. -/
theorem witness_StagingWriteTakesTheHead_window :
    let ran (backward : Bool) (base : Nat) : State := { run .play none .none 1029 300 ready with
      rc := ⟨.active, (run .play none .none 1029 300 ready).rc.run.map fun r =>
        { r with backward := backward, windowBase := base }⟩ }
    (∀ t ∈ [1030, 1285], (ran false 1).toChip.takesRows t = true) ∧
      (∀ t ∈ [1029, 1286], (ran false 1).toChip.takesRows t = false) ∧
      (∀ t ∈ [1029, 774], (ran true 0).toChip.takesRows t = true) ∧
      (∀ t ∈ [1030, 773], (ran true 0).toChip.takesRows t = false) ∧
      (∀ other ∈ [1029, 1157], (stagedOn { claimed 901 with overrun := some (other, 5) }).toChip.takesRows 1029 = true ∧
        ((stagedOn { claimed 901 with overrun := some (other, 5) }).toChip.slot 5).segment ≠ 1029) := by
  decide +kernel

theorem witness_RowFetchSendsTheRow :
    fetching.dlc.fetch = some ⟨5, 1029, 1, 0, 0x600000⟩ ∧ fetching.mp.mayGrant .rowFetch = true ∧
      fetching.cpm.pendingMap = none ∧ (fetching.toChip.slot 5).claimed = true ∧
      (fetching.toChip.slot 5).segment = 1029 ∧ (fetching.toChip.slot 5).serial = 1 ∧
      (fetching.toChip.slot 5).write = .queued ∧ ((withSlot 5 (claimed 1029) fetching).toChip.slot 5).write = .idle := by
  decide +kernel

theorem witness_EncodedBlocksAreCodewords : (List.replicate 28 16777212).length = 28 := by decide +kernel

theorem witness_DecodeRestoresTheBlock :
    silent.length = 30 ∧ (∀ w ∈ silent, w < 16777213) ∧ isCodeword silent = true ∧
    (let raw := hit [(29, 0)];
      raw.length = 30 ∧ (∀ j, j < 30 → j ≠ 29 → j ≠ 0 → raw.getD j 0 = silent.getD j 0) ∧
        erasures (rowsVoid []) 15 raw = [] ∧ erasures (rowsVoid [17]) 15 raw = [29] ∧
        raw.getD 0 0 = silent.getD 0 0) ∧
    (let raw := hit [(0, 0xFFFFFFFF), (29, 5)];
      raw.length = 30 ∧ (∀ j, j < 30 → j ≠ 0 → j ≠ 29 → raw.getD j 0 = silent.getD j 0) ∧
        erasures (rowsVoid [17]) 0 raw = [0, 29]) := by decide +kernel

/-- R69, R70: position j lies in row 13 j mod 30; rows 0, 13, 26 and 9 hold positions 0 to 3, and position 4 holds a
word out of field. -/
theorem witness_DecodeOfManyErasures :
    let rows := (((rowsVoid [0]).set 13 .notIn).set 26 (.arrived false 0x8000)).set 9 .writtenOff
    silent.length = 30 ∧ (hit [(4, 16777213)]).length = 30 ∧ erasures rows 15 (hit [(4, 16777213)]) = [0, 1, 2, 3, 4] ∧
      erasures rows 14 (hit [(4, 16777212)]) = [0, 1, 3] := by decide +kernel

/-- A code item of slot 5 in the queue, for a slot as given. -/
def codeQueuedOn (x : Slot) (material : Material) (writer : WriterKind) (punch : Option Punch) : State :=
  withSlot 5 x { recording with ce := ⟨[⟨.code 5 1029 1 material writer punch, 0⟩], none⟩ }

theorem witness_CodeEngineTakesItems :
    (decodeQueued.ce.job = none ∧
      decodeQueued.ce.front.find? (CeItem.decodes 5) = some (.decode 5 1029 1 (rowsVoid []))) ∧
    (∀ x material writer punch, (codeQueuedOn x material writer punch).ce.job = none ∧
      (codeQueuedOn x material writer punch).ce.front.find? (CeItem.codes 5) =
        some (.code 5 1029 1 material writer punch) ∧ ∃ r, (codeQueuedOn x material writer punch).rc.run = some r) ∧
    (claimed 1029).worstGrade = none ∧
    (let x := { claimed 1029 with worstGrade := some Grade.one, worstSource := some Source.digital };
      x.material ≠ .fill ∧ x.worstGrade = some .one ∧ x.worstSource = some .digital ∧
        { x with material := .fill }.worstGrade ≠ none) :=
  ⟨⟨rfl, by decide +kernel⟩, fun _ _ _ _ => ⟨rfl, rfl, _, rfl⟩, rfl, by decide +kernel⟩

theorem witness_CodeEngineTakesItems_revert :
    let s := codeQueuedOn (claimed 1029) (.image 255) .revert none
    s.ce.job = none ∧ s.ce.front.find? (CeItem.codes 5) = some (.code 5 1029 1 (.image 255) .revert none) :=
  ⟨rfl, by decide +kernel⟩

theorem witness_DecodeBlockReadDecides :
    (∀ j, (working (.decode j) played).ce.job = some (.decode j) ∧
      (working (.decode j) played).mp.mayGrant .codeEngine = true ∧
      CountersBounded (working (.decode j) played).toChip) ∧ decodeJob.stage = .blockRead ∧ decodeJob.void = false ∧
      { decodeJob with void := true }.block < 15 ∧ { decodeJob with void := true, block := 15 }.stage = .blockRead :=
  ⟨fun _ => ⟨rfl, rfl, countersBounded _ rfl rfl⟩, rfl, rfl, by decide, rfl⟩

/-- A decode at its last block, the aux of each block as given. -/
def lastBlock (aux : List AuxWords) : DecodeJob := { decodeJob with block := 15, stage := .blockWrite silent, aux := aux }

theorem witness_DecodeBlockWriteStores :
    let here (j : DecodeJob) : Prop := (working (.decode j) played).ce.job = some (.decode j) ∧
      j.stage = .blockWrite silent ∧ silent.length = 30 ∧ j.void = false ∧ j.block ≤ 15 ∧
      (working (.decode j) played).mp.mayGrant .codeEngine = true ∧ Memory.wf (working (.decode j) played).mem = true
    here { decodeJob with stage := .blockWrite silent } ∧ here (lastBlock []) ∧
      (lastBlock [⟨7, 0, 0, 0, true⟩]).aux.countP (fun a => a.whole && a.segment != 1029) ≠ 0 ∧
      (lastBlock []).aux.countP (fun a => a.whole && a.segment != 1029) = 0 ∧
      recoverAux 1029 (lastBlock []).aux = .unrecovered ∧ played.cpm.partState = .ready ∧ played.toChip.RingRoom :=
  ⟨⟨rfl, rfl, by decide +kernel, rfl, by decide, rfl, rfl⟩, ⟨rfl, rfl, by decide +kernel, rfl, by decide, rfl, rfl⟩,
    by decide +kernel, by decide +kernel, by decide +kernel, rfl, ringRoom _ (by decide +kernel)⟩

/-- `reporting`, with a read and an evaluation held on the slot. -/
def reportingHeld : State :=
  let ev := { evaluation with stage := .held, behind := some (7, 1), fetch := none, pendingSegment := some 1029 }
  { reporting with
    lbp := { reporting.lbp with reads := reporting.lbp.reads.set 0 (some (lateRead .heldOnSlot [])) }
    cu := ⟨[ev], 5⟩ }

theorem witness_DecodeFinalWriteMakesReady :
    (∃ j, reportingHeld.ce.job = some (.decode j) ∧ j.stage = .finalWrite ∧ j.slot = 5 ∧ j.segment = 1029 ∧
      j.serial = 1 ∧ j.flags.length = 480) ∧ reportingHeld.mp.mayGrant .codeEngine = true ∧
      Memory.wf reportingHeld.mem = true ∧ (reportingHeld.toChip.slot 5).claimed = true ∧
      (reportingHeld.toChip.slot 5).segment = 1029 ∧ (reportingHeld.toChip.slot 5).serial = 1 ∧
      (reportingHeld.toChip.slot 5).play = .checking ∧ (reportingHeld.toChip.slot 5).consumed = false ∧
      (∃ r, reportingHeld.rc = ⟨.active, some r⟩ ∧ r.kind = .play ∧ r.readyCount + 1 = r.length) ∧
      reportingHeld.cpm.pendingMap = none ∧ reportingHeld.cpm.partState = .ready ∧ reportingHeld.toChip.RingRoom ∧
      (∃ ev ∈ reportingHeld.cu.evals, ev.stage = .held ∧ ev.pendingSegment = some 1029) ∧
      ∃ rd, reportingHeld.toChip.read 0 = some rd ∧ rd.range = .audioView ⟨5, 16, 0⟩ ∧ rd.state = .heldOnSlot :=
  ⟨⟨_, rfl, rfl, rfl, rfl, rfl, by decide +kernel⟩, rfl, rfl, by decide +kernel, by decide +kernel, by decide +kernel,
    by decide +kernel, by decide +kernel, ⟨_, rfl, rfl, rfl⟩, rfl, rfl, ringRoom _ (by decide +kernel),
    ⟨_, .head _, rfl, rfl⟩, _, rfl, rfl, rfl⟩

/-- The last decode of slot 5 with a recovered rate code, its report to write, over the state of an EDIT run. -/
def reportingEdit (rate : Nat) (s : State) : State :=
  working (.decode { decodeJob with
    block := 15, stage := .finalWrite, flags := List.replicate 480 .clean
    recovered := .recovered .one .digital false true 6 rate .record }) s

/-- Slot 5 CHECKING, its write side as given, with n segments of the run to settle and every image used or free. -/
def checkingEdit (x : Slot) (n : Nat) (used : Bool) (stack : List StackEntry) : State :=
  { editingOn { x with play := .checking } none n with
    ecu := { Ecu.reset with
      images := Vector.replicate 256 { ImageRecord.reset with used := used }, stack := stack } }

theorem witness_DecodeFinalWriteMakesReady_edit :
    let here (s : State) : Prop := (∃ j, s.ce.job = some (.decode j) ∧ j.stage = .finalWrite ∧ j.slot = 5 ∧
        j.segment = 1029 ∧ j.serial = 1 ∧ j.flags.length = 480) ∧ s.mp.mayGrant .codeEngine = true ∧
      Memory.wf s.mem = true ∧ (s.toChip.slot 5).claimed = true ∧ (s.toChip.slot 5).segment = 1029 ∧
      (s.toChip.slot 5).serial = 1 ∧ (s.toChip.slot 5).play = .checking ∧ (s.toChip.slot 5).consumed = false ∧
      (∃ r, s.rc = ⟨.active, some r⟩ ∧ r.kind = .edit ∧ s.toChip.ClaimsSettled r) ∧ s.cpm.pendingMap = none ∧
      s.cpm.partState = .ready ∧ s.toChip.RingRoom
    let filling := { claimed 1029 with write := .filling }
    let shut := { claimed 1029 with write := .closed }
    let settled (s : State) : State := { s with rc := ⟨.active, s.rc.run.map fun r => { r with settledCount := 1 }⟩ }
    here (reportingEdit 2 (checkingEdit filling 1 false [])) ∧
    here (reportingEdit 1 { checkingEdit shut 1 false [] with
      cpm := { ready.cpm with edit := ⟨4, false⟩ } }) ∧
    (let s := checkingEdit filling 1 false [];
      here (reportingEdit 1 { s with ecu := { s.ecu with stoppedMark := true } })) ∧
    (let full := checkingEdit filling 1 true [];
      let s := reportingEdit 1 { full with
        ecu := { full.ecu with images := full.ecu.images.set 255 ImageRecord.reset } };
      here s ∧ s.cpm.edit.undo = true ∧ (s.ecu.images[(255 : Fin 256)]).used = false ∧
        ∀ v : Fin 256, v < 255 → (s.ecu.images[v]).used = true) ∧
    (let s := reportingEdit 1 (checkingEdit shut 1 true fullStack);
      here s ∧ (∀ u : Fin 256, (s.ecu.images[u]).used = true) ∧ s.ecu.stack = fullStack) ∧
    (let s := reportingEdit 1 (checkingEdit shut 1 true [.seg 1028 3]);
      here s ∧ (∀ u : Fin 256, (s.ecu.images[u]).used = true) ∧ ∀ e ∈ s.ecu.stack, e.isRun = false) ∧
    (let s := reportingEdit 1 (settled (checkingEdit { claimed 1029 with write := .done } 1 false []));
      here s ∧ s.rc.state = .active ∧ (after .decodeFinalWrite s).rc.state = .idle) := by
  refine ⟨⟨⟨_, rfl, rfl, rfl, rfl, rfl, ?_⟩, rfl, rfl, ?_, ?_, ?_, ?_, ?_, ⟨_, rfl, rfl, .inl rfl⟩, rfl, rfl,
      ringRoom _ (by decide +kernel)⟩,
    ⟨⟨_, rfl, rfl, rfl, rfl, rfl, ?_⟩, rfl, rfl, ?_, ?_, ?_, ?_, ?_, ⟨_, rfl, rfl, .inl rfl⟩, rfl, rfl,
      ringRoom _ (by decide +kernel)⟩,
    ⟨⟨_, rfl, rfl, rfl, rfl, rfl, ?_⟩, rfl, rfl, ?_, ?_, ?_, ?_, ?_, ⟨_, rfl, rfl, .inl rfl⟩, rfl, rfl,
      ringRoom _ (by decide +kernel)⟩,
    ⟨⟨⟨_, rfl, rfl, rfl, rfl, rfl, ?_⟩, rfl, rfl, ?_, ?_, ?_, ?_, ?_, ⟨_, rfl, rfl, .inl rfl⟩, rfl, rfl,
      ringRoom _ (by decide +kernel)⟩, rfl, ?_, ?_⟩,
    ⟨⟨⟨_, rfl, rfl, rfl, rfl, rfl, ?_⟩, rfl, rfl, ?_, ?_, ?_, ?_, ?_, ⟨_, rfl, rfl, .inl rfl⟩, rfl, rfl,
      ringRoom _ (by decide +kernel)⟩, ?_, rfl⟩,
    ⟨⟨⟨_, rfl, rfl, rfl, rfl, rfl, ?_⟩, rfl, rfl, ?_, ?_, ?_, ?_, ?_, ⟨_, rfl, rfl, .inl rfl⟩, rfl, rfl,
      ringRoom _ (by decide +kernel)⟩, ?_, ?_⟩,
    ⟨⟨⟨_, rfl, rfl, rfl, rfl, rfl, ?_⟩, rfl, rfl, ?_, ?_, ?_, ?_, ?_, ⟨_, rfl, rfl, .inl rfl⟩, rfl, rfl,
      ringRoom _ (by decide +kernel)⟩, rfl, ?_⟩⟩ <;>
  decide +kernel

/-- A report discarded; one taken in a run that is IDLE; one that ends a drain, and one that does not. -/
theorem witness_DecodeFinalWriteMakesReady_notActive :
    let drained (s : State) : Prop := ∀ k, ((after .decodeFinalWrite s).toChip.slot k).claimed = true →
      ((after .decodeFinalWrite s).toChip.slot k).play ≠ .arriving ∧
      ((after .decodeFinalWrite s).toChip.slot k).play ≠ .checking ∧
      (((after .decodeFinalWrite s).toChip.slot k).write = .idle ∨
        ((after .decodeFinalWrite s).toChip.slot k).write = .done)
    let atState (state : RunState) : State := { reporting with
      rc := { reporting.rc with state := state }
      cpm := { ready.cpm with request := some ⟨0, some .stop, 9, false⟩, nextRequest := 1 } }
    let two : State := withSlot 6 { claimed 1030 with play := .arriving } (atState .draining)
    ((withSlot 5 { claimed 1029 with play := .checking, serial := 2 } reporting).toChip.slot 5).serial ≠ 1 ∧
      (atState .idle).rc.state = .idle ∧ drained (atState .draining) ∧ ¬drained two ∧
      (∃ q, (atState .draining).cpm.request = some q ∧ q.kind = some .stop ∧ q.reported = false) ∧
      (after .decodeFinalWrite (atState .draining)).rc.state = .idle :=
  ⟨by decide +kernel, rfl, by decide +kernel, by decide +kernel, ⟨_, rfl, rfl, rfl⟩, by decide +kernel⟩

/-- An EDIT's code item, its flags those of the given word and CLEAN elsewhere. -/
def editJob (stage : CodeStage) (flag : WordFlag) (material : Material) : CodeJob :=
  { codeJob with
    writer := .edit, punch := some punch, material := material, stage := stage
    flags := flag :: List.replicate 479 .clean }

theorem witness_CodeReadsFormTheBlock :
    (∀ j s, (working (.code j) s).ce.job = some (.code j) ∧ (working (.code j) s).mp.mayGrant .codeEngine = true) ∧
    (codeJob.void = false ∧ codeJob.stage = .blockRead ∧ codeJob.punch = none ∧ codeJob.material = .live ∧
      { codeJob with material := .image 9 }.material = .image 9) ∧
    (let j := { editJob .flagMapRead .clean .live with written := 0 };
      let s := working (.code j) (storing [(0x602800 + 4 * 480, 3)] played);
      j.stage = .flagMapRead ∧ j.punch = some punch ∧ j.material ≠ .fill ∧ j.void = false ∧
        j.lostUsed ((List.range 480).map fun i => flagAt s.mem j.base j.slot i) ≠ 0 ∧ s.cpm.partState = .ready) ∧
    (∀ material, (editJob .blockRead .clean material).stage = .blockRead ∧
      (editJob .blockRead .clean material).punch = some punch ∧
      ∀ i, i < 24 → (editJob .blockRead .clean material).oldFlag i ≠ .lost) ∧
    ((editJob .blockRead .lost .live).oldFlag 0 = .lost ∧
      0 < 192 * (editJob .blockRead .lost .live).segment + 12 * (editJob .blockRead .lost .live).block) ∧
    played.toChip.RingRoom :=
  ⟨fun _ _ => ⟨rfl, rfl⟩, ⟨rfl, rfl, rfl, rfl, rfl⟩, by decide +kernel,
    fun material => ⟨rfl, rfl, (by decide +kernel : ∀ i, i < 24 → (editJob .blockRead .clean .live).oldFlag i ≠ .lost)⟩,
    by decide +kernel, ringRoom _ (by decide +kernel)⟩

/-- The block that holds the first pair of the tape, its old value LOST. -/
theorem witness_CodeReadsFormTheBlock_first :
    let j := { editJob .blockRead .lost .live with segment := 0, slot := 0 }
    j.stage = .blockRead ∧ j.punch = some punch ∧ j.oldFlag 0 = .lost ∧
      ∀ i, i < 24 → j.oldFlag i = .lost → 192 * j.segment + 12 * j.block + i / 2 = 0 := by decide +kernel

/-- A coded segment about to be reported. -/
def summing : State :=
  withSlot 5 { claimed 1029 with write := .coding } (working (.code { codeJob with block := 15, stage := .summaryWrite })
    recording)

theorem witness_CodeWritesStore :
    (∀ j, (working (.code j) recording).ce.job = some (.code j) ∧
      (working (.code j) recording).mp.mayGrant .codeEngine = true ∧ Memory.wf (working (.code j) recording).mem = true) ∧
    (let j := { codeJob with stage := .blockWrite silent };
      j.stage = .blockWrite silent ∧ silent.length = 30 ∧ j.block < 15 ∧ j.material ≠ .fill ∧
        { j with material := .fill }.material = .fill ∧ { j with block := 15 }.block ≤ 15) ∧
    ((∃ j, summing.ce.job = some (.code j) ∧ j.stage = .summaryWrite ∧ j.slot = 5 ∧ j.segment = 1029 ∧ j.serial = 1) ∧
      (summing.toChip.slot 5).claimed = true ∧ (summing.toChip.slot 5).segment = 1029 ∧
      (summing.toChip.slot 5).serial = 1 ∧ (summing.toChip.slot 5).write = .coding ∧ summing.cpm.pendingMap = none ∧
      summing.mp.mayGrant .codeEngine = true) ∧
    ((withSlot 5 (claimed 1029) summing).toChip.slot 5).write ≠ .coding :=
  ⟨fun _ => ⟨rfl, rfl, rfl⟩, by decide +kernel, ⟨⟨_, rfl, rfl, rfl, rfl, rfl⟩, by decide +kernel, by decide +kernel,
    by decide +kernel, by decide +kernel, rfl, rfl⟩, by decide +kernel⟩

theorem capturing_params (c : Capture) (r : RunRecord) (p : Punch) (a b n : Nat)
    (h : (capturing c).rc.run = some r) : r.params ≠ .edit p (some c.clip) a b n := by
  have same : (capturing c).rc.run.map RunRecord.params = some .none := rfl
  rw [h] at same
  intro other
  rw [Option.map_some, other] at same
  cases same

theorem witness_CaptureCopiesBlocks :
    (∀ c, (capturing c).ecu.capture = some c ∧ (capturing c).mp.mayGrant .capture = true ∧
      Memory.wf (capturing c).mem = true ∧ (capturing c).cpm.pendingMap = none) ∧
    (capture.stage = .reading ∧ ∀ k, k < 24 → flagAt (capturing capture).mem 0x600000 5 k ≠ .lost) ∧
    (flagAt (storing [(0x602800 + 4 * 480, 3)] (capturing capture)).mem 0x600000 5 0 = .lost ∧ 0 < 192 * (1029 + 0)) ∧
    (let c := { capture with stage := .writing, values := (List.replicate 24 3).map some };
      c.stage = .writing ∧ c.values = (List.replicate 24 3).map some ∧ (List.replicate 24 3).length = 24 ∧ c.block < 15 ∧
        { c with block := 15 }.count ≤ c.segment + 1 ∧ { c with block := 15, count := 2 }.segment + 1 < 2) ∧
    (∀ (c : Capture) (r : RunRecord) (p : Punch) (a b n : Nat), (capturing c).rc.run = some r →
      r.params ≠ .edit p (some c.clip) a b n) ∧
    ∃ q, (capturing capture).cpm.request = some q :=
  ⟨fun _ => ⟨rfl, rfl, rfl, rfl⟩, by decide +kernel, by decide +kernel, by decide +kernel,
    capturing_params, _, rfl⟩

theorem witness_SavesCopyTheSegment :
    (let s := { played with ecu := { Ecu.reset with saves := [save] } };
      s.ecu.saving = none ∧ s.ecu.saves = save :: []) ∧
    (∀ j, (saving j).ecu.saving = some j ∧ (saving j).mp.mayGrant .save = true ∧ Memory.wf (saving j).mem = true) ∧
    (let j : SaveJob := ⟨save, 0x600000, 0, .reading, [], false, false⟩;
      j.void = false ∧ j.stage = .reading ∧ (∀ k, k < 24 → flagAt (saving j).mem 0x600000 5 k ≠ .lost) ∧
        flagAt (storing [(0x602800 + 4 * 480, 3)] (saving j)).mem 0x600000 5 0 = .lost) ∧
    (let j : SaveJob := ⟨save, 0x600000, 15, .writing, (List.replicate 24 3).map some, false, false⟩;
      j.stage = .writing ∧ j.values = (List.replicate 24 3).map some ∧ (List.replicate 24 3).length = 24 ∧ j.block = 15 ∧
        { j with block := 14 }.block < 15 ∧ { j with stage := .closing }.stage = .closing) ∧
    ∀ j, stackDepth (saving j).ecu.stack + 2 ≤ 1024 :=
  ⟨⟨rfl, rfl⟩, fun _ => ⟨rfl, rfl, rfl⟩, by decide +kernel, by decide +kernel, fun _ => by
    show 0 + 2 ≤ 1024
    decide⟩

/-- A push on a full stack drops its oldest run; the slot then CLOSED and READY in an EDIT run, its code item waiting. -/
theorem witness_SavesCopyTheSegment_fullStack :
    let j : SaveJob := ⟨save, 0x600000, 15, .closing, [], false, false⟩
    let s := offering .save { editingOn { claimed 1029 with write := .closed, play := .ready, undoSave := .inProgress }
      none 1 with ecu := { Ecu.reset with saving := some j, stack := fullStack } }
    s.ecu.saving = some j ∧ s.mp.mayGrant .save = true ∧ Memory.wf s.mem = true ∧
      OldestRun s.ecu.stack [.seg 50 1, .seg 51 2] (List.replicate 254 (.run 1 2 0 false)) ∧
      stackDepth s.ecu.stack ≤ 1024 ∧ 1024 < stackDepth s.ecu.stack + 2 ∧
      stackDepth (fullStack.drop 1) + 2 ≤ 1024 ∧ (∃ r, s.rc.run = some r ∧ r.kind = .edit) ∧
      (s.toChip.slot 5).claimed = true ∧ (s.toChip.slot 5).write = .closed ∧ (s.toChip.slot 5).play = .ready :=
  ⟨rfl, rfl, rfl, fullStack_oldest, by decide +kernel, by decide +kernel, by decide +kernel, ⟨_, rfl, rfl⟩,
    by decide +kernel, by decide +kernel, by decide +kernel⟩

/-- An evaluation of pair slot 4 that ends over `granted`, for an asker; with `late` the block ahead is CHECKING. -/
def ending (asker : Asker) (late : Bool) : Evaluation :=
  { evaluation with
    asker := asker, stage := .lookAhead, behind := some (10, 1), index := 192 * 1029 + (if late then 11 else 22) }

theorem witness_NeighbourFetchGoesOn_delivers :
    (∀ asker ∈ [Asker.read 0 1, .codeEngine 0, .capture 1 0, .capture 2 0, .save 0],
      { ending asker false with fetch := none }.scan false (some granted) = .ended (interpolate 10 20 1 1) false) ∧
    ({ ending (.read 0 1) true with fetch := none }.scan true
      (some { granted with slot := { claimed 1029 with play := .checking } }) = .ended (holdFade 10 1 8 6) true) ∧
    (let r : Read := { lateRead .heldOnNeighbour [some 7, none] with len := 2 };
      r.state = .heldOnNeighbour ∧ none ∉ r.values.set 1 (some (0 : Word)) ∧
        none ∈ [none, none].set 1 (some (0 : Word)) ∧ r.lateCounted = false) ∧
    (let j := { editJob .concealing .lost .live with old := none :: List.replicate 23 (some 5) };
      j.stage = .concealing ∧ j.void = false ∧ j.punch = some punch ∧ none ∉ j.old.set 0 (some (6 : Int)) ∧
        none ∈ (j.old.set 3 none).set 0 (some (6 : Int)) ∧ { j with void := true }.void = true) ∧
    (let c := { capture with stage := .concealing, values := none :: List.replicate 23 (some 5) };
      (capturing c).ecu.capture = some c ∧ c.stage = .concealing ∧ c.id = 1 ∧ c.id ≠ 2 ∧
        none ∉ c.values.set 0 (some 6) ∧ none ∈ (c.values.set 3 none).set 0 (some 6)) ∧
    (let j : SaveJob := ⟨save, 0x600000, 15, .concealing, none :: List.replicate 23 (some 5), true, false⟩;
      (saving j).ecu.saving = some j ∧ j.stage = .concealing ∧ j.void = false ∧ none ∉ j.values.set 0 (some 6) ∧
        none ∈ (j.values.set 3 none).set 0 (some 6) ∧ { j with void := true }.void = true) := by
  refine ⟨?_, ?_, ?_, ?_, ?_, ?_⟩ <;> decide +kernel

/-- A look-behind that finds a good word at the gap itself. -/
theorem witness_EvaluationValue_turn :
    let e := evaluation
    e.stage = .lookBehind ∧ e.distance ≤ 4 ∧ 4 ≤ e.index ∧ 4 ≤ e.hold + 2 ^ e.fade ∧ 4 ≤ e.gap ∧
      (∀ k, k ≤ 4 → e.distance ≤ k → (e.index - k) / 192 = 1029 ∧ (e.index - k) % 192 / 12 = 1) ∧
      (∀ k, k < 4 → e.distance ≤ k → (granted.words.getD ((e.index - k) % 192 % 12) (0, .lost)).2 = .lost) ∧
      (granted.words.getD ((e.index - 4) % 192 % 12) (0, .lost)).2 ≠ .lost := by decide +kernel

/-- A REVERT run whose slot 5 waits CLOSED for its load. -/
def reverting : State :=
  let s := withSlot 5 { claimed 1029 with write := .closed, material := .image 4 }
    (run .revert (some .revert) (.revert 8 0 1) 1029 1 ready)
  offering (.load 5) { s with
    ecu := { Ecu.reset with loads := [⟨5, 1, 4, 0x600000, 15, some (List.replicate 24 8)⟩] } }

theorem witness_LoadsAndMirrorStore :
    ((loading 0 none).toChip.loadOf 5 = some ⟨5, 1, 4, 0x600000, 0, none⟩ ∧
      (loading 0 none).mp.mayGrant (.load 5) = true) ∧
    ((loading 14 (some (List.replicate 24 8))).toChip.loadOf 5 =
        some ⟨5, 1, 4, 0x600000, 14, some (List.replicate 24 8)⟩ ∧
      (loading 14 (some (List.replicate 24 8))).mp.mayGrant (.load 5) = true ∧
      Memory.wf (loading 14 (some (List.replicate 24 8))).mem = true) ∧
    (reverting.toChip.loadOf 5 = some ⟨5, 1, 4, 0x600000, 15, some (List.replicate 24 8)⟩ ∧
      reverting.mp.mayGrant (.load 5) = true ∧ (∃ r, reverting.rc.run = some r ∧ r.kind = .revert) ∧
      (reverting.toChip.slot 5).claimed = true ∧ (reverting.toChip.slot 5).write = .closed) ∧
    mirroring.mp.mirrorFront = some (.mirror [(0x780000, 1029)]) ∧
      mirroring.mp.mayGrant (.mirror [(0x780000, 1029)]) = true ∧ Memory.wf mirroring.mem = true ∧
      Apart [(0x780000, 1029)] :=
  ⟨⟨by decide +kernel, rfl⟩, ⟨by decide +kernel, rfl, rfl⟩, ⟨by decide +kernel, rfl, ⟨_, rfl, rfl⟩, by decide +kernel,
    by decide +kernel⟩, by decide +kernel, rfl, rfl, List.pairwise_singleton _ _⟩

theorem witness_CpmWritesReachMemory :
    (resulting.mp.queues[(6 : Fin 7)] = ⟨.result 0 ⟨9, .done, 6⟩ (some 0), 0⟩ :: [] ∧
      resulting.mp.mayGrant (.result 0 ⟨9, .done, 6⟩ (some 0)) = true ∧ Memory.wf resulting.mem = true ∧
      ∃ q, resulting.cpm.request = some q ∧ some 0 = some q.id) ∧
    (statusDue.mp.queues[(6 : Fin 7)] = ⟨.status 0, 0⟩ :: [] ∧ statusDue.mp.mayGrant (.status 0) = true ∧
      Memory.wf statusDue.mem = true) ∧
    (noticing.mp.queues[(6 : Fin 7)] = ⟨.notice 0 63 14 2, 0⟩ :: [] ∧
      noticing.mp.mayGrant (.notice 0 63 14 2) = true ∧ Memory.wf noticing.mem = true) :=
  ⟨⟨rfl, rfl, rfl, _, rfl, rfl⟩, ⟨rfl, rfl, rfl⟩, rfl, rfl, rfl⟩

theorem witness_LinkOpensAndClears :
    receive Frame.opened.bytes = .frame .opened ∧ opening.dlc.linkState = .opening ∧
      receive Frame.clearLink.bytes = .frame .clearLink ∧ ready.dlc.linkState = .up ∧ failed.dlc.linkState = .failed ∧
      opening.cpm.partState = .ready ∧ opening.toChip.RingRoom ∧ ready.rc.state = .idle ∧ ready.toChip.RingRoom ∧
      recording.rc.run.isSome = true :=
  ⟨by decide +kernel, rfl, by decide +kernel, rfl, rfl, rfl, ringRoom _ (by decide +kernel), rfl,
    ringRoom _ (by decide +kernel), rfl⟩

theorem witness_LinkOpensAndClears_abort :
    let here (s : State) : Prop := receive Frame.clearLink.bytes = .frame .clearLink ∧
      (s.dlc.linkState = .up ∨ s.dlc.linkState = .failed) ∧ (∃ r, s.rc.run = some r) ∧ s.rc.state ≠ .idle ∧
      s.cpm.partState = .ready ∧ s.toChip.RoomAfterReleases 2
    here recording ∧ here { recording with dlc := failed.dlc } ∧
      (here drained ∧ drained.cpm.pendingMap = none ∧
        ∃ q, drained.cpm.request = some q ∧ q.kind = some .stop ∧ q.reported = false) ∧
      here (playing { claimed 1029 with play := .arriving }) ∧ here editingFull ∧
      ∃ m, here { recording with cpm := { recording.cpm with pendingMap := some m } } := by
  refine ⟨⟨?_, .inl rfl, ⟨_, rfl⟩, ?_, rfl, ?_⟩, ⟨?_, .inr rfl, ⟨_, rfl⟩, ?_, rfl, ?_⟩,
    ⟨⟨?_, .inl rfl, ⟨_, rfl⟩, ?_, rfl, ?_⟩, rfl, _, rfl, rfl, rfl⟩, ⟨?_, .inl rfl, ⟨_, rfl⟩, ?_, rfl, ?_⟩,
    ⟨?_, .inl rfl, ⟨_, rfl⟩, ?_, rfl, ?_⟩, ⟨0x800000, 0xA00000, 1, 4⟩, ?_, .inl rfl, ⟨_, rfl⟩, ?_, rfl, ?_⟩ <;>
  first
  | decide +kernel
  | exact roomAfter _ _ (by decide +kernel)

set_option maxRecDepth 1000000 in
theorem witness_PlayRowReceived :
    receive (playRow 2 4) = .frame (.playRow 2 1029 4 false 0 (List.replicate 16 6)) ∧
    receive (playRow 0 30) = .frame (.playRow 0 1029 30 false 0 (List.replicate 16 6)) ∧
    receive (playRow 7 0) = .frame (.playRow 7 1029 0 false 0 (List.replicate 16 6)) ∧ ready.dlc.linkState = .up ∧
    ready.dlc.recvSeq = 0 ∧ ready.dlc.recvWindow = 0 ∧ 0 < ready.dlc.outstanding ∧
    ({ ready with dlc := { ready.dlc with outstanding := 0, released := 32 } } : State).dlc.outstanding = 0 ∧
    ready.dlc.staging = [] := by decide +kernel

theorem witness_GrantAndMissingReceived :
    retaining.dlc.linkState = .up ∧ receive (Frame.grant 1 30).bytes = .frame (.grant 1 30) ∧
      receive (Frame.grant 0 1).bytes = .frame (.grant 0 1) ∧ receive (Frame.missing 1).bytes = .frame (.missing 1) ∧
      CountersBounded retaining.toChip ∧ (retaining.dlc.retention.map Retained.seq).Nodup ∧
      ∃ e ∈ retaining.dlc.retention.take 1, e.words.isSome = true ∧ e.row < 30 ∧
        (retaining.toChip.slot e.slot).holds e.segment = true ∧ (retaining.toChip.slot e.slot).serial = e.serial ∧
        (retaining.toChip.slot e.slot).write = .sending :=
  ⟨rfl, by decide +kernel, by decide +kernel, by decide +kernel, countersBounded _ rfl rfl, by decide +kernel,
    _, .head _, by decide +kernel⟩

/-- Slot 5 SENDING its last row, its next position the first not claimed; every other slot claimed for position 0. -/
def lastRow (x : Slot) (s : State) : State :=
  let others : Vector Slot 128 := Vector.replicate 128 (claimed 1029)
  { s with
    slots := others.set 5 { x with write := .sending, rowsAcked := BitVec.allOnes 30 ^^^ 1 }
    dlc := { ready.dlc with
      retention := [⟨0, 1029, 0, 5, 1, some (List.replicate 16 6)⟩], sendSeq := 1, ackTimer := some 10 } }

theorem witness_GrantAndMissingReceived_done :
    let here (s : State) : Prop := s.dlc.linkState = .up ∧ (∃ e, s.dlc.retention = [e] ∧ e.words.isSome = true ∧
        e.slot = 5 ∧ e.segment = 1029 ∧ e.serial = 1 ∧ e.row = 0) ∧ s.cpm.pendingMap = none ∧
      (s.toChip.slot 5).holds 1029 = true ∧ (s.toChip.slot 5).serial = 1 ∧ (s.toChip.slot 5).write = .sending ∧
      (s.toChip.slot 5).rowsAcked ||| BitVec.ofNat 30 (2 ^ 0) = BitVec.allOnes 30 ∧ s.cpm.partState = .ready ∧
      s.toChip.RoomAfterReleases 1
    let long (h : Option Nat) : State := lastRow (claimed 1029)
      { run .record (some .record) .none 1029 129 ready with
        rc := ⟨.active, (run .record (some .record) .none 1029 129 ready).rc.run.map fun r =>
          { r with dueHorizon := h }⟩ }
    let edit : State := lastRow { claimed 1029 with nextPosition := 128 } { editingOn (claimed 1029) (some 1) 1 with
      rc := ⟨.active, (editingOn (claimed 1029) (some 1) 1).rc.run.map fun r => { r with readyCount := 1 }⟩ }
    let revert : State := lastRow (claimed 1029)
      { run .revert (some .revert) (.revert 8 0 1) 1029 1 ready with
        ecu := { Ecu.reset with stack := [.seg 1029 4, .run 8 1029 1 false] } }
    (∀ h ∈ [none, some 127, some 128], here (long h) ∧ (∃ r, (long h).rc = ⟨.active, some r⟩ ∧ r.kind = .record ∧
        r.backward = false ∧ ((long h).toChip.slot 5).nextPosition < r.length ∧ r.dueHorizon = h ∧
        r.doneCount + 1 ≠ r.length ∧ slotOf (r.t0 + ((long h).toChip.slot 5).nextPosition) = 5) ∧
      ∀ j, j ≠ 5 → ((long h).toChip.slot j).claimed = true ∧
        ((long h).toChip.slot 5).nextPosition < ((long h).toChip.slot j).position + 256) ∧
    (here edit ∧ (edit.toChip.slot 5).play ≠ .ready ∧ (∃ r, edit.rc = ⟨.active, some r⟩ ∧ r.kind = .edit ∧
        r.readyCount = r.length ∧ r.params = .edit punch (some 1) 0 0 1 ∧ edit.toChip.ClaimsSettled r) ∧
      (after (.grantReceived (Frame.grant 1 0).bytes) edit).rc.state = .idle) ∧
    (here revert ∧ (∃ r, revert.rc = ⟨.active, some r⟩ ∧ r.kind = .revert ∧ r.params = .revert 8 0 1 ∧
        r.doneCount + 1 = 1 ∧ revert.toChip.ClaimsSettled r) ∧
      revert.ecu.stack = [] ++ [(1029, 4)].map (fun z => .seg z.1 z.2) ++ [.run 8 1029 1 false] ∧
      (after (.grantReceived (Frame.grant 1 0).bytes) revert).rc.state = .idle) := by
  refine ⟨fun h hm => ⟨⟨rfl, ⟨_, rfl, rfl, rfl, rfl, rfl, rfl⟩, rfl, ?_, ?_, ?_, ?_, rfl, roomAfter _ _ rfl⟩,
      ⟨_, rfl, rfl, rfl, ?_, rfl, ?_, ?_⟩, ?_⟩,
    ⟨⟨rfl, ⟨_, rfl, rfl, rfl, rfl, rfl, rfl⟩, rfl, ?_, ?_, ?_, ?_, rfl, roomAfter _ _ rfl⟩, ?_,
      ⟨_, rfl, rfl, rfl, rfl, .inl rfl⟩, ?_⟩,
    ⟨⟨rfl, ⟨_, rfl, rfl, rfl, rfl, rfl, rfl⟩, rfl, ?_, ?_, ?_, ?_, rfl, roomAfter _ _ rfl⟩,
      ⟨_, rfl, rfl, rfl, rfl, .inl rfl⟩, rfl, ?_⟩⟩ <;>
  first
  | decide +kernel
  | (revert h; decide +kernel)

/-- An EDIT run with slot 5 as given. -/
def editing (write : WriteState) : State :=
  editingOn { claimed 1029 with write := write, markerBase := none } none 1

theorem witness_DueReceived :
    receive (Frame.due 1029).bytes = .frame (.due 1029) ∧ receive (Frame.due 1030).bytes = .frame (.due 1030) ∧
    (ready.dlc.linkState = .up ∧ ready.rc.run = none ∧ (∃ r, played.rc.run = some r ∧ r.kind = .play)) ∧
    (∃ r, recording.rc = ⟨.active, some r⟩ ∧ r.kind = .record ∧ r.backward = false ∧ r.t0 + r.length ≤ 1030 ∧
      r.t0 ≤ 1029 ∧ 1029 < r.t0 + r.length) ∧ recording.cpm.partState = .ready ∧ recording.cpm.pendingMap = none ∧
    recording.toChip.RingRoom ∧ (recording.toChip.slot 5).claimed = true ∧ (recording.toChip.slot 5).segment = 1029 ∧
    (recording.toChip.slot 5).write = .filling ∧
    (∃ r, (editing .filling).rc = ⟨.active, some r⟩ ∧ r.kind = .edit ∧ r.backward = false) ∧
    ((editing .filling).toChip.slot 5).write = .filling ∧ ((editing .filling).toChip.slot 5).play ≠ .ready ∧
    ((editing .idle).toChip.slot 5).write = .idle ∧ (editing .idle).toChip.RingRoom :=
  ⟨by decide +kernel, by decide +kernel, ⟨rfl, rfl, _, rfl, rfl⟩, ⟨_, rfl, rfl, rfl, by decide, by decide, by decide⟩, rfl,
    rfl, ringRoom _ (by decide +kernel), by decide +kernel, by decide +kernel, by decide +kernel, ⟨_, rfl, rfl, rfl⟩,
    by decide +kernel, by decide +kernel, by decide +kernel, ringRoom _ (by decide +kernel)⟩

theorem witness_DueReceived_slots :
    let inRun (s : State) (kind : RunKind) : Prop := (∃ r, s.rc = ⟨.active, some r⟩ ∧ r.kind = kind ∧
        r.backward = false ∧ r.t0 ≤ 1029 ∧ 1029 < r.t0 + r.length) ∧ s.cpm.partState = .ready ∧
      s.cpm.pendingMap = none ∧ s.toChip.RingRoom
    let gone := withSlot 5 (Slot.releasedWith 2 none 1) recording
    let ahead := withSlot 5 (Slot.releasedWith 2 none 0) recording
    let open5 := editingOn { claimed 1029 with write := .filling, play := .ready } none 1
    let done5 := editingOn { claimed 1029 with write := .closed, play := .ready } none 1
    (inRun gone .record ∧ (gone.toChip.slot 5).holds 1029 = false ∧ (gone.toChip.slot 5).claimed = false ∧
      1029 - 1029 < (gone.toChip.slot 5).nextPosition) ∧
    (inRun ahead .record ∧ (ahead.toChip.slot 5).holds 1029 = false ∧
      (ahead.toChip.slot 5).nextPosition ≤ 1029 - 1029) ∧
    (inRun open5 .edit ∧ (∃ r, open5.rc.run = some r ∧ r.params = .edit punch none 0 0 1) ∧
      (open5.toChip.slot 5).claimed = true ∧ (open5.toChip.slot 5).segment = 1029 ∧
      (open5.toChip.slot 5).write = .filling ∧ (open5.toChip.slot 5).play = .ready ∧
      (open5.toChip.slot 5).undoSave ≠ .inProgress) ∧
    (inRun done5 .edit ∧ (done5.toChip.slot 5).write = .closed ∧ (done5.toChip.slot 5).play = .ready) ∧
    (inRun retaining .record ∧ (retaining.toChip.slot 5).write ≠ .filling) := by
  refine ⟨⟨⟨⟨_, rfl, rfl, rfl, by decide, by decide⟩, rfl, rfl, ringRoom _ rfl⟩, ?_⟩,
    ⟨⟨⟨_, rfl, rfl, rfl, by decide, by decide⟩, rfl, rfl, ringRoom _ rfl⟩, ?_⟩,
    ⟨⟨⟨_, rfl, rfl, rfl, by decide, by decide⟩, rfl, rfl, ringRoom _ rfl⟩, ⟨_, rfl, rfl⟩, ?_⟩,
    ⟨⟨⟨_, rfl, rfl, rfl, by decide, by decide⟩, rfl, rfl, ringRoom _ rfl⟩, ?_⟩,
    ⟨⟨⟨_, rfl, rfl, rfl, by decide, by decide⟩, rfl, rfl, ringRoom _ rfl⟩, ?_⟩⟩ <;>
  decide +kernel

theorem witness_DueReceived_horizon :
    let at0 (s : State) (kind : RunKind) (params : RunParams) : Prop :=
      (∃ r, s.rc.run = some r ∧ r.dueHorizon = some 0 ∧ r.kind = kind ∧ r.params = params ∧ r.backward = false ∧
        r.t0 = 1029) ∧ slotOf (1029 + 0) = 5 ∧ (s.toChip.slot 5).claimed = false ∧ s.dlc.linkState = .up ∧
      s.cpm.partState = .ready ∧ s.toChip.RingRoom
    let passed (s : State) : State :=
      { s with rc := ⟨s.rc.state, s.rc.run.map fun r => { r with dueHorizon := some 0 }⟩ }
    let stack : List StackEntry := [.seg 1029 4, .run 8 1029 1 false]
    at0 (passed (run .record (some .record) .none 1029 1 ready)) .record .none ∧
    at0 (passed (run .edit (some .edit) (.edit punch none 0 0 1) 1029 1 ready)) .edit (.edit punch none 0 0 1) ∧
    at0 (passed (run .edit (some .edit) (.edit punch none 1 1 1) 1029 2 ready)) .edit (.edit punch none 1 1 1) ∧
    at0 (passed (run .revert (some .revert) (.revert 8 0 1) 1029 1
      { ready with ecu := { Ecu.reset with stack := stack } })) .revert (.revert 8 0 1) ∧
    (∃ u, .seg 1029 u ∈ (stack.drop 0).take 1) ∧
    (let gap : List StackEntry := [.run 8 1029 0 false];
      ∀ u, .seg 1029 u ∉ (gap.drop 0).take 0) := by
  refine ⟨⟨⟨_, rfl, rfl, rfl, rfl, rfl, rfl⟩, rfl, ?_, rfl, rfl, ringRoom _ rfl⟩,
    ⟨⟨_, rfl, rfl, rfl, rfl, rfl, rfl⟩, rfl, ?_, rfl, rfl, ringRoom _ rfl⟩,
    ⟨⟨_, rfl, rfl, rfl, rfl, rfl, rfl⟩, rfl, ?_, rfl, rfl, ringRoom _ rfl⟩,
    ⟨⟨_, rfl, rfl, rfl, rfl, rfl, rfl⟩, rfl, ?_, rfl, rfl, ringRoom _ rfl⟩, ⟨4, ?_⟩, ?_⟩ <;>
  decide +kernel

theorem witness_FramesDroppedAndSent :
    receive [0x70, 0, 0] = .bad ∧ ready.dlc.linkState ≠ .down ∧ State.reset.dlc.linkState = .down ∧
    (receive Frame.opened.bytes ≠ .bad ∧ ready.dlc.linkState = .up ∧ receive Frame.opened.bytes = .frame .opened) ∧
    (receive Frame.opened.bytes ≠ .bad ∧ failed.dlc.linkState = .failed ∧
      receive Frame.opened.bytes ≠ .frame .clearLink) ∧
    (receive (Frame.missing 1).bytes ≠ .bad ∧ opening.dlc.linkState = .opening ∧
      receive (Frame.missing 1).bytes ≠ .frame .opened) ∧
    granting.dlc.lane = ⟨.grant, 0⟩ :: [] ∧
    (let lane := [LaneEntry.mk .grant 4, ⟨.missing 0, 4⟩, ⟨.openLink, 5⟩];
      ({ ready with dlc := { ready.dlc with lane := lane } } : State).dlc.lane =
        ⟨.grant, 4⟩ :: ⟨.missing 0, 4⟩ :: [⟨.openLink, 5⟩]) := by decide +kernel

theorem witness_TimersExpire :
    (opening.dlc.linkState = .opening ∧ opening.dlc.openTimer = some 0) ∧
    (let s := { ready with dlc := { ready.dlc with creditTimer := some 0 } };
      s.dlc.linkState = .up ∧ s.dlc.creditTimer = some 0) ∧
    ((expired 2).dlc.linkState = .up ∧ (expired 2).dlc.ackTimer = some 0 ∧
      (expired 2).dlc.retryCount < (expired 2).cpm.link.retryLimit ∧ CountersBounded (expired 2).toChip ∧
      ((expired 2).dlc.retention.map Retained.seq).Nodup) ∧
    (let s := { expired 3 with rc := ⟨.idle, none⟩ };
      s.cpm.link.retryLimit ≤ s.dlc.retryCount ∧ s.dlc.linkState = .up ∧ s.dlc.ackTimer = some 0 ∧ s.rc.state = .idle ∧
        s.cpm.partState = .ready ∧ s.toChip.RingRoom) ∧
    (∃ r, draining.rc = ⟨.draining, some r⟩ ∧ r.drainTimer = some 0) ∧
    (∀ i, (draining.toChip.slot i).claimed = true →
      (draining.toChip.slot i).play ≠ .arriving ∧ (draining.toChip.slot i).play ≠ .checking ∧
      ((draining.toChip.slot i).write = .idle ∨ (draining.toChip.slot i).write = .done ∨
        (draining.toChip.slot i).write = .sending)) ∧
    (draining.toChip.slot 5).claimed = true ∧ (draining.toChip.slot 5).write = .sending :=
  ⟨by decide +kernel, by decide +kernel, ⟨rfl, rfl, by decide +kernel, countersBounded _ rfl rfl, by decide +kernel⟩,
    ⟨by decide +kernel, rfl, rfl, rfl, rfl, ringRoom _ (by decide +kernel)⟩, ⟨_, rfl, rfl⟩, by decide +kernel,
    by decide +kernel, by decide +kernel⟩

theorem witness_TimersExpire_abort :
    let s := expired 3
    (s.dlc.linkState = .up ∧ s.dlc.ackTimer = some 0 ∧ s.cpm.link.retryLimit ≤ s.dlc.retryCount) ∧
      (∃ r, s.rc.run = some r) ∧ s.rc.state ≠ .idle ∧ s.cpm.partState = .ready ∧ s.toChip.RoomAfterReleases 2 :=
  ⟨⟨rfl, rfl, by decide +kernel⟩, ⟨_, rfl⟩, by decide +kernel, rfl, roomAfter _ _ (by decide +kernel)⟩

/-- Slot 5 SENDING: a row of it retained; nothing retained and one row, or none, still to send; with the link up or not;
and a STOP that waits for the drain. -/
theorem witness_TimersExpire_drain :
    let owes (s : State) (i : Fin 128) : Prop :=
      (∃ e ∈ s.dlc.retention, e.segment = (s.toChip.slot i).segment ∧ e.words ≠ none) ∨
        s.dlc.cursorPos < (s.toChip.slot i).position ∨
        (s.dlc.cursorPos = (s.toChip.slot i).position ∧ s.dlc.cursorRow < 30)
    let sent (row : Nat) : State :=
      { drained with dlc := { drained.dlc with retention := [], cursorPos := 0, cursorRow := row } }
    (drained.toChip.slot 5).claimed = true ∧ (drained.toChip.slot 5).write = .sending ∧ owes drained 5 ∧
      owes (sent 29) 5 ∧ ¬owes (sent 30) 5 ∧ drained.dlc.linkState = .up ∧
      ({ drained with dlc := opening.dlc } : State).dlc.linkState ≠ .up ∧ drained.cpm.pendingMap = none ∧
      drained.cpm.request = some ⟨0, some .stop, 8, false⟩ ∧ drained.cpm.partState = .ready ∧
      (after .drainTimerExpiry drained).rc.state = .idle ∧ drained.toChip.RoomAfterReleases 1 ∧
      ∃ r, { editingFull with rc := ⟨.draining, editingFull.rc.run⟩ }.rc = ⟨.draining, some r⟩ ∧ r.kind = .edit ∧
        r.params = .edit punch (some 1) 0 0 1 :=
  ⟨by decide +kernel, by decide +kernel, by decide +kernel, by decide +kernel, by decide +kernel, rfl,
    by decide +kernel, rfl, rfl, rfl, by decide +kernel, roomAfter _ _ (by decide +kernel), _, rfl, rfl, rfl⟩

/-- R187: the kinds' lengths at their edges, one byte of the CRC changed, an unknown kind of three bytes and of two. -/
theorem witness_FramesReadBack :
    (List.replicate 16 (6 : Word)).length = 16 ∧
      (let opened := [0x70] ++ bytes16 (crc16 [0x70]);
        receive opened = .frame .opened ∧ receive (opened ++ [0]) = .bad ∧ receive (opened.set 2 0) = .bad) ∧
      (let short := [0x10, 0, 0, 5, 0] ++ List.replicate 64 6;
        receive (short ++ bytes16 (crc16 short)) = .bad) ∧
      receive ([0x90] ++ bytes16 (crc16 [0x90])) = .unknownKind ∧ receive (bytes16 (crc16 [])) = .bad ∧
      receive [] = .bad := by decide +kernel

theorem witness_ValuesStayBetween :
    (1 ≤ 1 ∧ 1 ≤ 8) ∧ 255 + 2 ^ 10 ≤ 255 + 2 ^ 10 ∧ punch.pin + 2 ^ punch.f ≤ punch.pout := by decide +kernel

end Sys2Proof.Tests
end

/-! PROOFS. What each operation that is not inner work keeps of the counts and of NOTICE, the posted-write queue left
alone. -/

namespace Sys2Proof.Machine

/-! ## What an action keeps -/

/-- b comes from a by actions that leave the posted-write queue alone, keep every count in its range (R17, R36, R37,
R91) and NOTICE as R38 has it. -/
structure Chip.Acts (a b : Chip) : Prop where
  posted : b.lbp.posted = a.lbp.posted
  counts : CountsBounded a → CountsBounded b
  notice : NoticeFollows a → NoticeFollows b

namespace Chip.Acts

variable {a p q : Chip}

theorem refl (p : Chip) : p.Acts p := ⟨rfl, id, id⟩

theorem trans (h : a.Acts p) (k : p.Acts q) : a.Acts q :=
  ⟨k.posted.trans h.posted, k.counts ∘ h.counts, k.notice ∘ h.notice⟩

/-- Inner work is such an action. -/
theorem cascade (h : a.Acts p) (k : p.Cascade q) : a.Acts q := by
  refine h.trans ⟨k.posted, fun hc => ?_, fun hn => ?_⟩
  · obtain ⟨⟨counters, overflow⟩, passOver, credits, write, published, read⟩ := hc
    exact ⟨⟨fun c => (k.counters counters c).2, (k.overflow overflow).2⟩, k.passOver passOver,
      k.writeCredits ▸ credits, k.writeIndex write, k.publishedIndex ▸ published, k.readIndex ▸ read⟩
  · unfold NoticeFollows
    rw [k.notice, k.publishedIndex, k.readIndex]
    exact hn

/-- An update that touches neither the counts, the queue nor NOTICE; the write credits may fall or stop at their
ceiling. -/
theorem update (h : a.Acts p) (posted : q.lbp.posted = p.lbp.posted := by rfl)
    (counters : q.cpm.counters = p.cpm.counters := by rfl) (overflow : q.cpm.overflow = p.cpm.overflow := by rfl)
    (writeIndex : q.cpm.writeIndex = p.cpm.writeIndex := by rfl)
    (publishedIndex : q.cpm.publishedIndex = p.cpm.publishedIndex := by rfl)
    (readIndex : q.cpm.readIndex = p.cpm.readIndex := by rfl) (notice : q.cpm.notice = p.cpm.notice := by rfl)
    (passOver : q.mp.passOver = p.mp.passOver := by rfl)
    (credits : p.dlc.writeCredits ≤ Config.creditMax → q.dlc.writeCredits ≤ Config.creditMax := by exact id) :
    a.Acts q := by
  refine h.trans ⟨posted, fun hc => ?_, fun hn => ?_⟩
  · unfold CountsBounded CountersBounded at hc ⊢
    rw [counters, overflow, writeIndex, publishedIndex, readIndex, passOver]
    obtain ⟨bounded, passed, held, ring⟩ := hc
    exact ⟨bounded, passed, credits held, ring⟩
  · unfold NoticeFollows
    rw [notice, publishedIndex, readIndex]
    exact hn

theorem foldl {α : Type} {f : Chip → α → Chip} {l : List α} (hf : ∀ q x, a.Acts q → a.Acts (f q x))
    (h : a.Acts p) : a.Acts (l.foldl f p) := by
  induction l generalizing p with
  | nil => exact h
  | cons x rest ih => exact ih (hf p x h)

end Chip.Acts

/-! ## Events and grants (R17) -/

section

variable {a p : Chip}

theorem Chip.begin_acts (h : a.Acts p) : a.Acts p.begin := h.update

theorem nextPassOver_le (before after : Mp) (granted c : Fin 7) (h : before.passOver[c] ≤ Config.passOverMax) :
    nextPassOver before after granted c ≤ Config.passOverMax := by
  unfold nextPassOver
  split
  · exact Nat.zero_le _
  · split
    · exact Nat.zero_le _
    · split
      · exact Nat.min_le_left _ _
      · exact h

/-- Setting entries that lie within a bound keeps every entry within it. -/
theorem foldl_set_le {f : Fin 7 → Nat} {n : Nat} (hf : ∀ c, f c ≤ n) (cs : List (Fin 7)) (v : Vector Nat 7)
    (hv : ∀ c : Fin 7, v[c] ≤ n) (c : Fin 7) :
    (cs.foldl (fun (v : Vector Nat 7) (c : Fin 7) => v.set c (f c)) v)[c] ≤ n := by
  induction cs generalizing v with
  | nil => exact hv c
  | cons d rest ih =>
    refine ih _ fun c => ?_
    simp only [Fin.getElem_fin, Vector.getElem_set]
    split
    · exact hf d
    · exact hv c

theorem Mp.grant_passOver_le (m : Mp) (r : Req) (h : ∀ c : Fin 7, m.passOver[c] ≤ Config.passOverMax) (c : Fin 7) :
    (m.grant r).passOver[c] ≤ Config.passOverMax :=
  foldl_set_le (fun c => nextPassOver_le m _ _ c (h c)) _ _ h c

theorem Chip.beginGrant_acts (r : Req) (h : a.Acts p) : a.Acts (p.beginGrant r) :=
  h.trans ⟨rfl, fun ⟨counters, passed, rest⟩ => ⟨counters, p.mp.grant_passOver_le r passed, rest⟩, id⟩

/-! ## Mode words (R20, R25 to R28) and ring indices (R37, R38) -/

theorem Chip.setMap_acts (m : ModeMap) (h : a.Acts p) : a.Acts (p.setMap m) := h.update

theorem Chip.applyMap_acts (m : ModeMap) (h : a.Acts p) : a.Acts (p.applyMap m) := by
  have released : a.Acts ((p.endCaptureForMap.releaseAll).endReadEvals).releaseReads :=
    h.cascade (Chip.releaseReads_cascade (Chip.endReadEvals_cascade (Chip.releaseAll_cascade
      (Chip.endCaptureForMap_cascade (.refl p)))))
  exact (Chip.setMap_acts m released).cascade (Chip.dirtyRunWords_cascade (.refl _))

theorem Chip.openLink_acts (request : Bool) (h : a.Acts p) : a.Acts (p.openLink request) := by
  have opened (d : Dlc) (none : d.writeCredits = 0) : a.Acts { p with dlc := d } :=
    h.update (credits := fun _ => none ▸ Nat.zero_le _)
  unfold Chip.openLink
  dsimp only
  split
  · exact (opened _ rfl).cascade (Chip.hand_cascade _ (Chip.hand_cascade _ (.refl _)))
  · exact (opened _ rfl).cascade (Chip.hand_cascade _ (.refl _))

/-- The fresh counters and indices of READY, with nothing else decided. -/
theorem Chip.freshCounts_acts {c : Cpm} {l : Lbp} (posted : l.posted = p.lbp.posted)
    (counters : c.counters = Vector.replicate 16 0) (overflow : c.overflow = 0) (writeIndex : c.writeIndex = 0)
    (publishedIndex : c.publishedIndex = 0) (readIndex : c.readIndex = 0) (notice : c.notice = false)
    (h : a.Acts p) : a.Acts { p with cpm := c, lbp := l } := by
  refine h.trans ⟨posted, fun ⟨_, passed, credits, _⟩ => ?_, fun _ => ?_⟩
  · refine ⟨⟨fun k => ?_, ?_⟩, passed, credits, ?_⟩
    · simp [counters]
    · simp [overflow]
    · simp [writeIndex, publishedIndex, readIndex, Config.ringEntries]
  · simp [NoticeFollows, publishedIndex, readIndex, notice]

theorem Chip.enterReady_acts (h : a.Acts p) : a.Acts p.enterReady := by
  unfold Chip.enterReady
  dsimp only
  refine Chip.Acts.cascade ?_ (Chip.markDirty_cascade _ (.refl _))
  exact (Chip.openLink_acts false (Chip.freshCounts_acts rfl rfl rfl rfl rfl rfl rfl h)).update

theorem Chip.takeMode_acts {apply hold : Chip → Chip} (mark : WrittenSet → WrittenSet)
    (applied : a.Acts (apply p)) (held : a.Acts (hold p)) : a.Acts (p.takeMode apply hold mark) := by
  have marked : a.Acts { apply p with
      cpm := { (apply p).cpm with writtenSet := mark (apply p).cpm.writtenSet } } := applied.update
  unfold Chip.takeMode
  dsimp only
  split
  · split
    · exact Chip.enterReady_acts marked
    · exact marked
  · split
    · exact applied
    · exact held

theorem Chip.writeMap_acts (w : PostedWrite) (h : a.Acts p) : a.Acts (p.writeMap w) := by
  have noted := h.cascade (Chip.noteClamp_cascade 0 (p.cpm.clampMarks 0 mapRanges) (.refl p))
  unfold Chip.writeMap
  dsimp only
  split
  · exact h.cascade (Chip.raise_cascade _ (.refl _))
  · exact Chip.takeMode_acts _ (Chip.applyMap_acts _ noted) noted.update

theorem Chip.writeSignal_acts (h : a.Acts p) : a.Acts p.writeSignal := by
  have noted := h.cascade (Chip.noteClamp_cascade 1 (p.cpm.clampMarks 1 signalRanges) (.refl p))
  unfold Chip.writeSignal
  dsimp only
  generalize p.noteClamp 1 (p.cpm.clampMarks 1 signalRanges) = q at noted ⊢
  exact Chip.takeMode_acts _ noted.update noted.update

theorem Chip.writeLink_acts (h : a.Acts p) : a.Acts p.writeLink := by
  have noted := h.cascade (Chip.noteClamp_cascade 2 (p.cpm.clampMarks 2 linkRanges) (.refl p))
  unfold Chip.writeLink
  dsimp only
  generalize p.noteClamp 2 (p.cpm.clampMarks 2 linkRanges) = q at noted ⊢
  exact Chip.takeMode_acts _ noted.update noted.update

theorem Chip.writeEdit_acts (h : a.Acts p) : a.Acts p.writeEdit := by
  have noted := h.cascade (Chip.noteClamp_cascade 3 (p.cpm.clampMarks 3 editRanges) (.refl p))
  unfold Chip.writeEdit
  dsimp only
  generalize p.noteClamp 3 (p.cpm.clampMarks 3 editRanges) = q at noted ⊢
  exact Chip.takeMode_acts _ noted.update noted.update

/-- Only an index in the ring is taken, and NOTICE is set by it (R38). -/
theorem Chip.writeReadIndex_acts (v : Nat) (h : a.Acts p) : a.Acts (p.writeReadIndex v) := by
  unfold Chip.writeReadIndex
  split
  · rename_i may
    have ring : v < Config.ringEntries := by
      unfold Cpm.mayRead at may
      simp only [Bool.and_eq_true, decide_eq_true_eq] at may
      exact may.1
    exact h.trans ⟨rfl, fun ⟨counters, passed, credits, write, published, _⟩ =>
      ⟨counters, passed, credits, write, published, ring⟩, fun _ => rfl⟩
  · exact h

theorem Chip.publish_acts (index : Nat) (h : a.Acts p) : a.Acts (p.publish index) :=
  h.trans ⟨rfl, fun ⟨counters, passed, credits, write, _, read⟩ =>
    ⟨counters, passed, credits, write, Nat.mod_lt _ (by decide), read⟩, fun _ => rfl⟩

/-! ## Requests (R29 to R32, R87, R107, R115) -/

theorem Chip.requestWord_acts (kind : RequestKind) (tag : Nat) {act : Chip → Chip}
    (hact : ∀ q, a.Acts q → a.Acts (act q)) (h : a.Acts p) : a.Acts (p.requestWord kind tag act) := by
  unfold Chip.requestWord
  split
  · exact h
  · split
    · exact hact _ (h.cascade (Chip.takePending_cascade _ _ (.refl _)))
    · split
      · split
        · exact hact _ (h.cascade (Chip.takePending_cascade _ _ (Chip.abandonFor_cascade _ _ (.refl _))))
        · exact h.cascade (Chip.ignoreRequest_cascade _ (.refl _))
      · exact h.cascade (Chip.ignoreRequest_cascade _ (.refl _))

theorem Chip.report_acts (o : ReqOutcome) (d : Nat) (h : a.Acts p) : a.Acts (p.report o d) :=
  h.cascade (Chip.report_cascade o d (.refl p))

theorem Chip.startChecked_acts (range : Option (Int × Int)) {act : Chip → Chip} (hact : a.Acts (act p))
    (h : a.Acts p) : a.Acts (p.startChecked range act) := by
  unfold Chip.startChecked
  extract_lets outside
  split
  · exact Chip.report_acts _ _ h
  · split
    · exact Chip.report_acts _ _ h
    · split
      · exact Chip.report_acts _ _ h
      · exact hact

theorem Chip.startRun_acts (r : RunRecord) (h : a.Acts p) : a.Acts (p.startRun r) := by
  have released : a.Acts (p.releaseAll.endReadEvals).releaseReads :=
    h.cascade (Chip.releaseReads_cascade (Chip.endReadEvals_cascade (Chip.releaseAll_cascade (.refl p))))
  unfold Chip.startRun
  generalize (p.releaseAll.endReadEvals).releaseReads = q at released ⊢
  dsimp only
  refine Chip.Acts.cascade ?_ (Chip.finish_cascade (Chip.report_cascade _ _ (Chip.dirtyRunWords_cascade
    (Chip.Cascade.foldl (fun q x hq => Chip.claim_cascade x hq) (Chip.placeSlots_cascade r (Chip.startEdit_cascade r
      (.refl _)))))))
  exact released.update

theorem Chip.startPlay_acts (tag : Nat) (h : a.Acts p) : a.Acts (p.startPlay tag) := by
  unfold Chip.startPlay
  refine Chip.startChecked_acts _ ?_ h
  split
  · exact Chip.report_acts _ _ h
  · exact Chip.startRun_acts _ h

theorem Chip.startRecord_acts (tag : Nat) (h : a.Acts p) : a.Acts (p.startRecord tag) := by
  unfold Chip.startRecord
  exact Chip.startChecked_acts _ (Chip.startRun_acts _ h) h

theorem Chip.startEditRun_acts (tag : Nat) (h : a.Acts p) : a.Acts (p.startEditRun tag) := by
  unfold Chip.startEditRun
  refine Chip.startChecked_acts _ ?_ h
  split
  · exact Chip.report_acts _ _ h
  · exact Chip.startRun_acts _ h

theorem Chip.startRevert_acts (tag : Nat) (h : a.Acts p) : a.Acts (p.startRevert tag) := by
  unfold Chip.startRevert
  refine Chip.startChecked_acts _ ?_ h
  split
  · exact Chip.report_acts _ _ h
  · split
    · exact Chip.report_acts _ _ h
    · split
      · exact Chip.report_acts _ _ (h.cascade (Chip.popEntry_cascade (.refl p)))
      · exact Chip.startRun_acts _ h

theorem Chip.stopRun_acts (h : a.Acts p) : a.Acts p.stopRun := by
  have draining : a.Acts { p with rc := { p.rc with state := .draining } } := h.update
  unfold Chip.stopRun
  split
  · exact draining.cascade (Chip.finish_cascade (Chip.startDrain_cascade (.refl _)))
  · exact Chip.report_acts _ _ h

/-! ## The link (R82, R85 to R88, R91, R96 to R99) -/

theorem Chip.withdrawLink_cascade {p a : Chip} (h : a.Cascade p) : a.Cascade p.withdrawLink := by
  unfold Chip.withdrawLink
  dsimp only
  split
  · exact Chip.withdrawFetch_cascade h
  · exact Chip.withdrawFetch_cascade (Chip.withdraw_cascade _ h)

theorem Chip.clearLink_acts (request : Bool) (h : a.Acts p) : a.Acts (p.clearLink request) := by
  have withdrawn : a.Acts p.abort.withdrawLink :=
    h.cascade (Chip.withdrawLink_cascade (Chip.abort_cascade (.refl p)))
  have emptied : a.Acts (p.abort.withdrawLink).emptyLink := withdrawn.update
  exact emptied.cascade (Chip.raise_cascade _ (.refl _))

theorem Chip.failLink_acts (h : a.Acts p) : a.Acts p.failLink := by
  have withdrawn : a.Acts p.abort.withdrawLink :=
    h.cascade (Chip.withdrawLink_cascade (Chip.abort_cascade (.refl p)))
  unfold Chip.failLink
  dsimp only
  refine Chip.Acts.cascade ?_ (Chip.raise_cascade _ (.refl _))
  exact withdrawn.update

theorem Chip.linkClearRequest_acts (h : a.Acts p) : a.Acts p.linkClearRequest := by
  unfold Chip.linkClearRequest
  refine Chip.report_acts _ _ (Chip.openLink_acts _ ?_)
  split
  · exact Chip.clearLink_acts _ h
  · exact Chip.clearLink_acts _ h
  · exact h
  · exact h

theorem Chip.comeUp_acts (h : a.Acts p) : a.Acts p.comeUp := by
  unfold Chip.comeUp
  refine Chip.Acts.cascade ?_ (Chip.raise_cascade _ (Chip.handGrant_cascade (.refl _)))
  exact h.update (credits := fun _ => Nat.zero_le _)

theorem Chip.releaseCredit_acts (h : a.Acts p) : a.Acts p.releaseCredit := by
  have counted : a.Acts { p with dlc := { p.dlc with released := p.dlc.released + 1 } } := h.update
  unfold Chip.releaseCredit
  dsimp only
  split
  · exact counted.cascade (Chip.handGrant_cascade (.refl _))
  · exact counted

theorem Chip.unstage_acts (rest : List StagedRow) (h : a.Acts p) : a.Acts (p.unstage rest) := by
  have popped : a.Acts { p with dlc := { p.dlc with staging := rest } } := h.update
  unfold Chip.unstage
  dsimp only
  split
  · exact Chip.releaseCredit_acts popped
  · exact (Chip.releaseCredit_acts popped).cascade (Chip.offer_cascade _ (.refl _))

theorem Chip.sendRow_acts (f : RowFetch) (words : List Word) (h : a.Acts p) : a.Acts (p.sendRow f words) := by
  have sent (d : Dlc) (fewer : d.writeCredits = p.dlc.writeCredits - 1) : a.Acts { p with dlc := d } :=
    h.update (credits := fun x => by rw [fewer]; exact (Nat.sub_le _ _).trans x)
  unfold Chip.sendRow
  dsimp only
  split
  · exact (sent _ rfl).cascade (Chip.modSlot_cascade _ _ (Nat.le_refl _) (Chip.hand_cascade _ (.refl _)))
  · exact (sent _ rfl).cascade (Chip.hand_cascade _ (.refl _))

theorem Chip.enterStaging_acts (row : StagedRow) (h : a.Acts p) : a.Acts (p.enterStaging row) := by
  have staged : a.Acts { p with dlc := { p.dlc with staging := p.dlc.staging ++ [row] } } := h.update
  unfold Chip.enterStaging
  dsimp only
  split
  · exact Chip.releaseCredit_acts h
  · split
    · exact staged.cascade (Chip.offer_cascade _ (.refl _))
    · exact staged

theorem Chip.takeSeq_acts (seq : BitVec 3) (h : a.Acts p) : a.Acts (p.takeSeq seq) := by
  unfold Chip.takeSeq
  dsimp only
  split
  · exact h.update
  · refine Chip.Acts.cascade ?_ (Chip.handMissing_cascade _ (.refl _))
    exact h.update

theorem Chip.playRow_acts (seq : BitVec 3) (row : StagedRow) (h : a.Acts p) : a.Acts (p.playRow seq row) := by
  have counted := h.cascade (Chip.bump_cascade .rowsReceived 1 (.refl p))
  unfold Chip.playRow Chip.newRow
  dsimp only
  split
  · exact counted.cascade (Chip.handGrant_cascade (.refl _))
  · split
    · exact counted
    · refine Chip.takeSeq_acts seq (Chip.enterStaging_acts row
        (Chip.Acts.cascade ?_ (Chip.clearMissing_cascade seq (.refl _))))
      exact counted.update

theorem Chip.acknowledge_acts (n : Nat) (h : a.Acts p) : a.Acts (p.acknowledge n) := by
  unfold Chip.acknowledge
  dsimp only
  refine Chip.Acts.foldl (fun q e hq => ?_) (Chip.Acts.foldl (fun q e hq => ?_) ?_)
  · split
    · exact hq.cascade (Chip.rowAcked_cascade e (.refl _))
    · exact hq
  · exact hq.cascade (Chip.unhandRow_cascade _ (.refl _))
  · exact h.update

theorem Chip.takeGrant_acts (next : BitVec 3) (credits : Nat) (h : a.Acts p) : a.Acts (p.takeGrant next credits) := by
  have credited : a.Acts { p with
      dlc := { p.dlc with writeCredits := min Config.creditMax (p.dlc.writeCredits + credits) } } :=
    h.update (credits := fun _ => Nat.min_le_left _ _)
  unfold Chip.takeGrant
  dsimp only
  split
  · exact Chip.acknowledge_acts _ credited
  · exact credited

theorem Chip.leave_acts (f : LaneFrame) (h : a.Acts p) : a.Acts (p.leave f) := by
  unfold Chip.leave
  split
  case h_2 =>
    split
    · exact h
    · exact h.update
  all_goals exact h.update

theorem Chip.ackExpired_acts (h : a.Acts p) : a.Acts p.ackExpired := by
  unfold Chip.ackExpired
  dsimp only
  split
  · exact Chip.failLink_acts h
  · refine Chip.Acts.cascade ?_ (Chip.Cascade.foldl (fun q e hq => Chip.resend_cascade e hq) (.refl _))
    exact h.update

end

end Sys2Proof.Machine


/-! PROOFS. Every step keeps each count in range, the write queue legal and NOTICE as R38 has it (O8), which holds after
reset (O11). -/

namespace Sys2Proof.Machine

/-! ## The posted-write queue (R11) -/

/-- b keeps what a meets of the ranges of R17, R36, R37 and R91, of the posted-write queue's bounds and of NOTICE. -/
structure Chip.Keeps (a b : Chip) : Prop where
  counts : CountsBounded a → CountsBounded b
  posted : PostedBounded a → PostedBounded b
  notice : NoticeFollows a → NoticeFollows b

section

variable {a p q : Chip}

theorem Chip.Keeps.trans (h : a.Keeps p) (k : p.Keeps q) : a.Keeps q :=
  ⟨k.counts ∘ h.counts, k.posted ∘ h.posted, k.notice ∘ h.notice⟩

theorem Chip.Acts.keeps (h : a.Acts p) : a.Keeps p := by
  refine ⟨h.counts, fun hp => ?_, h.notice⟩
  unfold PostedBounded
  rw [h.posted]
  exact hp

theorem Chip.Keeps.cascade (h : a.Keeps p) (k : p.Cascade q) : a.Keeps q :=
  h.trans ((Chip.Acts.refl p).cascade k).keeps

/-- A legal burst joins a queue that has an entry free. -/
theorem Chip.post_keeps (initiator : Fin 8) (addr : Nat) (data : List Word) (range : Range)
    (legal : legalBurst addr data.length = true) (room : p.lbp.posted.length < Config.postedEntries) :
    p.Keeps (p.post initiator addr data range) := by
  have joined : p.Keeps { p with lbp := { p.lbp with
      posted := p.lbp.posted ++ [⟨p.lbp.nextWrite, initiator, addr, data, range⟩]
      nextWrite := p.lbp.nextWrite + 1 } } := by
    refine ⟨id, fun ⟨_, old⟩ => ⟨?_, fun w hw => ?_⟩, id⟩
    · simpa using room
    · rcases List.mem_append.mp hw with hw | hw
      · exact old w hw
      · cases List.mem_singleton.mp hw
        exact legal
  unfold Chip.post
  dsimp only
  split
  · exact joined.cascade (Chip.offer_cascade _ (.refl _))
  · exact joined

theorem Chip.leaveQueue_cascade (w : PostedWrite) (p : Chip) :
    ({ p with lbp := { p.lbp with posted := p.lbp.posted.tail } } : Chip).Cascade (p.leaveQueue w) := by
  have ended := Chip.endWait_cascade (.posted w.id)
    (.refl { p with lbp := { p.lbp with posted := p.lbp.posted.tail } })
  unfold Chip.leaveQueue
  dsimp only
  split
  · exact ended
  · exact Chip.offer_cascade _ ended

@[simp] theorem Chip.leaveQueue_posted (w : PostedWrite) (p : Chip) :
    (p.leaveQueue w).lbp.posted = p.lbp.posted.tail := (Chip.leaveQueue_cascade w p).posted

theorem Chip.leaveQueue_keeps (w : PostedWrite) (p : Chip) : p.Keeps (p.leaveQueue w) := by
  refine Chip.Keeps.cascade ?_ (Chip.leaveQueue_cascade w p)
  have sub := List.tail_sublist p.lbp.posted
  exact ⟨id, fun ⟨length, legal⟩ => ⟨sub.length_le.trans length, fun w hw => legal w (sub.subset hw)⟩, id⟩

end

/-! ## Commands -/

/-- What a command answers keeps what the state met. -/
def State.Keeps (s : State) (o : Out) : Prop := ∀ t, o = .next t → s.toChip.Keeps t.toChip

namespace State.Keeps

variable {s t : State}

theorem next (h : s.toChip.Keeps t.toChip) : s.Keeps (.next t) := by
  rintro _ ⟨⟩
  exact h

theorem acts (h : s.toChip.Acts t.toChip) : s.Keeps (.next t) := next h.keeps

/-- A command turned away (log 5). -/
theorem same (s : State) : s.Keeps (.next s) := acts (.refl _)

/-- A command of inner work alone. -/
theorem begun (k : s.toChip.begin.Cascade t.toChip) : s.Keeps (.next t) :=
  acts ((Chip.begin_acts (.refl _)).cascade k)

/-- A grant followed by inner work alone. -/
theorem granted {r : Req} (k : (s.toChip.beginGrant r).Cascade t.toChip) : s.Keeps (.next t) :=
  acts ((Chip.beginGrant_acts r (.refl _)).cascade k)

end State.Keeps

/-! ### Reset (R18, R19, R39) -/

theorem countsBounded_reset : CountsBounded Chip.reset := by
  refine ⟨⟨fun c => ?_, Nat.zero_le _⟩, fun c => ?_, Nat.zero_le _, by decide, by decide, by decide⟩
  · simp [Chip.reset, Cpm.reset]
  · simp [Chip.reset, Mp.reset]

theorem postedBounded_reset : PostedBounded Chip.reset := ⟨Nat.zero_le _, fun _ hw => nomatch hw⟩

theorem noticeFollows_reset : NoticeFollows Chip.reset := rfl

/-- Settles O11: the reset values are 0, empty or IDLE, and the 32 credits are all released. -/
theorem resetMeetsInvariants : Obligations.ResetMeetsInvariants := by
  unfold Obligations.ResetMeetsInvariants
  have credits : CreditsBalance Chip.reset := ⟨Nat.le_refl _, fun _ => rfl⟩
  have retention : RetentionBounded Chip.reset := ⟨fun _ => rfl, Nat.zero_le _, fun offered => nomatch offered⟩
  have run : RunRecorded Chip.reset := ⟨fun busy => absurd rfl busy, fun _ => rfl⟩
  have slots : SlotsPlaced Chip.reset := fun i claimed => by
    simp [Chip.slot, Chip.reset, Slot.releasedWith] at claimed
  exact ⟨rfl, credits, retention, noticeFollows_reset, postedBounded_reset, countsBounded_reset, run, slots⟩

/-! ### One lemma a command -/

section

/-- One word of an audio-view write: the step of `Chip.takeWords`. -/
def Chip.takeWord (w : PostedWrite) (place : ViewPlace) (base : Nat) (acc : Chip × List (Nat × Word))
    (dk : Word × Nat) : Chip × List (Nat × Word) :=
  if acc.1.acceptsWord (place.advance dk.2) then
    (acc.1.acceptWord (place.advance dk.2) dk.1,
      acc.2 ++ [(outgoingAddr base (place.advance dk.2).slot (place.advance dk.2).imageWord,
        word (codeOfSample (limit (writtenSample dk.1))))])
  else (acc.1.strayWord w (place.advance dk.2).slot, acc.2)

theorem Chip.takeWords_eq (w : PostedWrite) (place : ViewPlace) (p : Chip) :
    p.takeWords w place = w.data.zipIdx.foldl (Chip.takeWord w place p.cpm.map.privateBase) (p, []) := rfl

theorem Chip.takeWord_cascade (w : PostedWrite) (place : ViewPlace) (base : Nat) (acc : Chip × List (Nat × Word))
    (dk : Word × Nat) {a : Chip} (h : a.Cascade acc.1) : a.Cascade (Chip.takeWord w place base acc dk).1 := by
  unfold Chip.takeWord
  split
  · exact Chip.acceptWord_cascade _ _ h
  · exact Chip.strayWord_cascade _ _ h

theorem Chip.takeWords_cascade (w : PostedWrite) (place : ViewPlace) {a p : Chip} (h : a.Cascade p) :
    a.Cascade (p.takeWords w place).1 := by
  rw [Chip.takeWords_eq]
  exact List.foldlRecOn (motive := fun acc => a.Cascade acc.1) _ _ (b := (p, [])) h
    fun acc hacc dk _ => Chip.takeWord_cascade w place _ acc dk hacc

/-- The part once the words of an audio-view burst are decided and what follows them is done (R7, R55, R174 to R176). -/
def Chip.takeBurst (w : PostedWrite) (place : ViewPlace) (p : Chip) : Chip :=
  if (p.takeWords w place).2.isEmpty then (p.takeWords w place).1
  else (p.takeWords w place).1.endBurst w.initiator place.slot

theorem Chip.takeBurst_cascade (w : PostedWrite) (place : ViewPlace) {a p : Chip} (h : a.Cascade p) :
    a.Cascade (p.takeBurst w place) := by
  unfold Chip.takeBurst
  split
  · exact Chip.takeWords_cascade w place h
  · exact Chip.endBurst_cascade _ _ (Chip.takeWords_cascade w place h)

variable (s : State)


theorem execPinReset_keeps : s.Keeps (execPinReset s) := by
  unfold execPinReset
  exact .next ⟨fun _ => countsBounded_reset, fun _ => postedBounded_reset, fun _ => noticeFollows_reset⟩

theorem execWriteAccept_keeps (initiator : Fin 8) (addr : BusAddr) (data : List Word) :
    s.Keeps (execWriteAccept initiator addr data s) := by
  unfold execWriteAccept
  dsimp only
  split
  · exact .begun (Chip.rejectWrite_cascade _ _ (.refl _))
  · rename_i legal
    split
    · exact .begun (Chip.protectWrite_cascade _ _ (.refl _))
    · split
      · rename_i room
        exact .next ((Chip.begin_acts (.refl _)).keeps.trans
          (Chip.post_keeps (p := s.toChip.begin) _ _ _ _ (by simpa using legal) room))
      · exact .same s

theorem execReadAccept_keeps (initiator : Fin 8) (tag : Nat) (addr : BusAddr) (len : Nat) :
    s.Keeps (execReadAccept initiator tag addr len s) := by
  unfold execReadAccept
  dsimp only
  split
  · exact .begun (Chip.respond_cascade _ (.refl _))
  · split
    · exact .begun (Chip.track_cascade _ _ _ _ _ (.refl _))
    · exact .same s

/-- A request word is taken, then acted on. -/
theorem grantRequest_headRow (kind : RequestKind) {act : Nat → Chip → Chip}
    (acts : ∀ (tag : Nat) (a p : Chip), a.Acts p → a.Acts (act tag p)) :
    ∃ effect : PostedWrite → Chip → Chip, s.grantRequest kind act = s.grantHead (.request kind) effect ∧
      ∀ (a : Chip) (w : PostedWrite) (p : Chip), a.Acts p → a.Acts (effect w p) :=
  ⟨_, rfl, fun a _ _ h => Chip.requestWord_acts kind _ (acts _ a) h⟩

/-- A command that grants the posted-write head by its row does so with an effect that leaves the queue alone. -/
theorem exec_headRow {c : Instr} {act : WriteAct} (row : c.headRow = some act) :
    ∃ effect : PostedWrite → Chip → Chip, exec c s = s.grantHead act effect ∧
      ∀ (a : Chip) (w : PostedWrite) (p : Chip), a.Acts p → a.Acts (effect w p) := by
  cases c with
  | writeGrant =>
    cases row
    exact ⟨_, rfl, fun _ _ _ h => h⟩
  | modeMapWrite =>
    cases row
    exact ⟨_, rfl, fun _ w _ h => Chip.writeMap_acts w h⟩
  | modeSignalWrite =>
    cases row
    exact ⟨_, rfl, fun _ _ _ h => Chip.writeSignal_acts h⟩
  | modeLinkWrite =>
    cases row
    exact ⟨_, rfl, fun _ _ _ h => Chip.writeLink_acts h⟩
  | modeEditWrite =>
    cases row
    exact ⟨_, rfl, fun _ _ _ h => Chip.writeEdit_acts h⟩
  | badReq =>
    cases row
    exact ⟨_, rfl, fun _ _ p h => h.cascade (Chip.refuseWord_cascade _ (.refl p))⟩
  | consumeCountWrite =>
    cases row
    exact ⟨_, rfl, fun _ _ p h => h.cascade (Chip.writeConsume_cascade _ (.refl p))⟩
  | inputStatusWrite =>
    cases row
    exact ⟨_, rfl, fun _ _ p h => h.cascade (Chip.writeInput_cascade _ _ (.refl p))⟩
  | noticeReadIndexWrite =>
    cases row
    exact ⟨_, rfl, fun _ _ _ h => Chip.writeReadIndex_acts _ h⟩
  | play =>
    cases row
    exact grantRequest_headRow s .play (act := Chip.startPlay)
      fun tag _ _ h => Chip.startPlay_acts tag h
  | record =>
    cases row
    exact grantRequest_headRow s .record (act := Chip.startRecord)
      fun tag _ _ h => Chip.startRecord_acts tag h
  | edit =>
    cases row
    exact grantRequest_headRow s .edit (act := Chip.startEditRun)
      fun tag _ _ h => Chip.startEditRun_acts tag h
  | revert =>
    cases row
    exact grantRequest_headRow s .revert (act := Chip.startRevert)
      fun tag _ _ h => Chip.startRevert_acts tag h
  | stop =>
    cases row
    exact grantRequest_headRow s .stop (act := fun _ => Chip.stopRun)
      fun _ _ _ h => Chip.stopRun_acts h
  | capture =>
    cases row
    exact grantRequest_headRow s .capture (act := fun _ => Chip.captureClip)
      fun _ _ p h => h.cascade (Chip.captureClip_cascade (.refl p))
  | dropClip =>
    cases row
    exact grantRequest_headRow s .dropClip (act := fun _ => Chip.dropClip)
      fun _ _ p h => h.cascade (Chip.dropClip_cascade (.refl p))
  | mark =>
    cases row
    exact grantRequest_headRow s .mark (act := fun _ => Chip.markSegment)
      fun _ _ p h => h.cascade (Chip.markSegment_cascade (.refl p))
  | linkClear =>
    cases row
    exact grantRequest_headRow s .linkClear (act := fun _ => Chip.linkClearRequest)
      fun _ _ _ h => Chip.linkClearRequest_acts h
  | _ => cases row

/-- A grant of the posted-write head keeps what its effect keeps. -/
theorem grantHead_keeps (want : WriteAct) {effect : PostedWrite → Chip → Chip}
    (acts : ∀ (a : Chip) (w : PostedWrite) (p : Chip), a.Acts p → a.Acts (effect w p)) :
    s.Keeps (s.grantHead want effect) := by
  unfold State.grantHead
  split
  · exact .same s
  · rename_i w _ _
    split
    · have acted := acts s.toChip w _ ((Chip.beginGrant_acts .postedWrite (.refl _)).cascade
        (Chip.placeShadow_cascade w (.refl _)))
      exact .next ((acted.keeps.trans (Chip.leaveQueue_keeps w _)).cascade (Chip.noteStatus_cascade (.refl _)))
    · exact .same s

theorem exec_headRow_keeps {c : Instr} {act : WriteAct} (row : c.headRow = some act) : s.Keeps (exec c s) := by
  obtain ⟨effect, answer, acts⟩ := exec_headRow s row
  rw [answer]
  exact grantHead_keeps s act acts

theorem execAudioViewWrite_keeps : s.Keeps (execAudioViewWrite s) := by
  unfold execAudioViewWrite
  split
  · exact .same s
  · rename_i w _ _
    split
    · split
      · rename_i place _ _
        have acted := (Chip.beginGrant_acts .postedWrite (.refl s.toChip)).cascade
          (Chip.takeBurst_cascade w place (.refl _))
        exact .next ((acted.keeps.trans (Chip.leaveQueue_keeps w _)).cascade (Chip.finish_cascade (.refl _)))
      · exact .same s
    · exact .same s

theorem execReadGrant_keeps (e : Fin 8) : s.Keeps (execReadGrant e s) := by
  unfold execReadGrant
  split
  · exact .same s
  · split
    · exact .same s
    · split
      · exact .granted (Chip.completeRead_cascade _ _ _ (.refl _))
      · exact .same s

theorem execOutputStatusRead_keeps (e : Fin 8) : s.Keeps (execOutputStatusRead e s) := by
  unfold execOutputStatusRead
  split
  · exact .same s
  · split
    · exact .granted (Chip.completeRead_cascade _ _ _ (.refl _))
    · exact .same s

theorem execAudioViewFetch_keeps (e : Fin 8) : s.Keeps (execAudioViewFetch e s) := by
  unfold execAudioViewFetch
  split
  · exact .same s
  · split
    · split
      · refine .granted (r := .read e) (Chip.noteStatus_cascade ?_)
        split
        · exact Chip.takeFetched_cascade _ _ _ (.refl _)
        · exact Chip.holdOnSlot_cascade _ (.refl _)
        · exact Chip.holdOnSlot_cascade _ (.refl _)
        · exact Chip.completeZeros_cascade _ (.refl _)
      · exact .same s
    · exact .same s

theorem execNeighbourFetch_keeps (evaluation : Nat) : s.Keeps (execNeighbourFetch evaluation s) := by
  unfold execNeighbourFetch
  split
  · exact .same s
  · split
    · exact .same s
    · split
      · exact .granted (Chip.noteStatus_cascade (Chip.proceed_cascade _ (Chip.applyScan_cascade _ _ _ (.refl _))))
      · exact .same s

theorem execReadLate_keeps (e : Fin 8) : s.Keeps (execReadLate e s) := by
  unfold execReadLate
  split
  · exact .same s
  · split
    · exact .begun (Chip.noteStatus_cascade (Chip.becomeLate_cascade _ _ (.refl _)))
    · exact .same s

theorem execStagingWrite_keeps : s.Keeps (execStagingWrite s) := by
  unfold execStagingWrite
  split
  · exact .same s
  · split
    · exact .acts ((Chip.unstage_acts _ ((Chip.beginGrant_acts .staging (.refl _)).cascade
        (Chip.stageRow_cascade _ (.refl _)))).cascade (Chip.noteStatus_cascade (.refl _)))
    · exact .same s

theorem execRowFetch_keeps : s.Keeps (execRowFetch s) := by
  unfold execRowFetch
  split
  · exact .same s
  · split
    · have taken : s.toChip.Acts { s.toChip.beginGrant .rowFetch with
          dlc := { (s.toChip.beginGrant .rowFetch).dlc with fetch := none } } :=
        (Chip.beginGrant_acts .rowFetch (.refl _)).update
      refine .acts (Chip.Acts.cascade ?_ (Chip.finish_cascade (.refl _)))
      split
      · exact Chip.sendRow_acts _ _ taken
      · exact taken
    · exact .same s

theorem execCeTakeDecodeItem_keeps (slot : Fin 128) : s.Keeps (execCeTakeDecodeItem slot s) := by
  unfold execCeTakeDecodeItem
  split
  · exact .begun (Chip.offer_cascade _ (Chip.takeItem_cascade _ _ (.refl _)))
  · exact .same s

theorem execCeTakeCodeItem_keeps (slot : Fin 128) : s.Keeps (execCeTakeCodeItem slot s) := by
  unfold execCeTakeCodeItem
  split
  · exact .begun (Chip.beginCoding_cascade _ (Chip.modSlot_cascade _ _ (Nat.le_refl _)
      (Chip.takeItem_cascade _ _ (.refl _))))
  · exact .same s

theorem execDecodeBlockRead_keeps : s.Keeps (execDecodeBlockRead s) := by
  unfold execDecodeBlockRead
  split
  · split
    · exact .granted (Chip.noteStatus_cascade (Chip.decideBlock_cascade _ _ (.refl _)))
    · exact .same s
  · exact .same s

theorem execDecodeBlockWrite_keeps : s.Keeps (execDecodeBlockWrite s) := by
  unfold execDecodeBlockWrite
  split
  · split
    · split
      · exact .granted (Chip.noteStatus_cascade (Chip.decodeAdvance_cascade _ (.refl _)))
      · exact .same s
    · exact .same s
  · exact .same s

theorem execDecodeFinalWrite_keeps : s.Keeps (execDecodeFinalWrite s) := by
  unfold execDecodeFinalWrite
  split
  · split
    · exact .granted (Chip.reportDecode_cascade _ (.refl _))
    · exact .same s
  · exact .same s

theorem execCodeFlagMapRead_keeps : s.Keeps (execCodeFlagMapRead s) := by
  unfold execCodeFlagMapRead
  split
  · split
    · exact .granted (Chip.noteStatus_cascade (Chip.startEditCoding_cascade _ _ (.refl _)))
    · exact .same s
  · exact .same s

theorem execCodeBlockRead_keeps : s.Keeps (execCodeBlockRead s) := by
  unfold execCodeBlockRead
  split
  · split
    · exact .granted (Chip.gatherBlock_cascade _ (.refl _))
    · exact .same s
  · exact .same s

theorem execCodeBlockWrite_keeps : s.Keeps (execCodeBlockWrite s) := by
  unfold execCodeBlockWrite
  split
  · split
    · split
      · exact .granted (Chip.codeAdvance_cascade _ (.refl _))
      · exact .same s
    · exact .same s
  · exact .same s

theorem execCodeSummaryWrite_keeps : s.Keeps (execCodeSummaryWrite s) := by
  unfold execCodeSummaryWrite
  split
  · split
    · exact .granted (Chip.reportCode_cascade _ (.refl _))
    · exact .same s
  · exact .same s

theorem execCaptureBlockRead_keeps : s.Keeps (execCaptureBlockRead s) := by
  unfold execCaptureBlockRead
  split
  · split
    · exact .granted (Chip.captureRead_cascade _ _ (.refl _))
    · exact .same s
  · exact .same s

theorem execCaptureBlockWrite_keeps : s.Keeps (execCaptureBlockWrite s) := by
  unfold execCaptureBlockWrite
  split
  · split
    · exact .granted (Chip.captureWritten_cascade _ (.refl _))
    · exact .same s
  · exact .same s

theorem execSaveTake_keeps : s.Keeps (execSaveTake s) := by
  unfold execSaveTake
  split
  · exact .begun (Chip.takeSave_cascade _ _ (.refl _))
  · exact .same s

theorem execSaveBlockRead_keeps : s.Keeps (execSaveBlockRead s) := by
  unfold execSaveBlockRead
  split
  · split
    · exact .granted (Chip.saveRead_cascade _ _ (.refl _))
    · exact .same s
  · exact .same s

theorem execSaveBlockWrite_keeps : s.Keeps (execSaveBlockWrite s) := by
  unfold execSaveBlockWrite
  split
  · split
    · exact .granted (Chip.saveWritten_cascade _ (.refl _))
    · exact .same s
  · exact .same s

theorem execSaveClosingWrite_keeps : s.Keeps (execSaveClosingWrite s) := by
  unfold execSaveClosingWrite
  split
  · split
    · exact .granted (Chip.endSave_cascade _ (.refl _))
    · exact .same s
  · exact .same s

theorem execLoadBlockRead_keeps (slot : Fin 128) : s.Keeps (execLoadBlockRead slot s) := by
  unfold execLoadBlockRead
  split
  · split
    · exact .granted (Chip.offer_cascade _ (Chip.putLoad_cascade _ (.refl _)))
    · exact .same s
  · exact .same s

theorem execLoadBlockWrite_keeps (slot : Fin 128) : s.Keeps (execLoadBlockWrite slot s) := by
  unfold execLoadBlockWrite
  split
  · split
    · split
      · exact .granted (Chip.loadWritten_cascade _ (.refl _))
      · exact .same s
    · exact .same s
  · exact .same s

theorem execStackMirrorWrite_keeps : s.Keeps (execStackMirrorWrite s) := by
  unfold execStackMirrorWrite
  split
  · split
    · exact .granted (.refl _)
    · exact .same s
  · exact .same s

theorem execResultWrite_keeps : s.Keeps (execResultWrite s) := by
  unfold execResultWrite
  split
  · split
    · exact .granted (Chip.closeRequest_cascade _ (Chip.endWait_cascade _ (.refl _)))
    · exact .same s
  · exact .same s

theorem execStatusWrite_keeps : s.Keeps (execStatusWrite s) := by
  unfold execStatusWrite
  split
  · split
    · exact .granted (Chip.emptyDirty_cascade (Chip.endWait_cascade _ (.refl _)))
    · exact .same s
  · exact .same s

theorem execNoticeWrite_keeps : s.Keeps (execNoticeWrite s) := by
  unfold execNoticeWrite
  split
  · split
    · exact .acts (Chip.publish_acts _ ((Chip.beginGrant_acts _ (.refl _)).cascade
        (Chip.endWait_cascade _ (.refl _))))
    · exact .same s
  · exact .same s

theorem execOpenedReceived_keeps (frame : List Byte) : s.Keeps (execOpenedReceived frame s) := by
  unfold execOpenedReceived
  split
  · exact .acts ((Chip.comeUp_acts (Chip.begin_acts (.refl _))).cascade (Chip.noteStatus_cascade (.refl _)))
  · exact .same s

theorem execClearReceived_keeps (frame : List Byte) : s.Keeps (execClearReceived frame s) := by
  unfold execClearReceived
  split
  · exact .acts ((Chip.openLink_acts false (Chip.clearLink_acts false (Chip.begin_acts (.refl _)))).cascade
      (Chip.noteStatus_cascade (.refl _)))
  · exact .same s

theorem execPlayRowReceived_keeps (frame : List Byte) : s.Keeps (execPlayRowReceived frame s) := by
  unfold execPlayRowReceived
  split
  · split
    · exact .acts ((Chip.playRow_acts _ _ (Chip.begin_acts (.refl _))).cascade (Chip.noteStatus_cascade (.refl _)))
    · exact .same s
  · exact .same s

theorem execGrantReceived_keeps (frame : List Byte) : s.Keeps (execGrantReceived frame s) := by
  unfold execGrantReceived
  split
  · split
    · exact .acts ((Chip.takeGrant_acts _ _ (Chip.begin_acts (.refl _))).cascade (Chip.finish_cascade (.refl _)))
    · exact .same s
  · exact .same s

theorem execMissingReceived_keeps (frame : List Byte) : s.Keeps (execMissingReceived frame s) := by
  unfold execMissingReceived
  split
  · split
    · exact .begun (Chip.noteStatus_cascade (Chip.takeMissing_cascade _ (.refl _)))
    · exact .same s
  · exact .same s

theorem execDueReceived_keeps (frame : List Byte) : s.Keeps (execDueReceived frame s) := by
  unfold execDueReceived
  split
  · split
    · exact .begun (Chip.takeDue_cascade _ (.refl _))
    · exact .same s
  · exact .same s

theorem execBadCrcFrame_keeps (frame : List Byte) : s.Keeps (execBadCrcFrame frame s) := by
  unfold execBadCrcFrame
  split
  · exact .begun (Chip.noteStatus_cascade (Chip.dropBad_cascade (.refl _)))
  · exact .same s

theorem execDroppedFrame_keeps (frame : List Byte) : s.Keeps (execDroppedFrame frame s) := by
  unfold execDroppedFrame
  split
  · exact .begun (.refl _)
  · exact .same s

theorem execFrameLeaves_keeps (second : Bool) : s.Keeps (execFrameLeaves second s) := by
  unfold execFrameLeaves
  split
  · exact .same s
  · rename_i f rest _
    have taken : s.toChip.Acts { s.toChip.begin with dlc := { s.toChip.begin.dlc with lane := rest } } :=
      (Chip.begin_acts (.refl _)).update
    exact .acts (Chip.leave_acts f taken)

theorem execOpenRetryExpiry_keeps : s.Keeps (execOpenRetryExpiry s) := by
  unfold execOpenRetryExpiry
  split
  · have handed := (Chip.begin_acts (.refl s.toChip)).cascade (Chip.handOpen_cascade (.refl _))
    exact .acts handed.update
  · exact .same s

theorem execCreditTimerExpiry_keeps : s.Keeps (execCreditTimerExpiry s) := by
  unfold execCreditTimerExpiry
  split
  · have handed := (Chip.begin_acts (.refl s.toChip)).cascade (Chip.handGrant_cascade (.refl _))
    exact .acts handed.update
  · exact .same s

theorem execAckTimerExpiry_keeps : s.Keeps (execAckTimerExpiry s) := by
  unfold execAckTimerExpiry
  split
  · exact .acts ((Chip.ackExpired_acts (Chip.begin_acts (.refl _))).cascade (Chip.noteStatus_cascade (.refl _)))
  · exact .same s

theorem execDrainTimerExpiry_keeps : s.Keeps (execDrainTimerExpiry s) := by
  unfold execDrainTimerExpiry
  split
  · exact .begun (Chip.drainExpired_cascade (.refl _))
  · exact .same s

theorem execTick_keeps : s.Keeps (execTick s) := .acts (Chip.Acts.update (.refl _))

/-- Every command keeps the counts in range, the queue legal and NOTICE as R38 has it. -/
theorem exec_keeps (c : Instr) : s.Keeps (exec c s) :=
  match c with
  | .pinReset => execPinReset_keeps s
  | .writeAccept initiator addr data => execWriteAccept_keeps s initiator addr data
  | .readAccept initiator tag addr len => execReadAccept_keeps s initiator tag addr len
  | .writeGrant => exec_headRow_keeps s (c := .writeGrant) rfl
  | .audioViewWrite => execAudioViewWrite_keeps s
  | .modeMapWrite => exec_headRow_keeps s (c := .modeMapWrite) rfl
  | .modeSignalWrite => exec_headRow_keeps s (c := .modeSignalWrite) rfl
  | .modeLinkWrite => exec_headRow_keeps s (c := .modeLinkWrite) rfl
  | .modeEditWrite => exec_headRow_keeps s (c := .modeEditWrite) rfl
  | .play => exec_headRow_keeps s (c := .play) rfl
  | .record => exec_headRow_keeps s (c := .record) rfl
  | .edit => exec_headRow_keeps s (c := .edit) rfl
  | .revert => exec_headRow_keeps s (c := .revert) rfl
  | .stop => exec_headRow_keeps s (c := .stop) rfl
  | .capture => exec_headRow_keeps s (c := .capture) rfl
  | .dropClip => exec_headRow_keeps s (c := .dropClip) rfl
  | .mark => exec_headRow_keeps s (c := .mark) rfl
  | .linkClear => exec_headRow_keeps s (c := .linkClear) rfl
  | .badReq => exec_headRow_keeps s (c := .badReq) rfl
  | .consumeCountWrite => exec_headRow_keeps s (c := .consumeCountWrite) rfl
  | .inputStatusWrite => exec_headRow_keeps s (c := .inputStatusWrite) rfl
  | .noticeReadIndexWrite => exec_headRow_keeps s (c := .noticeReadIndexWrite) rfl
  | .readGrant entry => execReadGrant_keeps s entry
  | .outputStatusRead entry => execOutputStatusRead_keeps s entry
  | .audioViewFetch entry => execAudioViewFetch_keeps s entry
  | .neighbourFetch evaluation => execNeighbourFetch_keeps s evaluation
  | .readLate entry => execReadLate_keeps s entry
  | .stagingWrite => execStagingWrite_keeps s
  | .rowFetch => execRowFetch_keeps s
  | .ceTakeDecodeItem slot => execCeTakeDecodeItem_keeps s slot
  | .ceTakeCodeItem slot => execCeTakeCodeItem_keeps s slot
  | .decodeBlockRead => execDecodeBlockRead_keeps s
  | .decodeBlockWrite => execDecodeBlockWrite_keeps s
  | .decodeFinalWrite => execDecodeFinalWrite_keeps s
  | .codeFlagMapRead => execCodeFlagMapRead_keeps s
  | .codeBlockRead => execCodeBlockRead_keeps s
  | .codeBlockWrite => execCodeBlockWrite_keeps s
  | .codeSummaryWrite => execCodeSummaryWrite_keeps s
  | .captureBlockRead => execCaptureBlockRead_keeps s
  | .captureBlockWrite => execCaptureBlockWrite_keeps s
  | .saveTake => execSaveTake_keeps s
  | .saveBlockRead => execSaveBlockRead_keeps s
  | .saveBlockWrite => execSaveBlockWrite_keeps s
  | .saveClosingWrite => execSaveClosingWrite_keeps s
  | .loadBlockRead slot => execLoadBlockRead_keeps s slot
  | .loadBlockWrite slot => execLoadBlockWrite_keeps s slot
  | .stackMirrorWrite => execStackMirrorWrite_keeps s
  | .resultWrite => execResultWrite_keeps s
  | .statusWrite => execStatusWrite_keeps s
  | .noticeWrite => execNoticeWrite_keeps s
  | .openedReceived frame => execOpenedReceived_keeps s frame
  | .clearReceived frame => execClearReceived_keeps s frame
  | .playRowReceived frame => execPlayRowReceived_keeps s frame
  | .grantReceived frame => execGrantReceived_keeps s frame
  | .missingReceived frame => execMissingReceived_keeps s frame
  | .dueReceived frame => execDueReceived_keeps s frame
  | .badCrcFrame frame => execBadCrcFrame_keeps s frame
  | .droppedFrame frame => execDroppedFrame_keeps s frame
  | .frameLeaves second => execFrameLeaves_keeps s second
  | .openRetryExpiry => execOpenRetryExpiry_keeps s
  | .ackTimerExpiry => execAckTimerExpiry_keeps s
  | .creditTimerExpiry => execCreditTimerExpiry_keeps s
  | .drainTimerExpiry => execDrainTimerExpiry_keeps s

end

theorem step_keeps (s : State) : s.Keeps (step s) := by
  unfold step
  split
  · exact execTick_keeps s
  · exact exec_keeps (s.withPending _) _

/-- Settles O8: each operation keeps the three, inner work by its `Cascade` lemma, and a command is a few of them. -/
theorem everyStepKeepsBoundsAndNotice : Obligations.EveryStepKeepsBoundsAndNotice := by
  unfold Obligations.EveryStepKeepsBoundsAndNotice
  intro s t h
  have k := step_keeps s t h
  exact ⟨k.counts, k.posted, k.notice⟩

end Sys2Proof.Machine


/-! PROOFS. The commands that grant no write answer the state with its part changed, DRAM as it was (O4). -/

namespace Sys2Proof.Machine

/-- A command leaves DRAM alone. -/
def State.Quiet (s : State) (o : Out) : Prop := ∀ t, o = .next t → t.mem = s.mem

theorem State.Quiet.next {s t : State} (h : t.mem = s.mem) : s.Quiet (.next t) := by
  rintro _ ⟨⟩
  exact h

section

variable (s : State)

theorem execPinReset_quiet : s.Quiet (execPinReset s) := .next rfl

theorem execWriteAccept_quiet (initiator : Fin 8) (addr : BusAddr) (data : List Word) :
    s.Quiet (execWriteAccept initiator addr data s) := by
  unfold execWriteAccept
  dsimp only
  repeat' split
  all_goals exact .next rfl

theorem execReadAccept_quiet (initiator : Fin 8) (tag : Nat) (addr : BusAddr) (len : Nat) :
    s.Quiet (execReadAccept initiator tag addr len s) := by
  unfold execReadAccept
  dsimp only
  repeat' split
  all_goals exact .next rfl

theorem execReadGrant_quiet (e : Fin 8) : s.Quiet (execReadGrant e s) := by
  unfold execReadGrant
  repeat' split
  all_goals exact .next rfl

theorem execOutputStatusRead_quiet (e : Fin 8) : s.Quiet (execOutputStatusRead e s) := by
  unfold execOutputStatusRead
  repeat' split
  all_goals exact .next rfl

theorem execAudioViewFetch_quiet (e : Fin 8) : s.Quiet (execAudioViewFetch e s) := by
  unfold execAudioViewFetch
  repeat' split
  all_goals exact .next rfl

theorem execNeighbourFetch_quiet (evaluation : Nat) : s.Quiet (execNeighbourFetch evaluation s) := by
  unfold execNeighbourFetch
  repeat' split
  all_goals exact .next rfl

theorem execReadLate_quiet (e : Fin 8) : s.Quiet (execReadLate e s) := by
  unfold execReadLate
  repeat' split
  all_goals exact .next rfl

theorem execRowFetch_quiet : s.Quiet (execRowFetch s) := by
  unfold execRowFetch
  repeat' split
  all_goals exact .next rfl

theorem execCeTakeDecodeItem_quiet (slot : Fin 128) : s.Quiet (execCeTakeDecodeItem slot s) := by
  unfold execCeTakeDecodeItem
  repeat' split
  all_goals exact .next rfl

theorem execCeTakeCodeItem_quiet (slot : Fin 128) : s.Quiet (execCeTakeCodeItem slot s) := by
  unfold execCeTakeCodeItem
  repeat' split
  all_goals exact .next rfl

theorem execDecodeBlockRead_quiet : s.Quiet (execDecodeBlockRead s) := by
  unfold execDecodeBlockRead
  repeat' split
  all_goals exact .next rfl

theorem execCodeFlagMapRead_quiet : s.Quiet (execCodeFlagMapRead s) := by
  unfold execCodeFlagMapRead
  repeat' split
  all_goals exact .next rfl

theorem execCodeBlockRead_quiet : s.Quiet (execCodeBlockRead s) := by
  unfold execCodeBlockRead
  repeat' split
  all_goals exact .next rfl

theorem execCaptureBlockRead_quiet : s.Quiet (execCaptureBlockRead s) := by
  unfold execCaptureBlockRead
  repeat' split
  all_goals exact .next rfl

theorem execSaveTake_quiet : s.Quiet (execSaveTake s) := by
  unfold execSaveTake
  repeat' split
  all_goals exact .next rfl

theorem execSaveBlockRead_quiet : s.Quiet (execSaveBlockRead s) := by
  unfold execSaveBlockRead
  repeat' split
  all_goals exact .next rfl

theorem execLoadBlockRead_quiet (slot : Fin 128) : s.Quiet (execLoadBlockRead slot s) := by
  unfold execLoadBlockRead
  repeat' split
  all_goals exact .next rfl

theorem execOpenedReceived_quiet (frame : List Byte) : s.Quiet (execOpenedReceived frame s) := by
  unfold execOpenedReceived
  repeat' split
  all_goals exact .next rfl

theorem execClearReceived_quiet (frame : List Byte) : s.Quiet (execClearReceived frame s) := by
  unfold execClearReceived
  repeat' split
  all_goals exact .next rfl

theorem execPlayRowReceived_quiet (frame : List Byte) : s.Quiet (execPlayRowReceived frame s) := by
  unfold execPlayRowReceived
  repeat' split
  all_goals exact .next rfl

theorem execGrantReceived_quiet (frame : List Byte) : s.Quiet (execGrantReceived frame s) := by
  unfold execGrantReceived
  repeat' split
  all_goals exact .next rfl

theorem execMissingReceived_quiet (frame : List Byte) : s.Quiet (execMissingReceived frame s) := by
  unfold execMissingReceived
  repeat' split
  all_goals exact .next rfl

theorem execDueReceived_quiet (frame : List Byte) : s.Quiet (execDueReceived frame s) := by
  unfold execDueReceived
  repeat' split
  all_goals exact .next rfl

theorem execBadCrcFrame_quiet (frame : List Byte) : s.Quiet (execBadCrcFrame frame s) := by
  unfold execBadCrcFrame
  repeat' split
  all_goals exact .next rfl

theorem execDroppedFrame_quiet (frame : List Byte) : s.Quiet (execDroppedFrame frame s) := by
  unfold execDroppedFrame
  repeat' split
  all_goals exact .next rfl

theorem execFrameLeaves_quiet (second : Bool) : s.Quiet (execFrameLeaves second s) := by
  unfold execFrameLeaves
  repeat' split
  all_goals exact .next rfl

theorem execOpenRetryExpiry_quiet : s.Quiet (execOpenRetryExpiry s) := by
  unfold execOpenRetryExpiry
  repeat' split
  all_goals exact .next rfl

theorem execAckTimerExpiry_quiet : s.Quiet (execAckTimerExpiry s) := by
  unfold execAckTimerExpiry
  repeat' split
  all_goals exact .next rfl

theorem execCreditTimerExpiry_quiet : s.Quiet (execCreditTimerExpiry s) := by
  unfold execCreditTimerExpiry
  repeat' split
  all_goals exact .next rfl

theorem execDrainTimerExpiry_quiet : s.Quiet (execDrainTimerExpiry s) := by
  unfold execDrainTimerExpiry
  repeat' split
  all_goals exact .next rfl

/-- Every command but the grants of writes leaves DRAM alone. -/
theorem exec_quiet (c : Instr) (silent : c.silent = true) : s.Quiet (exec c s) := by
  cases c with
  | pinReset => exact execPinReset_quiet s
  | writeAccept initiator addr data => exact execWriteAccept_quiet s initiator addr data
  | readAccept initiator tag addr len => exact execReadAccept_quiet s initiator tag addr len
  | readGrant entry => exact execReadGrant_quiet s entry
  | outputStatusRead entry => exact execOutputStatusRead_quiet s entry
  | audioViewFetch entry => exact execAudioViewFetch_quiet s entry
  | neighbourFetch evaluation => exact execNeighbourFetch_quiet s evaluation
  | readLate entry => exact execReadLate_quiet s entry
  | rowFetch => exact execRowFetch_quiet s
  | ceTakeDecodeItem slot => exact execCeTakeDecodeItem_quiet s slot
  | ceTakeCodeItem slot => exact execCeTakeCodeItem_quiet s slot
  | decodeBlockRead => exact execDecodeBlockRead_quiet s
  | codeFlagMapRead => exact execCodeFlagMapRead_quiet s
  | codeBlockRead => exact execCodeBlockRead_quiet s
  | captureBlockRead => exact execCaptureBlockRead_quiet s
  | saveTake => exact execSaveTake_quiet s
  | saveBlockRead => exact execSaveBlockRead_quiet s
  | loadBlockRead slot => exact execLoadBlockRead_quiet s slot
  | openedReceived frame => exact execOpenedReceived_quiet s frame
  | clearReceived frame => exact execClearReceived_quiet s frame
  | playRowReceived frame => exact execPlayRowReceived_quiet s frame
  | grantReceived frame => exact execGrantReceived_quiet s frame
  | missingReceived frame => exact execMissingReceived_quiet s frame
  | dueReceived frame => exact execDueReceived_quiet s frame
  | badCrcFrame frame => exact execBadCrcFrame_quiet s frame
  | droppedFrame frame => exact execDroppedFrame_quiet s frame
  | frameLeaves second => exact execFrameLeaves_quiet s second
  | openRetryExpiry => exact execOpenRetryExpiry_quiet s
  | ackTimerExpiry => exact execAckTimerExpiry_quiet s
  | creditTimerExpiry => exact execCreditTimerExpiry_quiet s
  | drainTimerExpiry => exact execDrainTimerExpiry_quiet s
  | _ => cases silent

end

/-- Settles O4: a silent command changes the part alone. -/
theorem silentCommandsKeepMemory : Obligations.SilentCommandsKeepMemory := by
  unfold Obligations.SilentCommandsKeepMemory
  exact fun c s t silent answer => exec_quiet s c silent t answer

end Sys2Proof.Machine


/-! PROOFS. What CPM's reports leave alone (R35, R37), and the commands that decide acceptance: PIN_RESET (O12),
WRITE_ACCEPT (O13) and READ_ACCEPT (O14). -/

namespace Sys2Proof.Machine

/-! ## CPM but for its reports -/

theorem Cpm.SameButReports.refl (a : Cpm) : Cpm.SameButReports a a := rfl

theorem Cpm.SameButReports.trans {a b c : Cpm} (h : Cpm.SameButReports a b) (k : Cpm.SameButReports b c) :
    Cpm.SameButReports a c := by
  unfold Cpm.SameButReports at h k ⊢
  rw [k]
  conv_lhs => rw [h]

/-- Reports after an advance of counters. -/
theorem Cpm.SameButReports.sameButCounters {a b c : Cpm} (h : Cpm.SameButReports b c)
    (counted : b = { a with counters := b.counters }) : Cpm.SameButCounters a c := by
  unfold Cpm.SameButCounters
  have counters : c.counters = b.counters := by rw [h]
  rw [counters, ← counted]
  exact h

/-- b is a but for status words and notices on their way to DRAM (R35, R37). -/
structure Chip.Reports (a b : Chip) : Prop where
  event : b.event = a.event
  lbp : b.lbp = a.lbp
  slots : b.slots = a.slots
  ce : b.ce = a.ce
  cu : b.cu = a.cu
  dlc : b.dlc = a.dlc
  rc : b.rc = a.rc
  ecu : b.ecu = a.ecu
  cpm : Cpm.SameButReports a.cpm b.cpm
  nextWrite : a.cpm.nextWrite ≤ b.cpm.nextWrite
  offers : ∀ r, a.Offers r → b.Offers r

namespace Chip.Reports

variable {a b p : Chip}

theorem refl (p : Chip) : p.Reports p := ⟨rfl, rfl, rfl, rfl, rfl, rfl, rfl, rfl, .refl _, Nat.le_refl _, fun _ => id⟩

theorem trans (h : a.Reports p) (k : p.Reports b) : a.Reports b where
  event := k.event.trans h.event
  lbp := k.lbp.trans h.lbp
  slots := k.slots.trans h.slots
  ce := k.ce.trans h.ce
  cu := k.cu.trans h.cu
  dlc := k.dlc.trans h.dlc
  rc := k.rc.trans h.rc
  ecu := k.ecu.trans h.ecu
  cpm := h.cpm.trans k.cpm
  nextWrite := h.nextWrite.trans k.nextWrite
  offers := fun r x => k.offers r (h.offers r x)

theorem sameTape (h : a.Reports b) : Chip.SameTape a b := ⟨h.slots, h.ce, h.cu, h.rc, h.ecu⟩

theorem counter (h : a.Reports b) (c : Counter) : b.counter c = a.counter c := by
  unfold Chip.counter
  rw [h.cpm]

theorem partState (h : a.Reports b) : b.cpm.partState = a.cpm.partState := by rw [h.cpm]

theorem readIndex (h : a.Reports b) : b.cpm.readIndex = a.cpm.readIndex := by rw [h.cpm]

theorem map (h : a.Reports b) : b.cpm.map = a.cpm.map := by rw [h.cpm]

theorem slot (h : a.Reports b) (i : Fin 128) : b.slot i = a.slot i := by
  unfold Chip.slot
  rw [h.slots]

theorem read (h : a.Reports b) (e : Fin 8) : b.read e = a.read e := by
  unfold Chip.read
  rw [h.lbp]

/-- A notice raised stays on its way. -/
theorem raises (h : p.Reports b) {n : Notice} (raised : a.Raises p n) : a.Raises b n := by
  obtain ⟨id, index, new, offered⟩ := raised
  exact ⟨id, index, new, h.offers _ offered⟩

end Chip.Reports

theorem Chip.offer_reports (r : Req) (p : Chip) : p.Reports (p.offer r) :=
  ⟨rfl, rfl, rfl, rfl, rfl, rfl, rfl, rfl, .refl _, Nat.le_refl _, fun _ => Chip.offers_mono r⟩

/-- An update of what CPM reports. -/
theorem Chip.Reports.cpmUpdate {a p : Chip} (h : a.Reports p) {c : Cpm} (same : Cpm.SameButReports p.cpm c)
    (later : p.cpm.nextWrite ≤ c.nextWrite) : a.Reports { p with cpm := c } :=
  h.trans ⟨rfl, rfl, rfl, rfl, rfl, rfl, rfl, rfl, same, later, fun _ => id⟩

theorem Chip.raise_reports (n : Notice) (p : Chip) : p.Reports (p.raise n) := by
  unfold Chip.raise
  split
  · exact .refl p
  · split
    · exact (Chip.Reports.refl p).cpmUpdate rfl (Nat.le_refl _)
    · exact (Chip.offer_reports _ p).cpmUpdate rfl (Nat.le_succ _)

theorem Chip.markDirty_reports (ws : List Nat) (p : Chip) : p.Reports (p.markDirty ws) := by
  unfold Chip.markDirty
  dsimp only
  split
  · exact .refl p
  · split
    · exact (Chip.Reports.refl p).cpmUpdate rfl (Nat.le_refl _)
    · exact (Chip.offer_reports _ p).cpmUpdate rfl (Nat.le_succ _)

theorem Chip.noteStatus_reports (p : Chip) : p.Reports p.noteStatus := by
  unfold Chip.noteStatus
  split
  · exact .refl p
  · dsimp only
    refine Chip.Reports.trans ?_ (Chip.markDirty_reports _ _)
    exact (Chip.Reports.refl p).cpmUpdate rfl (Nat.le_refl _)

/-- While UNCONFIGURED CPM writes nothing (R22). -/
theorem Chip.raise_unconfigured (n : Notice) {p : Chip} (h : p.cpm.partState = .unconfigured) : p.raise n = p := by
  unfold Chip.raise
  rw [h]

theorem Chip.noteStatus_unconfigured {p : Chip} (h : p.cpm.partState = .unconfigured) : p.noteStatus = p := by
  unfold Chip.noteStatus
  rw [h]

/-! ## PIN_RESET -/

/-- Settles O12: every field of the reset columns, read off the reset values. -/
theorem pinResetState : Obligations.PinResetState := by
  unfold Obligations.PinResetState
  intro s
  have reads : ∀ e, Chip.reset.read e = none := fun e => by simp [Chip.read, Chip.reset, Lbp.reset]
  have classes : ∀ c : Fin 7, Chip.reset.mp.queues[c] = [] ∧ Chip.reset.mp.passOver[c] = 0 := fun c => by
    simp [Chip.reset, Mp.reset]
  have cells : ∀ k : Fin 40, Chip.reset.cpm.cells[k] = 0 := fun k => by simp [Chip.reset, Cpm.reset]
  have slots : ∀ i, Chip.reset.slot i = Slot.releasedWith 0 none 0 := fun i => by simp [Chip.slot, Chip.reset]
  have clips : ∀ k : Fin 4, Chip.reset.ecu.clips[k] = ⟨.empty, 0, none, false, false⟩ := fun k => by
    simp [Chip.reset, Ecu.reset, Clip.reset]
  have images : ∀ u : Fin 256, (Chip.reset.ecu.images[u]).used = false := fun u => by
    simp [Chip.reset, Ecu.reset, ImageRecord.reset]
  refine ⟨_, rfl, rfl, rfl, rfl, reads, rfl, rfl, classes, rfl, rfl, cells, rfl, rfl, rfl, rfl, rfl, rfl, rfl, rfl, rfl,
    rfl, rfl, rfl, rfl, fun i => ?_, rfl, rfl, rfl, rfl, rfl, rfl, rfl, rfl, rfl, rfl, rfl, rfl, rfl, rfl, rfl, rfl,
    rfl, rfl, rfl, rfl, clips, rfl, rfl, rfl, rfl, rfl, rfl, rfl, rfl, rfl, images⟩
  calc Chip.reset.slot i = Slot.releasedWith 0 none 0 := slots i
    _ = { Slot.releasedWith 0 none 0 with nextPosition := (Chip.reset.slot i).nextPosition } := by rw [slots i]

/-! ## Acceptance -/

theorem Chip.rejectWrite_reports (initiator : Fin 8) (addr : Nat) (p : Chip) :
    p.Reports (p.rejectWrite initiator addr) :=
  (Chip.raise_reports _ p).trans (Chip.noteStatus_reports _)

/-- Settles O13: the three branches of the acceptance, a notice by what CPM's reports leave alone. -/
theorem writeAcceptDecides : Obligations.WriteAcceptDecides := by
  unfold Obligations.WriteAcceptDecides
  intro s i a d
  refine ⟨fun illegal => ?_, fun legal secret => ?_, fun legal other room => ?_⟩
  · have answer : exec (.writeAccept i a d) s = .next (s.onChip fun p => p.begin.rejectWrite i a.toNat) := by
      simp [exec, execWriteAccept, illegal]
    have reports := Chip.rejectWrite_reports i a.toNat s.toChip.begin
    refine ⟨_, answer, rfl, reports.lbp, reports.sameTape, reports.dlc, reports.cpm, fun isReady ring => ?_,
      fun un => ?_⟩
    · exact (Chip.noteStatus_reports _).raises (Chip.raise_raises (.busFault a.toNat i.val) s.toChip.begin isReady ring)
    · have kept : s.toChip.begin.rejectWrite i a.toNat = s.toChip.begin := by
        unfold Chip.rejectWrite
        rw [Chip.raise_unconfigured _ (by exact un), Chip.noteStatus_unconfigured (by exact un)]
      exact ⟨(congrArg Chip.cpm kept :), (congrArg Chip.mp kept :)⟩
  · have answer : exec (.writeAccept i a d) s = .next (s.onChip fun p => p.begin.protectWrite i a.toNat) := by
      simp [exec, execWriteAccept, legal, secret]
    have isReady : s.cpm.partState = .ready := by
      unfold Chip.rangeOf at secret
      split at secret
      · cases secret
      · assumption
    have reports : (s.toChip.begin.bump .protect 1).Reports (s.toChip.begin.protectWrite i a.toNat) :=
      (Chip.raise_reports _ _).trans (Chip.noteStatus_reports _)
    refine ⟨_, answer, rfl, reports.lbp, reports.sameTape, reports.dlc, ?_, ?_, fun k other => ?_, fun ring => ?_⟩
    · exact reports.cpm.sameButCounters rfl
    · exact (reports.counter _).trans (Chip.counter_bump_same _ _ _)
    · exact (reports.counter _).trans (Chip.counter_bump_other _ _ other)
    · exact (Chip.noteStatus_reports _).raises
        (Chip.raise_raises (.protect a.toNat i.val) (s.toChip.begin.bump .protect 1) isReady ring)
  · have answer : exec (.writeAccept i a d) s =
        .next (s.onChip fun p => p.begin.post i a.toNat d (s.toChip.rangeOf a.toNat)) := by
      have free : s.lbp.posted.length < Config.postedEntries := room
      unfold exec execWriteAccept
      dsimp only
      rw [if_neg (by simp [legal])]
      split
      · rename_i secret
        exact absurd secret other
      · exact if_pos free
    refine ⟨_, ⟨s.lbp.nextWrite, i, a.toNat, d, s.toChip.rangeOf a.toNat⟩, answer, rfl, ?_⟩
    dsimp only [State.onChip, Chip.post]
    split
    · rename_i head
      refine ⟨rfl, rfl, rfl, rfl, rfl, fun _ => Chip.offers_offer _ _, fun waits => ?_, rfl, rfl, rfl,
        ⟨rfl, rfl, rfl, rfl, rfl⟩, rfl⟩
      exact absurd (List.isEmpty_iff.mp head) waits
    · rename_i head
      refine ⟨rfl, rfl, rfl, rfl, rfl, fun empty => ?_, fun _ => rfl, rfl, rfl, rfl, ⟨rfl, rfl, rfl, rfl, rfl⟩, rfl⟩
      exact absurd (List.isEmpty_iff.mpr empty) head

theorem mem_allEntries (e : Fin 8) : e ∈ allEntries := by
  revert e
  decide

/-- A tracker with a free entry has one to take. -/
theorem exists_free_entry {p : Chip} (free : ∃ x, p.read x = none) :
    ∃ e, allEntries.find? (fun e => (p.read e).isNone) = some e ∧ p.read e = none := by
  obtain ⟨x, hx⟩ := free
  have some : (allEntries.find? fun e => (p.read e).isNone).isSome = true :=
    List.find?_isSome.mpr ⟨x, mem_allEntries x, by simp [hx]⟩
  obtain ⟨e, he⟩ := Option.isSome_iff_exists.mp some
  exact ⟨e, he, by simpa using List.find?_some he⟩

/-- The record a legal read starts with, before it is offered (R12, R14). -/
def Chip.newRead (p : Chip) (initiator : Fin 8) (tag addr len : Nat) : Read where
  initiator := initiator
  tag := tag
  addr := addr
  len := len
  range := p.rangeOf addr
  state := .waiting
  waits := p.waitsOf (p.rangeOf addr) addr len
  values := List.replicate len none
  holdTimer := none
  late := false
  lateCounted := false
  material := .none

/-- A read that must follow a write waits. -/
theorem Chip.track_waiting (e : Fin 8) (initiator : Fin 8) (tag addr len : Nat) {p : Chip}
    (waits : p.waitsOf (p.rangeOf addr) addr len ≠ []) :
    p.track e initiator tag addr len = p.setRead e (some (p.newRead initiator tag addr len)) :=
  if_neg (by simpa using waits)

/-- A read that follows none is offered at once. -/
theorem Chip.track_offered (e : Fin 8) (initiator : Fin 8) (tag addr len : Nat) {p : Chip}
    (free : p.waitsOf (p.rangeOf addr) addr len = []) :
    p.track e initiator tag addr len = (p.setRead e (some (p.newRead initiator tag addr len))).offerRead e :=
  if_pos (by simpa using free)

theorem Chip.offers_offerRead (e : Fin 8) (p : Chip) : (p.offerRead e).Offers (.read e) := Chip.offers_offer _ _

theorem Chip.read_offerRead_same (e : Fin 8) (p : Chip) :
    (p.offerRead e).read e = (p.read e).map fun r => { r with state := .offered } :=
  Chip.read_setRead_same e _ p

theorem Chip.read_offerRead_other {e x : Fin 8} (p : Chip) (h : x ≠ e) : (p.offerRead e).read x = p.read x :=
  Chip.read_setRead_other _ p h

/-- Settles O14: a fault, or an entry WAITING or offered as R14 has it. -/
theorem readAcceptDecides : Obligations.ReadAcceptDecides := by
  unfold Obligations.ReadAcceptDecides
  intro s i g a n
  refine ⟨fun illegal => ?_, fun legal free => ?_⟩
  · have answer : exec (.readAccept i g a n) s = .next (s.onChip fun p => p.begin.respond (.fault i g)) := by
      simp [exec, execReadAccept, illegal]
    exact ⟨_, answer, rfl, rfl, rfl, rfl, ⟨rfl, rfl, rfl, rfl, rfl⟩, rfl⟩
  · obtain ⟨e, found, empty⟩ := exists_free_entry free
    have answer : exec (.readAccept i g a n) s = .next (s.onChip fun p => p.begin.track e i g a.toNat n) := by
      simp [exec, execReadAccept, legal, found]
    let new : Read := s.toChip.begin.newRead i g a.toNat n
    by_cases waits : s.toChip.waitsOf (s.toChip.rangeOf a.toNat) a.toNat n = []
    · rw [show s.onChip _ = s.onChip fun p => (p.begin.setRead e (some new)).offerRead e from
        congrArg (fun p => { s with toChip := p }) 
          (Chip.track_offered e i g a.toNat n (p := s.toChip.begin) waits)] at answer
      refine ⟨_, e, { new with state := .offered }, answer, rfl, empty, ?_, rfl, rfl, rfl, rfl, rfl, rfl, rfl,
        .inl ⟨rfl, waits, Chip.offers_offerRead e _⟩, fun x other => ?_, rfl, rfl, rfl, ⟨rfl, rfl, rfl, rfl, rfl⟩, rfl⟩
      · exact (Chip.read_offerRead_same e _).trans (by rw [Chip.read_setRead_same]; rfl)
      · exact (Chip.read_offerRead_other _ other).trans (Chip.read_setRead_other _ _ other)
    · rw [show s.onChip _ = s.onChip fun p => p.begin.setRead e (some new) from
        congrArg (fun p => { s with toChip := p }) 
          (Chip.track_waiting e i g a.toNat n (p := s.toChip.begin) waits)] at answer
      exact ⟨_, e, new, answer, rfl, empty, Chip.read_setRead_same e _ _, rfl, rfl, rfl, rfl, rfl, rfl, rfl,
        .inr ⟨rfl, rfl, waits, rfl⟩, fun x other => Chip.read_setRead_other _ _ other, rfl, rfl, rfl,
        ⟨rfl, rfl, rfl, rfl, rfl⟩, rfl⟩

end Sys2Proof.Machine


/-! PROOFS. The grants of the posted-write head store their burst (O15); reads of words outside the audio view
(O33). -/

namespace Sys2Proof.Machine

/-! ## Grants of the posted-write head -/

/-- Settles O15: each of the 18 commands is a grant whose effect leaves the queue alone, and the entry leaves it
last. -/
theorem headGrantStoresBurst : Obligations.HeadGrantStoresBurst := by
  unfold Obligations.HeadGrantStoresBurst
  intro c act s w row heads wf
  obtain ⟨effect, answer, acts⟩ := exec_headRow s row
  have acted := acts (s.toChip.beginGrant .postedWrite) w _ ((Chip.Acts.refl _).cascade
    (Chip.placeShadow_cascade w (.refl _)))
  refine ⟨_, answer.trans (State.grantHead_eq effect heads), stored_placeWords _ _ _ wf, ?_⟩
  simp only [(Chip.noteStatus_cascade (.refl _)).posted, Chip.leaveQueue_posted, acted.posted, Chip.beginGrant_lbp]

/-! ## The end of a read (R10, R12) -/

/-- What the completion of a read leaves in the output segment record (R10). -/
def Chip.noted (p : Chip) (r : Read) (material : OutRecord) : OutRecord :=
  match r.range with
  | .audioView _ => if r.initiator.val = p.cpm.map.digitalOut then material else p.lbp.outRecord
  | _ => p.lbp.outRecord

theorem Chip.noteOutput_eq (r : Read) (material : OutRecord) (p : Chip) :
    p.noteOutput r material = { p with lbp := { p.lbp with outRecord := p.noted r material } } := by
  unfold Chip.noteOutput Chip.noted
  cases r.range with
  | audioView place => dsimp only; split <;> rfl
  | _ => rfl

/-- A read that completes is answered, and its entry is free. -/
theorem Chip.completeRead_eq {e : Fin 8} {p : Chip} {r : Read} (h : p.read e = some r) (words : List Word)
    (material : OutRecord) :
    p.completeRead e words material = ({ p with
      lbp := { p.lbp with
        responses := p.lbp.responses ++ [.data r.initiator r.tag words]
        outRecord := p.noted r material } } : Chip).setRead e none := by
  unfold Chip.completeRead
  rw [h]
  exact congrArg (Chip.setRead e none) (Chip.noteOutput_eq r material _)

theorem Chip.noted_audioView {p : Chip} {r : Read} {place : ViewPlace} (h : r.range = .audioView place)
    (material : OutRecord) :
    p.noted r material = if r.initiator.val = p.cpm.map.digitalOut then material else p.lbp.outRecord := by
  unfold Chip.noted
  rw [h]

theorem Chip.noted_other {p : Chip} {r : Read} (h : ∀ place, r.range ≠ .audioView place) (material : OutRecord) :
    p.noted r material = p.lbp.outRecord := by
  unfold Chip.noted
  split
  · rename_i place view
    exact absurd view (h place)
  · rfl

/-! ## READ_GRANT and OUTPUT_STATUS_READ -/

theorem Chip.substitutes_iff {p : Chip} {r : Read} : p.substitutes r = true ↔
    r.range = .controlPage ∧ r.initiator.val = p.cpm.map.digitalOut ∧ r.addr ≤ outputStatusCell ∧
      outputStatusCell < r.addr + 4 * r.len := by
  simp only [Chip.substitutes, Bool.and_eq_true, beq_iff_eq, decide_eq_true_eq, and_assoc]

theorem readWords_wordAddrs (m : Memory) (start n : Nat) :
    Memory.readWords m (wordAddrs start n) = (List.range n).map fun k => Memory.readWord m (start + 4 * k) := by
  simp [Memory.readWords, wordAddrs, Function.comp_def]

/-- The output status word with its grade replaced, any other word as memory holds it (R182). -/
theorem Chip.substituted_eq (p : Chip) (r : Read) (f : Nat → Word) (n : Nat) :
    p.substituted r ((List.range n).map f) = (List.range n).map fun k =>
      if r.addr + 4 * k = outputStatusCell then substituteGrade (f k) p.lbp.outRecord.outputGrade else f k := by
  refine List.ext_getElem (by simp [Chip.substituted, placeWords]) fun k _ _ => ?_
  simp [Chip.substituted, placeWords]

/-- The grade code a record gives (R182). -/
theorem OutRecord.outputGrade_code (o : OutRecord) : BitVec.ofNat 32 o.outputGrade.code = (match o with
    | .grade .free => 0
    | .grade .one => 1
    | .grade .none => 2
    | .unrecovered => 2
    | .none => 2 : Word) := by
  cases o with
  | grade g => cases g <;> rfl
  | _ => rfl

theorem execReadGrant_eq {s : State} {e : Fin 8} {r : Read} (next : s.ReadNext e r)
    (notView : ∀ place, r.range ≠ .audioView place) (plain : s.toChip.substitutes r = false) :
    execReadGrant e s = .next (s.onChip fun p =>
      (p.beginGrant (.read e)).completeRead e (Memory.readWords s.mem (wordAddrs r.addr r.len)) .none) := by
  obtain ⟨tracked, offered, grant⟩ := next
  unfold execReadGrant
  rw [tracked]
  dsimp only
  split
  · rename_i place view
    exact absurd view (notView place)
  · exact if_pos ⟨by simp [Chip.readGrantable, offered, grant], plain⟩

theorem execOutputStatusRead_eq {s : State} {e : Fin 8} {r : Read} (next : s.ReadNext e r)
    (status : s.toChip.substitutes r = true) :
    execOutputStatusRead e s = .next (s.onChip fun p => (p.beginGrant (.read e)).completeRead e
      (s.toChip.substituted r (Memory.readWords s.mem (wordAddrs r.addr r.len))) .none) := by
  obtain ⟨tracked, offered, grant⟩ := next
  unfold execOutputStatusRead
  rw [tracked]
  exact if_pos ⟨by simp [Chip.readGrantable, offered, grant], status⟩

/-- A granted read that is no audio-view read completes, and nothing else changes. -/
theorem grantedRead_completes {s : State} {e : Fin 8} {r : Read} (tracked : s.toChip.read e = some r)
    (notView : ∀ place, r.range ≠ .audioView place) (ws : List Word) :
    let p := (s.toChip.beginGrant (.read e)).completeRead e ws .none
    (p.read e = none ∧ Chip.SameReadsBut e s.toChip p ∧ p.lbp.posted = s.lbp.posted ∧
      p.lbp.outRecord = s.lbp.outRecord ∧ p.cpm = s.cpm ∧ Chip.SameTape s.toChip p ∧ p.dlc = s.dlc) ∧
      p.lbp.responses = s.lbp.responses ++ [.data r.initiator r.tag ws] := by
  intro p
  have ends : p = _ := Chip.completeRead_eq (p := s.toChip.beginGrant (.read e)) tracked ws .none
  rw [ends]
  exact ⟨⟨Chip.read_setRead_same _ _ _, fun x other => Chip.read_setRead_other _ _ other, rfl,
    Chip.noted_other notView .none, rfl, ⟨rfl, rfl, rfl, rfl, rfl⟩, rfl⟩, rfl⟩

/-- Settles O33: both commands complete the read with the words of its addresses. -/
theorem readsReturnWords : Obligations.ReadsReturnWords := by
  unfold Obligations.ReadsReturnWords
  intro s e r next status rest
  refine ⟨fun plain notView => ?_, fun sub => ?_⟩
  · have unsubstituted : s.toChip.substitutes r = false := by
      rw [Bool.eq_false_iff, Ne, Chip.substitutes_iff]
      exact plain
    obtain ⟨same, answered⟩ := grantedRead_completes next.1 notView
      (Memory.readWords s.mem (wordAddrs r.addr r.len))
    exact ⟨_, execReadGrant_eq next notView unsubstituted, same, by rw [← readWords_wordAddrs]; exact answered⟩
  · have notView : ∀ place, r.range ≠ .audioView place := fun place view => by
      cases view.symm.trans sub.1
    obtain ⟨same, answered⟩ := grantedRead_completes next.1 notView
      (s.toChip.substituted r (Memory.readWords s.mem (wordAddrs r.addr r.len)))
    refine ⟨_, execOutputStatusRead_eq next (Chip.substitutes_iff.mpr sub), same, answered.trans ?_⟩
    rw [readWords_wordAddrs, Chip.substituted_eq]
    congr 3
    refine List.map_congr_left fun k _ => ?_
    by_cases cell : r.addr + 4 * k = outputStatusCell
    · rw [if_pos cell, if_pos (show _ = 0x100 from cell), cell, substituteGrade, OutRecord.outputGrade_code]
      rfl
    · rw [if_neg cell, if_neg (show ¬_ = 0x100 from cell)]

end Sys2Proof.Machine


/-! PROOFS. What a command on one read leaves alone: the other tracker entries, the posted-write queue, slots, coding,
run, clips and link; and the tracker's own operations (R9, R12, R13). -/

namespace Sys2Proof.Machine

/-- Everything a command on the read of an entry leaves alone. -/
structure Chip.AroundRead (e : Fin 8) (a b : Chip) : Prop where
  reads : Chip.SameReadsBut e a b
  posted : b.lbp.posted = a.lbp.posted
  slots : b.slots = a.slots
  ce : b.ce = a.ce
  rc : b.rc = a.rc
  ecu : b.ecu = a.ecu
  dlc : b.dlc = a.dlc

namespace Chip.AroundRead

variable {e : Fin 8} {a b p : Chip}

theorem refl (e : Fin 8) (p : Chip) : p.AroundRead e p := ⟨fun _ _ => rfl, rfl, rfl, rfl, rfl, rfl, rfl⟩

theorem trans (h : a.AroundRead e p) (k : p.AroundRead e b) : a.AroundRead e b where
  reads := fun x other => (k.reads x other).trans (h.reads x other)
  posted := k.posted.trans h.posted
  slots := k.slots.trans h.slots
  ce := k.ce.trans h.ce
  rc := k.rc.trans h.rc
  ecu := k.ecu.trans h.ecu
  dlc := k.dlc.trans h.dlc

theorem sameTape (h : a.AroundRead e b) (cu : b.cu = a.cu) : Chip.SameTape a b := ⟨h.slots, h.ce, cu, h.rc, h.ecu⟩

theorem reports (h : p.Reports b) : p.AroundRead e b :=
  ⟨fun x _ => h.read x, congrArg Lbp.posted h.lbp, h.slots, h.ce, h.rc, h.ecu, h.dlc⟩

theorem begun : p.AroundRead e p.begin := ⟨fun _ _ => rfl, rfl, rfl, rfl, rfl, rfl, rfl⟩

theorem granted (r : Req) : p.AroundRead e (p.beginGrant r) := ⟨fun _ _ => rfl, rfl, rfl, rfl, rfl, rfl, rfl⟩

theorem setRead (r : Option Read) : p.AroundRead e (p.setRead e r) :=
  ⟨fun _ other => Chip.read_setRead_other r p other, rfl, rfl, rfl, rfl, rfl, rfl⟩

theorem bump (c : Counter) (n : Nat) : p.AroundRead e (p.bump c n) := ⟨fun _ _ => rfl, rfl, rfl, rfl, rfl, rfl, rfl⟩

theorem completeRead {r : Read} (tracked : p.read e = some r) (words : List Word) (material : OutRecord) :
    p.AroundRead e (p.completeRead e words material) := by
  rw [Chip.completeRead_eq tracked]
  exact ⟨fun _ other => Chip.read_setRead_other none _ other, rfl, rfl, rfl, rfl, rfl, rfl⟩

end Chip.AroundRead

/-! ## The tracker's operations -/

section

variable {p : Chip} {e : Fin 8} {r : Read}

theorem Chip.setRead_setRead (x y : Option Read) : (p.setRead e x).setRead e y = p.setRead e y := by
  simp [Chip.setRead]

theorem Chip.setRead_self (tracked : p.read e = some r) : p.setRead e (some r) = p := by
  have same : p.lbp.reads.set e (some r) = p.lbp.reads := by
    rw [← tracked]
    exact Vector.set_getElem_self _
  unfold Chip.setRead
  rw [same]

theorem Chip.read_bump (c : Counter) (n : Nat) (x : Fin 8) : (p.bump c n).read x = p.read x := rfl

theorem Chip.modRead_eq (tracked : p.read e = some r) (f : Read → Read) : p.modRead e f = p.setRead e (some (f r)) := by
  unfold Chip.modRead
  rw [tracked]
  rfl

theorem Chip.completeZeros_eq (tracked : p.read e = some r) :
    p.completeZeros e = p.completeRead e (List.replicate r.len 0) .none := by
  unfold Chip.completeZeros
  rw [tracked]

/-- The first hold starts the timer and is counted. -/
theorem Chip.holdRead_first (tracked : p.read e = some r) (st : ReadState) (first : r.holdTimer = none) :
    p.holdRead e st = (p.setRead e (some { r with state := st, holdTimer := some p.cpm.signal.holdLimit })).bump
      .heldReads 1 := by
  unfold Chip.holdRead
  rw [tracked]
  dsimp only
  rw [first]

theorem Chip.holdRead_again (tracked : p.read e = some r) (st : ReadState) {n : Nat} (again : r.holdTimer = some n) :
    p.holdRead e st = p.setRead e (some { r with state := st }) := by
  unfold Chip.holdRead
  rw [tracked]
  dsimp only
  rw [again]

theorem Chip.countLate_first (tracked : p.read e = some r) (first : r.lateCounted = false) :
    p.countLate e = (p.setRead e (some { r with lateCounted := true })).bump .readLate 1 := by
  unfold Chip.countLate
  rw [tracked]
  exact if_neg (by simp [first])

theorem Chip.countLate_again (tracked : p.read e = some r) (again : r.lateCounted = true) : p.countLate e = p := by
  unfold Chip.countLate
  rw [tracked]
  exact if_pos again

/-- A read with every value present completes. -/
theorem Chip.readProceed_whole (tracked : p.read e = some r)
    (waits : r.state = .concealing ∨ r.state = .heldOnNeighbour) (whole : r.values.all Option.isSome = true) :
    p.readProceed e = p.completeRead e (r.values.map fun v => v.getD 0) r.material := by
  unfold Chip.readProceed
  rw [tracked]
  exact if_pos ⟨waits, whole⟩

theorem Chip.readProceed_open (tracked : p.read e = some r) (isOpen : none ∈ r.values) : p.readProceed e = p := by
  unfold Chip.readProceed
  rw [tracked]
  refine if_neg fun whole => ?_
  exact absurd (List.all_eq_true.mp whole.2 none isOpen) (by simp)

theorem Chip.Counted.reports {a b : Chip} {c : Counter} {n : Nat} (h : a.Counted p c n) (k : p.Reports b) :
    a.Counted b c n :=
  ⟨(k.counter c).trans h.1, fun x other => (k.counter x).trans (h.2 x other)⟩

theorem Chip.counter_of_cpm {b : Chip} (h : b.cpm = p.cpm) (c : Counter) : b.counter c = p.counter c :=
  congrArg (fun m : Cpm => m.counters[c.index]) h

theorem Chip.Counted.of_cpm {a b : Chip} {c : Counter} {n : Nat} (h : a.Counted p c n) (k : b.cpm = p.cpm) :
    a.Counted b c n :=
  ⟨(Chip.counter_of_cpm k c).trans h.1, fun x other => (Chip.counter_of_cpm k x).trans (h.2 x other)⟩

theorem Chip.Counted.bump (c : Counter) (n : Nat) (p : Chip) : p.Counted (p.bump c n) c n :=
  ⟨Chip.counter_bump_same c n p, fun _ other => Chip.counter_bump_other n p other⟩

/-- A read that enters HELD has its timer running, and is counted the first time (R13). -/
theorem Chip.holdRead_holds (tracked : p.read e = some r) (st : ReadState) :
    p.AroundRead e (p.holdRead e st) ∧ (p.holdRead e st).cu = p.cu ∧
      (p.holdRead e st).read e = some { r with
        state := st, holdTimer := some (r.holdTimer.getD p.cpm.signal.holdLimit) } ∧
      (p.holdRead e st).lbp.outRecord = p.lbp.outRecord ∧ (p.holdRead e st).lbp.responses = p.lbp.responses ∧
      (r.holdTimer = none → p.Counted (p.holdRead e st) .heldReads 1) ∧
      (r.holdTimer ≠ none → ∀ c, (p.holdRead e st).counter c = p.counter c) := by
  cases timer : r.holdTimer with
  | none =>
    rw [Chip.holdRead_first tracked st timer]
    exact ⟨(Chip.AroundRead.setRead _).trans (.bump _ _), rfl, Chip.read_setRead_same e _ p, rfl, rfl,
      fun _ => Chip.Counted.bump _ _ (p.setRead e _), fun again => absurd rfl again⟩
  | some n =>
    rw [Chip.holdRead_again tracked st timer]
    refine ⟨.setRead _, rfl, ?_, rfl, rfl, nofun, fun _ _ => rfl⟩
    rw [Chip.read_setRead_same, Option.getD_some, ← timer]

/-- The lateness of a read is counted once (R13). -/
theorem Chip.countLate_counts (tracked : p.read e = some r) :
    p.AroundRead e (p.countLate e) ∧ (p.countLate e).cu = p.cu ∧
      (p.countLate e).read e = some { r with lateCounted := true } ∧
      (p.countLate e).lbp.responses = p.lbp.responses ∧
      (r.lateCounted = false → p.Counted (p.countLate e) .readLate 1) ∧
      (r.lateCounted = true → ∀ c, (p.countLate e).counter c = p.counter c) := by
  cases counted : r.lateCounted with
  | false =>
    rw [Chip.countLate_first tracked counted]
    exact ⟨(Chip.AroundRead.setRead _).trans (.bump _ _), rfl, Chip.read_setRead_same e _ p, rfl,
      fun _ => Chip.Counted.bump _ _ (p.setRead e _), nofun⟩
  | true =>
    rw [Chip.countLate_again tracked counted]
    exact ⟨.refl e p, rfl, by rw [tracked, ← counted], rfl, nofun, fun _ _ => rfl⟩

end

end Sys2Proof.Machine


/-! PROOFS. AUDIO_VIEW_FETCH: zeros, a hold, the samples, or the LOST words handed to CU (O34). -/

namespace Sys2Proof.Machine

/-! ## The evaluation of one LOST word (R123, R125, R126) -/

/-- The evaluation of the word of absolute index `index` with its first fetch asked for: the block before it. -/
def openedEval (id : Nat) (asker : Asker) (segment pair channel : Nat) (p : Chip) : Evaluation :=
  { startEvaluation id asker segment pair channel p.cpm.signal with
    fetch := some ⟨segmentOfIndex (192 * segment + pair - 1), blockOfIndex (192 * segment + pair - 1),
      p.cpm.map.privateBase⟩ }

/-- A scan that stops at its first position. -/
theorem Evaluation.scan_of_stop {e : Evaluation} {late : Bool} {f : Option Fetched} {r : ScanResult}
    (stops : e.scanStep late f = .inl r) : e.scan late f = r := by
  unfold Evaluation.scan
  rw [Evaluation.scanFrom, stops]

/-- The scan of a new evaluation asks for the block before its word. -/
theorem scan_startEvaluation_fetch (id : Nat) (asker : Asker) (segment pair channel : Nat) (m : ModeSignal)
    (late : Bool) (inner : 0 < 192 * segment + pair) :
    (startEvaluation id asker segment pair channel m).scan late none =
      .fetch (startEvaluation id asker segment pair channel m) (192 * segment + pair - 1) := by
  have near : ¬(m.hold + 2 ^ m.fade < 1 ∨ 192 * segment + pair < 1) := by
    have := Nat.one_le_two_pow (n := m.fade)
    omega
  exact Evaluation.scan_of_stop (if_neg near)

/-- The very first word of tape has none before it: its value is 0. -/
theorem scan_startEvaluation_first (id : Nat) (asker : Asker) (segment pair channel : Nat) (m : ModeSignal)
    (late : Bool) (first : 192 * segment + pair = 0) :
    (startEvaluation id asker segment pair channel m).scan late none = .ended 0 false :=
  Evaluation.scan_of_stop (if_pos (.inr (Nat.lt_one_iff.mpr first)))

theorem Chip.startEval_opens {p : Chip} {segment pair : Nat} (channel : Nat) (asker : Asker)
    (inner : 0 < 192 * segment + pair) :
    p.startEval segment pair channel asker =
      (({ p with cu := { p.cu with nextId := p.cu.nextId + 1 } } : Chip).putEval
        (openedEval p.cu.nextId asker segment pair channel p)).offer (.neighbour p.cu.nextId) := by
  unfold Chip.startEval
  dsimp only
  rw [scan_startEvaluation_fetch _ _ _ _ _ _ _ inner]
  rfl

theorem Chip.startEval_first {p : Chip} {segment pair : Nat} (channel : Nat) (e : Fin 8) (k : Nat)
    (first : 192 * segment + pair = 0) :
    p.startEval segment pair channel (.read e k) =
      (({ p with cu := { p.cu with nextId := p.cu.nextId + 1 } } : Chip).dropEval p.cu.nextId).setReadValue e k
        (sampleWord 0) := by
  unfold Chip.startEval
  dsimp only
  rw [scan_startEvaluation_first _ _ _ _ _ _ _ first]
  rfl

/-- An evaluation kept in CU is there, and evaluations of other ids stay. -/
theorem Chip.mem_putEval (ev : Evaluation) (p : Chip) : ev ∈ (p.putEval ev).cu.evals := by
  unfold Chip.putEval
  split
  · rename_i found
    obtain ⟨x, member, same⟩ := List.any_eq_true.mp found
    exact List.mem_map.mpr ⟨x, member, if_pos same⟩
  · exact List.mem_append_right _ List.mem_cons_self

theorem Chip.mem_putEval_other {ev x : Evaluation} {p : Chip} (member : x ∈ p.cu.evals) (other : x.id ≠ ev.id) :
    x ∈ (p.putEval ev).cu.evals := by
  unfold Chip.putEval
  split
  · exact List.mem_map.mpr ⟨x, member, if_neg (by simpa using other)⟩
  · exact List.mem_append_left _ member

theorem Chip.putEval_eq (ev : Evaluation) (p : Chip) : p.putEval ev = { p with cu := (p.putEval ev).cu } := by
  unfold Chip.putEval
  split <;> rfl

theorem Chip.putEval_nextId (ev : Evaluation) (p : Chip) : (p.putEval ev).cu.nextId = p.cu.nextId := by
  unfold Chip.putEval
  split <;> rfl

/-! ## The LOST words of a read, one after another (R9, R123) -/

/-- b is a with some LOST words of the read of an entry handed to CU; only the values of `settled` words are filled
in. -/
structure Chip.Conceals (e : Fin 8) (settled : Nat → Prop) (a b : Chip) : Prop where
  around : a.AroundRead e b
  cpm : b.cpm = a.cpm
  responses : b.lbp.responses = a.lbp.responses
  outRecord : b.lbp.outRecord = a.lbp.outRecord
  nextId : a.cu.nextId ≤ b.cu.nextId
  evals : ∀ ev ∈ a.cu.evals, ev.id < a.cu.nextId → ev ∈ b.cu.evals
  offers : ∀ q, a.Offers q → b.Offers q
  read : ∀ r, a.read e = some r → ∃ vs : List (Option Word), b.read e = some { r with values := vs } ∧
    ∀ k, ¬settled k → vs[k]? = r.values[k]?

section

variable {e : Fin 8} {settled : Nat → Prop} {a b p : Chip}

theorem Chip.Conceals.refl (e : Fin 8) (settled : Nat → Prop) (p : Chip) : p.Conceals e settled p :=
  ⟨.refl e p, rfl, rfl, rfl, Nat.le_refl _, fun _ h _ => h, fun _ h => h, fun r h => ⟨r.values, h, fun _ _ => rfl⟩⟩

theorem Chip.Conceals.trans (h : a.Conceals e settled p) (k : p.Conceals e settled b) : a.Conceals e settled b where
  around := h.around.trans k.around
  cpm := k.cpm.trans h.cpm
  responses := k.responses.trans h.responses
  outRecord := k.outRecord.trans h.outRecord
  nextId := h.nextId.trans k.nextId
  evals := fun ev member old => k.evals ev (h.evals ev member old) (old.trans_le h.nextId)
  offers := fun q x => k.offers q (h.offers q x)
  read := fun r tracked => by
    obtain ⟨vs, mid, same⟩ := h.read r tracked
    obtain ⟨vs', last, same'⟩ := k.read _ mid
    exact ⟨vs', last, fun i opened' => (same' i opened').trans (same i opened')⟩

/-- A word of a read is being evaluated, under an id CU has given. -/
def Chip.Opened (p : Chip) (e : Fin 8) (k index channel base : Nat) : Prop :=
  ∃ ev ∈ p.cu.evals, ev.id < p.cu.nextId ∧ ev.asker = .read e k ∧ ev.index = index ∧ ev.channel = channel ∧
    ev.stage = .lookBehind ∧ ev.distance = 1 ∧
    ev.fetch = some ⟨(index - 1) / 192, (index - 1) % 192 / 12, base⟩ ∧ p.Offers (.neighbour ev.id)

theorem Chip.Opened.conceals {k index channel base : Nat} (opened : a.Opened e k index channel base)
    (h : a.Conceals e settled b) : b.Opened e k index channel base := by
  obtain ⟨ev, member, old, asker, at', ch, stage, distance, fetch, offered⟩ := opened
  exact ⟨ev, h.evals ev member old, old.trans_le h.nextId, asker, at', ch, stage, distance, fetch, h.offers _ offered⟩

theorem Chip.Opened.evaluates {k index channel base : Nat} (opened : p.Opened e k index channel base)
    (h : p.Reports b) (same : base = p.cpm.map.privateBase) : b.Evaluates (.read e k) index channel := by
  obtain ⟨ev, member, -, asker, at', ch, stage, distance, fetch, offered⟩ := opened
  refine ⟨ev, h.cu ▸ member, asker, at', ch, stage, distance, ?_, h.offers _ offered⟩
  rw [fetch, h.map, same]

/-- A word with one before it is opened. -/
theorem Chip.startEval_opened {segment pair : Nat} (channel k : Nat) (inner : 0 < 192 * segment + pair) :
    p.Conceals e settled (p.startEval segment pair channel (.read e k)) ∧
      (p.startEval segment pair channel (.read e k)).Opened e k (192 * segment + pair) channel
        p.cpm.map.privateBase := by
  rw [Chip.startEval_opens channel (.read e k) inner]
  generalize given : ({ p with cu := { p.cu with nextId := p.cu.nextId + 1 } } : Chip) = q
  have put := Chip.putEval_eq (openedEval p.cu.nextId (.read e k) segment pair channel p) q
  have nextId := Chip.putEval_nextId (openedEval p.cu.nextId (.read e k) segment pair channel p) q
  have there := Chip.mem_putEval (openedEval p.cu.nextId (.read e k) segment pair channel p) q
  have others (x : Evaluation) := Chip.mem_putEval_other (x := x)
    (ev := openedEval p.cu.nextId (.read e k) segment pair channel p) (p := q)
  subst given
  constructor
  · refine ⟨?_, ?_, ?_, ?_, ?_, fun ev member old => ?_, fun r waits => Chip.offers_mono _ ?_, fun r tracked => ?_⟩
    · rw [put]
      exact ⟨fun _ _ => rfl, rfl, rfl, rfl, rfl, rfl, rfl⟩
    · rw [put]; rfl
    · rw [put]; rfl
    · rw [put]; rfl
    · exact (Nat.le_succ _).trans_eq nextId.symm
    · exact others ev member (Nat.ne_of_lt old)
    · rw [put]
      exact waits
    · rw [put]
      exact ⟨r.values, tracked, fun _ _ => rfl⟩
  · exact ⟨_, there, (Nat.lt_succ_self _).trans_eq nextId.symm, rfl, rfl, rfl, rfl, rfl, rfl, Chip.offers_offer _ _⟩

/-- The first word of tape has its value at once. -/
theorem Chip.startEval_settled {segment pair : Nat} (channel k : Nat) (first : 192 * segment + pair = 0)
    (settles : settled k) : p.Conceals e settled (p.startEval segment pair channel (.read e k)) := by
  rw [Chip.startEval_first channel e k first]
  refine ⟨⟨fun _ other => Chip.read_setRead_other _ _ other, rfl, rfl, rfl, rfl, rfl, rfl⟩, rfl, rfl, rfl,
    Nat.le_succ _, fun ev member old => ?_, fun _ h => h, fun r tracked => ?_⟩
  · exact List.mem_filter.mpr ⟨member, by simpa using Nat.ne_of_lt old⟩
  · refine ⟨r.values.set k (some (sampleWord 0)), ?_, fun i unsettled => ?_⟩
    · refine (Chip.read_setRead_same e _ _).trans ?_
      exact congrArg (Option.map _) tracked
    · exact List.getElem?_set_ne fun same : k = i => unsettled (same ▸ settles)

/-- The word k of a read is of the first pair of tape. -/
def firstOfTape (segment : Nat) (place : ViewPlace) (k : Nat) : Prop := 192 * segment + (place.advance k).pair = 0

/-- One word of a read looked at: the step of `Chip.concealWords`. -/
def Chip.concealWord (e : Fin 8) (segment : Nat) (place : ViewPlace) (p : Chip) (wk : (Nat × WordFlag) × Nat) : Chip :=
  match wk.1.2 with
  | .lost => p.startEval segment (place.advance wk.2).pair (place.advance wk.2).channel (.read e wk.2)
  | _ => p

theorem Chip.concealWords_eq (e : Fin 8) (segment : Nat) (place : ViewPlace) (ws : List (Nat × WordFlag)) (p : Chip) :
    p.concealWords e segment place ws = ws.zipIdx.foldl (Chip.concealWord e segment place) p := rfl

theorem Chip.concealWord_conceals (segment : Nat) (place : ViewPlace) (p : Chip) {wk : (Nat × WordFlag) × Nat}
    (settles : wk.1.2 = .lost → firstOfTape segment place wk.2 → settled wk.2) :
    p.Conceals e settled (p.concealWord e segment place wk) := by
  unfold Chip.concealWord
  split
  · rename_i lost
    by_cases first : 192 * segment + (place.advance wk.2).pair = 0
    · exact Chip.startEval_settled _ _ first (settles lost first)
    · exact (Chip.startEval_opened _ _ (Nat.pos_of_ne_zero first)).1
  · exact .refl e _ p

/-- Every LOST word that has a word before it on tape is opened, and only LOST words of the first pair are settled. -/
theorem Chip.foldl_concealWord (segment : Nat) (place : ViewPlace) (l : List ((Nat × WordFlag) × Nat)) (p : Chip)
    (settles : ∀ wk ∈ l, wk.1.2 = .lost → firstOfTape segment place wk.2 → settled wk.2) :
    p.Conceals e settled (l.foldl (Chip.concealWord e segment place) p) ∧
      ∀ wk ∈ l, wk.1.2 = .lost → ¬firstOfTape segment place wk.2 →
        (l.foldl (Chip.concealWord e segment place) p).Opened e wk.2 (192 * segment + (place.advance wk.2).pair)
          (place.advance wk.2).channel p.cpm.map.privateBase := by
  induction l generalizing p with
  | nil => exact ⟨.refl e _ p, fun _ member => nomatch member⟩
  | cons x rest ih =>
    have here := Chip.concealWord_conceals (e := e) segment place p (settles x List.mem_cons_self)
    obtain ⟨later, opened⟩ := ih (p.concealWord e segment place x) fun wk member =>
      settles wk (List.mem_cons_of_mem _ member)
    refine ⟨here.trans later, fun wk member lost inner => ?_⟩
    rcases List.mem_cons.mp member with rfl | member
    · have opened' : (p.concealWord e segment place wk).Opened e wk.2 (192 * segment + (place.advance wk.2).pair)
          (place.advance wk.2).channel p.cpm.map.privateBase := by
        unfold Chip.concealWord
        rw [lost]
        exact (Chip.startEval_opened (settled := settled) _ _ (Nat.pos_of_ne_zero inner)).2
      exact opened'.conceals later
    · rw [← here.cpm]
      exact opened wk member lost inner

/-- The words of a read that get their value as they are handed to CU. -/
def settledWord (segment : Nat) (place : ViewPlace) (ws : List (Nat × WordFlag)) (k : Nat) : Prop :=
  firstOfTape segment place k ∧ ∃ v, ws[k]? = some (v, .lost)

theorem Chip.concealWords_conceals (segment : Nat) (place : ViewPlace) (ws : List (Nat × WordFlag)) (p : Chip) :
    p.Conceals e (settledWord segment place ws) (p.concealWords e segment place ws) ∧
      ∀ k v, ws[k]? = some (v, .lost) → ¬firstOfTape segment place k →
        (p.concealWords e segment place ws).Opened e k (192 * segment + (place.advance k).pair)
          (place.advance k).channel p.cpm.map.privateBase := by
  obtain ⟨conceals, opened⟩ := Chip.foldl_concealWord (e := e) (settled := settledWord segment place ws) segment place
    ws.zipIdx p fun wk member lost first => ⟨first, wk.1.1, by
      rw [List.mem_zipIdx_iff_getElem?.mp member, ← lost]⟩
  exact ⟨conceals, fun k v lost inner => opened ((v, .lost), k) (List.mem_zipIdx_iff_getElem?.mpr lost) rfl inner⟩

end

/-! ## The fetch (R9, R10, R13) -/

/-- What a granted fetch does by the play state of its slot (R9). -/
def Chip.fetchView (e : Fin 8) (place : ViewPlace) (ws : List (Nat × WordFlag)) (p : Chip) : Chip :=
  match (p.slot place.slot).readable with
  | .ready => p.takeFetched e place ws
  | .arriving => p.holdOnSlot e
  | .checking => p.holdOnSlot e
  | .empty => p.completeZeros e

theorem execAudioViewFetch_eq {s : State} {e : Fin 8} {r : Read} {place : ViewPlace} (next : s.ReadNext e r)
    (view : r.range = .audioView place) :
    execAudioViewFetch e s = .next (s.onChip fun p => ((p.beginGrant (.read e)).fetchView e place
      (playedWords s.mem s.cpm.map.privateBase place r.len)).noteStatus) := by
  obtain ⟨tracked, offered, grant⟩ := next
  unfold execAudioViewFetch
  rw [tracked]
  dsimp only
  rw [view]
  exact if_pos (by simp [Chip.readGrantable, offered, grant])

section

variable {p : Chip} {e : Fin 8} {r : Read} {place : ViewPlace} {ws : List (Nat × WordFlag)}

theorem Chip.fetchView_empty (tracked : p.read e = some r)
    (empty : (p.slot place.slot).claimed = false ∨ (p.slot place.slot).play = .empty) :
    p.fetchView e place ws = p.completeRead e (List.replicate r.len 0) .none := by
  have reads : (p.slot place.slot).readable = .empty := by
    unfold Slot.readable
    rcases empty with unclaimed | empty
    · simp [unclaimed]
    · simp [empty]
  unfold Chip.fetchView
  rw [reads]
  exact Chip.completeZeros_eq tracked

theorem Chip.fetchView_hold (tracked : p.read e = some r) (inTime : r.late = false)
    (claimed : (p.slot place.slot).claimed = true)
    (coming : (p.slot place.slot).play = .arriving ∨ (p.slot place.slot).play = .checking) :
    p.fetchView e place ws = p.holdRead e .heldOnSlot := by
  have held : p.holdOnSlot e = p.holdRead e .heldOnSlot := by
    unfold Chip.holdOnSlot Chip.isLate
    rw [tracked]
    exact if_neg (by simp [inTime])
  unfold Chip.fetchView Slot.readable
  rw [if_pos claimed]
  rcases coming with coming | coming <;> rw [coming] <;> exact held

theorem Chip.fetchView_ready (claimed : (p.slot place.slot).claimed = true)
    (ready : (p.slot place.slot).play = .ready) : p.fetchView e place ws = p.takeFetched e place ws := by
  unfold Chip.fetchView Slot.readable
  rw [if_pos claimed, ready]

/-- The read of an entry with the words of its fetch in place (R9). -/
def Read.withWords (r : Read) (ws : List (Nat × WordFlag)) (material : OutRecord) : Read :=
  { r with state := .concealing, values := ws.map playedValue, material := material }

theorem playedValue_lost {wf : Nat × WordFlag} (lost : wf.2 = .lost) : playedValue wf = none := by
  unfold playedValue
  rw [lost]

theorem playedValue_kept {wf : Nat × WordFlag} (kept : wf.2 ≠ .lost) :
    playedValue wf = some (sampleWord (sampleOfCode wf.1)) := by
  unfold playedValue
  split
  · exact absurd ‹_› kept
  · rfl

/-- With no word LOST the read completes at once. -/
theorem Chip.takeFetched_whole (tracked : p.read e = some r) (whole : ∀ wf ∈ ws, wf.2 ≠ .lost) :
    p.takeFetched e place ws =
      (p.setRead e (some (r.withWords ws (p.slot place.slot).recovered.outRecord))).completeRead e
      (ws.map fun wf => sampleWord (sampleOfCode wf.1)) (p.slot place.slot).recovered.outRecord := by
  have none : ws.any (fun wf => wf.2 == .lost) = false := by simpa using whole
  unfold Chip.takeFetched
  dsimp only
  rw [none, if_neg (by simp), Chip.modRead_eq tracked,
    Chip.readProceed_whole (Chip.read_setRead_same e _ p) (.inl rfl)]
  · congr 1
    simp only [List.map_map]
    exact List.map_congr_left fun wf member => by simp [playedValue_kept (whole wf member)]
  · simp only [List.all_map, List.all_eq_true]
    exact fun wf member => by simp [playedValue_kept (whole wf member)]

/-- With a word LOST that has a word before it on tape, the read waits for CU. -/
theorem Chip.takeFetched_conceals (tracked : p.read e = some r) {k v : Nat} (lost : ws[k]? = some (v, .lost))
    (inner : ¬firstOfTape (p.slot place.slot).segment place k) :
    p.takeFetched e place ws =
      ((p.setRead e (some (r.withWords ws (p.slot place.slot).recovered.outRecord))).bump .concealedReads
        1).concealWords e (p.slot place.slot).segment place ws := by
  have found : ws.any (fun wf => wf.2 == .lost) = true :=
    List.any_eq_true.mpr ⟨_, List.mem_of_getElem? lost, by simp⟩
  obtain ⟨vs, read, kept⟩ := (Chip.concealWords_conceals (e := e) (p.slot place.slot).segment place ws
    ((p.setRead e (some (r.withWords ws (p.slot place.slot).recovered.outRecord))).bump .concealedReads 1)).1.read _
    (Chip.read_setRead_same e _ p)
  have isOpen : none ∈ vs := by
    refine List.mem_of_getElem? (i := k) ((kept k fun settled => inner settled.1).trans ?_)
    simp [Read.withWords, lost, playedValue_lost]
  unfold Chip.takeFetched
  dsimp only
  rw [found, if_pos rfl, Chip.modRead_eq tracked]
  exact Chip.readProceed_open read isOpen

end

/-- What the statement calls the rest: the frame of a command on the read, ended by the status report. -/
theorem fetched_rest {s : State} {e : Fin 8} {q : Chip} (around : (s.toChip.beginGrant (.read e)).AroundRead e q) :
    Chip.SameReadsBut e s.toChip q.noteStatus ∧ q.noteStatus.lbp.posted = s.lbp.posted ∧
      q.noteStatus.slots = s.slots ∧ q.noteStatus.ce = s.ce ∧ q.noteStatus.rc = s.rc ∧ q.noteStatus.ecu = s.ecu ∧
      q.noteStatus.dlc = s.dlc := by
  obtain ⟨reads, posted, slots, ce, rc, ecu, dlc⟩ :=
    ((Chip.AroundRead.granted (.read e)).trans around).trans (.reports (Chip.noteStatus_reports q))
  exact ⟨reads, posted, slots, ce, rc, ecu, dlc⟩

/-- A granted fetch that completes the read at once with the given words: the clauses on EMPTY and on READY slots. -/
theorem fetched_completes {s : State} {e : Fin 8} {r : Read} {place : ViewPlace} {q : Chip}
    (tracked : q.read e = some r) (view : r.range = .audioView place)
    (around : (s.toChip.beginGrant (.read e)).AroundRead e q) (cpm : q.cpm = s.cpm)
    (cu : q.cu = s.cu) (lbp : q.lbp.outRecord = s.lbp.outRecord ∧ q.lbp.responses = s.lbp.responses) (words : List Word)
    (material : OutRecord) :
    let p := (q.completeRead e words material).noteStatus
    (Chip.SameReadsBut e s.toChip p ∧ p.lbp.posted = s.lbp.posted ∧ p.slots = s.slots ∧ p.ce = s.ce ∧ p.rc = s.rc ∧
      p.ecu = s.ecu ∧ p.dlc = s.dlc) ∧ p.cu = s.cu ∧ p.read e = none ∧
      p.lbp.outRecord = (if r.initiator.val = s.cpm.map.digitalOut then material else s.lbp.outRecord) ∧
      p.lbp.responses = s.lbp.responses ++ [.data r.initiator r.tag words] ∧
      ∀ c, p.counter c = s.toChip.counter c := by
  intro p
  have ends := Chip.completeRead_eq tracked words material
  have reports : (q.completeRead e words material).Reports p := Chip.noteStatus_reports _
  refine ⟨fetched_rest (around.trans (.completeRead tracked words material)), ?_, ?_, ?_, ?_, fun c => ?_⟩
  · rw [reports.cu, ends]
    exact cu
  · rw [reports.read, ends]
    exact Chip.read_setRead_same _ _ _
  · rw [reports.lbp, ends]
    exact (Chip.noted_audioView view material).trans (by rw [cpm, lbp.1])
  · rw [reports.lbp, ends]
    exact congrArg (· ++ _) lbp.2
  · rw [reports.counter, ends]
    exact Chip.counter_of_cpm cpm c

theorem getElem?_playedWords {m : Memory} {base : Nat} {place : ViewPlace} {len k : Nat} (h : k < len) :
    (playedWords m base place len)[k]? = some (playedWord m base place.slot (place.imageWord + k)) := by
  simp [playedWords, h]

/-- Settles O34: the branches of `Chip.fetchView`, the LOST words followed through `Chip.concealWords`. -/
theorem audioViewFetchReads : Obligations.AudioViewFetchReads := by
  unfold Obligations.AudioViewFetchReads
  intro s e r place next view x base image flag sample noted rest
  have answer := execAudioViewFetch_eq next view
  have tracked : (s.toChip.beginGrant (.read e)).read e = some r := next.1
  refine ⟨fun empty => ?_, fun claimed coming inTime => ?_, fun claimed isReady whole => ?_,
    fun claimed isReady ⟨k, bound, lost, inner⟩ => ?_⟩
  · refine ⟨_, answer, ?_⟩
    dsimp only [State.onChip]
    rw [Chip.fetchView_empty tracked empty]
    exact fetched_completes tracked view (.refl e _) rfl rfl ⟨rfl, rfl⟩ _ .none
  · refine ⟨_, answer, ?_⟩
    dsimp only [State.onChip]
    rw [Chip.fetchView_hold tracked inTime claimed coming]
    obtain ⟨around, cu, held, outRecord, responses, counted, uncounted⟩ := Chip.holdRead_holds tracked .heldOnSlot
    have reports := Chip.noteStatus_reports ((s.toChip.beginGrant (.read e)).holdRead e .heldOnSlot)
    exact ⟨fetched_rest around, reports.cu.trans cu, (reports.read e).trans held,
      (congrArg Lbp.outRecord reports.lbp).trans outRecord, (congrArg Lbp.responses reports.lbp).trans responses,
      fun first => (counted first).reports reports, fun again c => (reports.counter c).trans (uncounted again c)⟩
  · refine ⟨_, answer, ?_⟩
    have kept : ∀ wf ∈ playedWords s.mem base place r.len, wf.2 ≠ .lost := by
      intro wf member
      obtain ⟨k, inside, rfl⟩ := List.mem_map.mp member
      exact whole k (List.mem_range.mp inside)
    have fetched := (Chip.fetchView_ready (p := s.toChip.beginGrant (.read e)) (e := e) claimed isReady).trans
      (Chip.takeFetched_whole tracked kept)
    dsimp only [State.onChip]
    rw [fetched]
    have completes := fetched_completes (r := r.withWords (playedWords s.mem base place r.len) x.recovered.outRecord)
      (Chip.read_setRead_same e _ (s.toChip.beginGrant (.read e))) view (.setRead _) rfl rfl ⟨rfl, rfl⟩
      ((playedWords s.mem base place r.len).map fun wf => sampleWord (sampleOfCode wf.1)) x.recovered.outRecord
    obtain ⟨same, cu, free, outRecord, responses, counters⟩ := completes
    refine ⟨same, cu, free, outRecord.trans ?_, responses.trans ?_, counters⟩
    · rfl
    · rw [playedWords, List.map_map]
      rfl
  · have lostAt (k : Nat) (bound : k < r.len) (lost : flag k = .lost) :
        ∃ v, (playedWords s.mem base place r.len)[k]? = some (v, .lost) :=
      ⟨_, (getElem?_playedWords bound).trans (congrArg (fun f => some (_, f)) lost)⟩
    obtain ⟨v, found⟩ := lostAt k bound lost
    have fetched := (Chip.fetchView_ready (p := s.toChip.beginGrant (.read e)) (e := e) claimed isReady).trans
      (Chip.takeFetched_conceals tracked found (Nat.ne_of_gt inner))
    obtain ⟨conceals, opened⟩ := Chip.concealWords_conceals (e := e) x.segment place
      (playedWords s.mem base place r.len) (((s.toChip.beginGrant (.read e)).setRead e (some (r.withWords
        (playedWords s.mem base place r.len) x.recovered.outRecord))).bump .concealedReads 1)
    obtain ⟨vs, read, kept⟩ := conceals.read _ (Chip.read_setRead_same e _ (s.toChip.beginGrant (.read e)))
    refine ⟨_, { r.withWords (playedWords s.mem base place r.len) x.recovered.outRecord with values := vs }, answer, ?_⟩
    dsimp only [State.onChip]
    rw [fetched]
    have reports := Chip.noteStatus_reports ((((s.toChip.beginGrant (.read e)).setRead e (some (r.withWords
      (playedWords s.mem base place r.len) x.recovered.outRecord))).bump .concealedReads 1).concealWords e x.segment
      place (playedWords s.mem base place r.len))
    refine ⟨fetched_rest (((Chip.AroundRead.setRead _).trans (.bump _ _)).trans conceals.around),
      (reports.read e).trans read, rfl, fun k bound clean => ?_, fun k bound lost inner => ?_,
      (congrArg Lbp.outRecord reports.lbp).trans conceals.outRecord,
      (congrArg Lbp.responses reports.lbp).trans conceals.responses, ?_⟩
    · have unsettled : ¬settledWord x.segment place (playedWords s.mem base place r.len) k := by
        rintro ⟨-, v, settled⟩
        rw [getElem?_playedWords bound] at settled
        exact clean (congrArg Prod.snd (Option.some.inj settled))
      refine (kept k unsettled).trans ?_
      simp only [Read.withWords, List.getElem?_map, getElem?_playedWords bound, Option.map_some]
      exact congrArg some (playedValue_kept clean)
    · obtain ⟨v, found⟩ := lostAt k bound lost
      have base' := congrArg (fun m : Cpm => m.map.privateBase) conceals.cpm
      exact (opened k v found (Nat.ne_of_gt inner)).evaluates reports base'.symm
    · exact ((Chip.Counted.bump .concealedReads 1 _).of_cpm conceals.cpm).reports reports

end Sys2Proof.Machine


/-! PROOFS. READ_LATE resolves every hold of a read (O37). -/

namespace Sys2Proof.Machine

theorem execReadLate_eq {s : State} {e : Fin 8} {r : Read} (tracked : s.toChip.read e = some r)
    (expired : r.holdTimer = some 0) (inTime : r.late = false) :
    execReadLate e s = .next (s.onChip fun p => (p.begin.becomeLate e r).noteStatus) := by
  unfold execReadLate
  rw [tracked]
  exact if_pos ⟨expired, inTime⟩

/-- A completed read: its entry is free, it is answered, and only the output segment record changes besides. -/
theorem Chip.completeRead_completes {p : Chip} {e : Fin 8} {r : Read} (tracked : p.read e = some r) (words : List Word)
    (material : OutRecord) :
    (p.completeRead e words material).read e = none ∧
      (p.completeRead e words material).lbp.responses = p.lbp.responses ++ [.data r.initiator r.tag words] ∧
      (p.completeRead e words material).cpm = p.cpm ∧ (p.completeRead e words material).cu = p.cu := by
  rw [Chip.completeRead_eq tracked]
  exact ⟨Chip.read_setRead_same e none _, rfl, rfl, rfl⟩

/-- A read that goes on, complete or not, moves nothing of the part but its own entry. -/
theorem Chip.readProceed_around {p : Chip} {e : Fin 8} {r : Read} (tracked : p.read e = some r) :
    p.AroundRead e (p.readProceed e) ∧ (p.readProceed e).cpm = p.cpm ∧ (p.readProceed e).cu = p.cu := by
  unfold Chip.readProceed
  rw [tracked]
  dsimp only
  split
  · obtain ⟨-, -, cpm, cu⟩ := Chip.completeRead_completes tracked (r.values.map fun v => v.getD 0) r.material
    exact ⟨.completeRead tracked _ _, cpm, cu⟩
  · exact ⟨.refl e p, rfl, rfl⟩

/-! ## Held evaluations ended (R134) -/

/-- The value of an ended evaluation put in its place among the values of its read (R134). -/
def heldValue (vs : List (Option Word)) (ev : Evaluation) : List (Option Word) :=
  match ev.asker, ev.behind with
  | .read _ k, some (a, ka) => vs.set k (some (BitVec.ofInt 32 (holdFade a ka ev.hold ev.fade)))
  | _, _ => vs

/-- An evaluation is held for the read of an entry. -/
def Evaluation.holds (entry : Fin 8) (ev : Evaluation) : Bool :=
  ev.stage == .held && (match ev.asker with
    | .read x _ => x == entry
    | _ => false)

/-- One held evaluation ended: the step of `Chip.endHeldOf`. -/
def Chip.endHeld (p : Chip) (ev : Evaluation) : Chip :=
  match ev.behind with
  | some (a, ka) => p.applyScan ev.id ev.asker (.ended (ev.faded a ka) false)
  | none => p.applyScan ev.id ev.asker (.ended 0 false)

theorem Chip.endHeldOf_eq (entry : Fin 8) (p : Chip) :
    p.endHeldOf entry = (p.cu.evals.filter (Evaluation.holds entry)).foldl Chip.endHeld p := rfl

theorem Evaluation.holds_asker {entry : Fin 8} {ev : Evaluation} (h : ev.holds entry = true) :
    ev.stage = .held ∧ ∃ k, ev.asker = .read entry k := by
  unfold Evaluation.holds at h
  rw [Bool.and_eq_true] at h
  obtain ⟨stage, asker⟩ := h
  refine ⟨by simpa using stage, ?_⟩
  split at asker
  · rename_i x k found
    exact ⟨k, by rw [found, beq_iff_eq.mp asker]⟩
  · cases asker

theorem Chip.endHeld_eq {p : Chip} {entry : Fin 8} {r : Read} {ev : Evaluation} (tracked : p.read entry = some r)
    (holds : ev.holds entry = true) (behind : ev.behind ≠ none) :
    p.endHeld ev = (p.dropEval ev.id).setRead entry (some { r with values := heldValue r.values ev }) := by
  obtain ⟨-, k, asker⟩ := Evaluation.holds_asker holds
  obtain ⟨⟨a, ka⟩, found⟩ := Option.ne_none_iff_exists'.mp behind
  have delivered : p.endHeld ev = (p.dropEval ev.id).setReadValue entry k (sampleWord (ev.faded a ka)) := by
    unfold Chip.endHeld
    rw [found]
    dsimp only
    rw [asker]
    rfl
  have value : heldValue r.values ev = r.values.set k (some (sampleWord (ev.faded a ka))) := by
    unfold heldValue
    rw [asker, found]
    rfl
  rw [delivered, value]
  exact Chip.modRead_eq (p := p.dropEval ev.id) tracked _

/-- The evaluations of a list ended one after another: all of them gone from CU, all their values in place. -/
theorem Chip.foldl_endHeld {entry : Fin 8} (l : List Evaluation) {p : Chip} {r : Read}
    (tracked : p.read entry = some r) (held : ∀ ev ∈ l, ev.holds entry = true ∧ ev.behind ≠ none) :
    l.foldl Chip.endHeld p =
      ({ p with cu := { p.cu with evals := p.cu.evals.filter fun x => l.all fun ev => x.id != ev.id } } : Chip).setRead
        entry (some { r with values := l.foldl heldValue r.values }) := by
  induction l generalizing p r with
  | nil =>
    have all : (p.cu.evals.filter fun x => ([] : List Evaluation).all fun ev => x.id != ev.id) = p.cu.evals := by simp
    rw [all]
    exact (Chip.setRead_self tracked).symm
  | cons ev rest ih =>
    obtain ⟨holds, behind⟩ := held ev List.mem_cons_self
    rw [List.foldl_cons, Chip.endHeld_eq tracked holds behind,
      ih (Chip.read_setRead_same entry _ _) fun x member => held x (List.mem_cons_of_mem _ member)]
    have left : ((p.cu.evals.filter fun x => x.id != ev.id).filter fun x => rest.all fun y => x.id != y.id) =
        p.cu.evals.filter fun x => (ev :: rest).all fun y => x.id != y.id := by
      rw [List.filter_filter]
      exact List.filter_congr fun x _ => by rw [List.all_cons, Bool.and_comm]
    simp only [List.foldl_cons]
    rw [← left]
    exact Chip.setRead_setRead (e := entry) (p := { p with cu := { p.cu with
      evals := (p.cu.evals.filter fun x => x.id != ev.id).filter fun x => rest.all fun y => x.id != y.id } })
      (some { r with values := heldValue r.values ev }) _

/-- With distinct ids, those left are the ones not held for the read. -/
theorem filter_notHeld {evals : List Evaluation} (entry : Fin 8) (distinct : (evals.map Evaluation.id).Nodup) :
    (evals.filter fun x => (evals.filter (Evaluation.holds entry)).all fun ev => x.id != ev.id) =
      evals.filter fun x => !x.holds entry := by
  refine List.filter_congr fun x member => ?_
  rw [Bool.eq_iff_iff, List.all_eq_true, Bool.not_eq_true']
  constructor
  · intro apart
    rw [Bool.eq_false_iff]
    intro holds
    simpa using apart x (List.mem_filter.mpr ⟨member, holds⟩)
  · intro free ev held
    obtain ⟨member', holds⟩ := List.mem_filter.mp held
    rw [bne_iff_ne]
    intro same
    have : x = ev := List.inj_on_of_nodup_map distinct member member' same
    rw [this, holds] at free
    cases free

/-- The end of a read's held evaluations: CU is rid of them, and the read has their values. -/
theorem Chip.endHeldOf_ends {p : Chip} {entry : Fin 8} {r : Read} (tracked : p.read entry = some r)
    (distinct : (p.cu.evals.map Evaluation.id).Nodup)
    (behind : ∀ ev ∈ p.cu.evals.filter (Evaluation.holds entry), ev.behind ≠ none) :
    p.AroundRead entry (p.endHeldOf entry) ∧
      (p.endHeldOf entry).read entry =
        some { r with values := (p.cu.evals.filter (Evaluation.holds entry)).foldl heldValue r.values } ∧
      (p.endHeldOf entry).cu.evals = p.cu.evals.filter (fun x => !x.holds entry) ∧
      (p.endHeldOf entry).cpm = p.cpm ∧ (p.endHeldOf entry).lbp.responses = p.lbp.responses := by
  have ended := Chip.foldl_endHeld (p.cu.evals.filter (Evaluation.holds entry)) tracked
    fun ev member => ⟨(List.mem_filter.mp member).2, behind ev member⟩
  rw [filter_notHeld entry distinct] at ended
  rw [Chip.endHeldOf_eq, ended]
  exact ⟨⟨fun _ other => Chip.read_setRead_other _ _ other, rfl, rfl, rfl, rfl, rfl, rfl⟩,
    Chip.read_setRead_same entry _ _, rfl, rfl, rfl⟩

/-! ## READ_LATE -/

section

variable {p : Chip} {e : Fin 8} {r : Read}

theorem Chip.becomeLate_slot (state : r.state = .heldOnSlot) :
    p.becomeLate e r = ((p.setRead e (some { r with late := true })).countLate e).completeZeros e := by
  unfold Chip.becomeLate
  rw [state]

theorem Chip.becomeLate_other (state : r.state = .waiting ∨ r.state = .offered ∨ r.state = .concealing) :
    p.becomeLate e r = p.setRead e (some { r with late := true }) := by
  unfold Chip.becomeLate
  rcases state with state | state | state <;> rw [state]

theorem Chip.becomeLate_neighbour (state : r.state = .heldOnNeighbour)
    (held : p.cu.evals.filter (Evaluation.holds e) ≠ []) :
    p.becomeLate e r =
      (((p.setRead e (some { r with late := true })).countLate e).endHeldOf e).readProceed e := by
  obtain ⟨ev, member⟩ := List.exists_mem_of_ne_nil _ held
  obtain ⟨member, holds⟩ := List.mem_filter.mp member
  unfold Chip.becomeLate
  rw [state]
  exact if_pos (List.any_eq_true.mpr ⟨ev, member, holds⟩)

end

/-- Settles O37: a hold on a slot, no hold, and a hold on a neighbour, whose evaluations end one after another. -/
theorem readLateResolves : Obligations.ReadLateResolves := by
  unfold Obligations.ReadLateResolves
  intro s e r tracked expired inTime
  have answer := execReadLate_eq tracked expired inTime
  have marked : (s.toChip.begin.setRead e (some { r with late := true })).read e = some { r with late := true } :=
    Chip.read_setRead_same e _ _
  have markedAround : s.toChip.AroundRead e (s.toChip.begin.setRead e (some { r with late := true })) :=
    Chip.AroundRead.begun.trans (.setRead _)
  obtain ⟨around, cu, late, responses, counted, uncounted⟩ := Chip.countLate_counts marked
  generalize entered : (s.toChip.begin.setRead e (some { r with late := true })).countLate e = q at *
  refine ⟨fun state => ?_, fun state => ?_, ?_⟩
  · have whole : s.toChip.begin.becomeLate e r = q.completeRead e (List.replicate r.len 0) .none := by
      rw [Chip.becomeLate_slot state, entered, Chip.completeZeros_eq late]
    obtain ⟨free, answered, cpm, cu'⟩ := Chip.completeRead_completes late (List.replicate r.len 0) .none
    have frame := (markedAround.trans around).trans (.completeRead late (List.replicate r.len 0) .none)
    refine ⟨_, answer, ?_⟩
    dsimp only [State.onChip]
    rw [whole]
    have reports := Chip.noteStatus_reports (q.completeRead e (List.replicate r.len 0) .none)
    have total := frame.trans (.reports reports)
    refine ⟨(reports.read e).trans free, ?_, fun first => ?_, fun again c => ?_, total.reads, total.posted,
      total.sameTape (reports.cu.trans (cu'.trans cu)), total.dlc⟩
    · rw [reports.lbp, answered, responses]
      rfl
    · exact ((counted first).of_cpm cpm).reports reports
    · rw [reports.counter, Chip.counter_of_cpm cpm, uncounted again]
      rfl
  · refine ⟨_, answer, ?_⟩
    dsimp only [State.onChip]
    rw [Chip.becomeLate_other state]
    have reports := Chip.noteStatus_reports (s.toChip.begin.setRead e (some { r with late := true }))
    have total := markedAround.trans (.reports reports)
    refine ⟨(reports.read e).trans marked, (congrArg Lbp.responses reports.lbp :), fun c => reports.counter c,
      total.reads, total.posted, total.sameTape reports.cu, total.dlc⟩
  · intro state distinct waits held nonempty behind values
    have evals : q.cu.evals = s.cu.evals := congrArg Cu.evals cu
    have goesOn : s.toChip.begin.becomeLate e r = (q.endHeldOf e).readProceed e := by
      rw [Chip.becomeLate_neighbour (p := s.toChip.begin) state nonempty, entered]
    obtain ⟨resumed, kept, left, sameCpm, quiet⟩ :=
      Chip.endHeldOf_ends late (evals ▸ distinct) (evals ▸ behind)
    rw [evals] at kept left
    generalize q.endHeldOf e = u at *
    obtain ⟨proceeds, cpm, cu'⟩ := Chip.readProceed_around kept
    refine ⟨_, answer, ?_⟩
    dsimp only [State.onChip]
    rw [goesOn]
    have reports := Chip.noteStatus_reports (u.readProceed e)
    have total := ((markedAround.trans around).trans (resumed.trans proceeds)).trans (.reports reports)
    refine ⟨(congrArg Cu.evals (reports.cu.trans cu')).trans left, fun whole => ?_, fun isOpen => ?_,
      fun first => (((counted first).of_cpm sameCpm).of_cpm cpm).reports reports,
      fun again c => ?_, total.reads, total.posted, total.slots, total.ce, total.rc, total.ecu, total.dlc⟩
    · have all : values.all Option.isSome = true := List.all_eq_true.mpr fun v member => by
        cases v with
        | none => exact absurd member whole
        | some w => rfl
      have completes := Chip.readProceed_whole kept (.inr state) all
      obtain ⟨free, answered, -, -⟩ := Chip.completeRead_completes kept (values.map fun v => v.getD 0) r.material
      refine ⟨(reports.read e).trans ((congrArg (Chip.read · e) completes).trans free), ?_⟩
      rw [reports.lbp, completes]
      exact answered.trans (congrArg (· ++ _) (quiet.trans responses))
    · have waits := Chip.readProceed_open kept isOpen
      refine ⟨?_, (reports.read e).trans ((congrArg (Chip.read · e) waits).trans kept)⟩
      rw [reports.lbp, waits]
      exact quiet.trans responses
    · rw [reports.counter, Chip.counter_of_cpm cpm, Chip.counter_of_cpm sameCpm]
      exact uncounted again c

end Sys2Proof.Machine


/-! PROOFS. What the work that follows an event leaves alone: the port's answers, CU and the pending mode values, the
notices raised, every counter but one, and the slots it is not about. -/

namespace Sys2Proof.Machine

/-! ## The relation -/

/-- A code item of the slot is queued (R57). -/
def Chip.QueuesCode (p : Chip) (i : Fin 128) : Prop := ∃ e ∈ p.ce.queue, e.item.codes i = true

/-- The run record b follows a: the run is the same one, and its settled write sides have not become fewer. -/
def RunGoesOn (a b : Option RunRecord) : Prop :=
  b.map RunRecord.kind = a.map RunRecord.kind ∧
    ∀ x ∈ a, ∀ y ∈ b, x.settledCount ≤ y.settledCount

theorem RunGoesOn.refl (a : Option RunRecord) : RunGoesOn a a :=
  ⟨rfl, fun x hx y hy => by cases Option.mem_unique hx hy; exact Nat.le_refl _⟩

theorem RunGoesOn.trans {a b c : Option RunRecord} (h : RunGoesOn a b) (k : RunGoesOn b c) : RunGoesOn a c := by
  refine ⟨k.1.trans h.1, fun x hx z hz => ?_⟩
  cases b with
  | none => cases hx; cases h.1
  | some y => exact (h.2 x hx y rfl).trans (k.2 y rfl z hz)

theorem RunGoesOn.map {f : RunRecord → RunRecord} (kind : ∀ r, (f r).kind = r.kind)
    (settled : ∀ r, r.settledCount ≤ (f r).settledCount) (a : Option RunRecord) : RunGoesOn a (a.map f) := by
  cases a with
  | none => exact .refl _
  | some r =>
    refine ⟨congrArg some (kind r), fun x hx y hy => ?_⟩
    cases hx
    cases hy
    exact settled r

/-- b comes from a by work on the slots of S, which advances no counter but c: LBP's answers, CU and the pending mode
values stay, the run goes on, every notice raised stays on its way, and the other slots keep their records and their
code items. -/
structure Chip.Works (S : Fin 128 → Prop) (c : Counter) (a b : Chip) : Prop where
  counters : ∀ k, k ≠ c → b.counter k = a.counter k
  pendingMap : b.cpm.pendingMap = a.cpm.pendingMap
  strayNoticed : b.lbp.strayNoticed = a.lbp.strayNoticed
  responses : b.lbp.responses = a.lbp.responses
  cu : b.cu = a.cu
  run : RunGoesOn a.rc.run b.rc.run
  nextWrite : a.cpm.nextWrite ≤ b.cpm.nextWrite
  notices : ∀ id index w0 w1, a.Offers (.notice id index w0 w1) → b.Offers (.notice id index w0 w1)
  slots : ∀ j, ¬S j → b.slot j = a.slot j
  queued : ∀ j, ¬S j → a.QueuesCode j → b.QueuesCode j

namespace Chip.Works

variable {S : Fin 128 → Prop} {c : Counter} {a p q : Chip}

theorem refl (S : Fin 128 → Prop) (c : Counter) (p : Chip) : p.Works S c p where
  counters := fun _ _ => rfl
  pendingMap := rfl
  strayNoticed := rfl
  responses := rfl
  cu := rfl
  run := .refl _
  nextWrite := Nat.le_refl _
  notices := fun _ _ _ _ => id
  slots := fun _ _ => rfl
  queued := fun _ _ => id

theorem trans (h : a.Works S c p) (k : p.Works S c q) : a.Works S c q where
  counters := fun x ne => (k.counters x ne).trans (h.counters x ne)
  pendingMap := k.pendingMap.trans h.pendingMap
  strayNoticed := k.strayNoticed.trans h.strayNoticed
  responses := k.responses.trans h.responses
  cu := k.cu.trans h.cu
  run := h.run.trans k.run
  nextWrite := h.nextWrite.trans k.nextWrite
  notices := fun id index w0 w1 x => k.notices id index w0 w1 (h.notices id index w0 w1 x)
  slots := fun j out => (k.slots j out).trans (h.slots j out)
  queued := fun j out x => k.queued j out (h.queued j out x)

/-- A notice raised stays on its way. -/
theorem raises (h : p.Works S c q) {n : Notice} (raised : a.Raises p n) : a.Raises q n := by
  obtain ⟨id, index, new, offered⟩ := raised
  exact ⟨id, index, new, h.notices _ _ _ _ offered⟩

/-- Reports are such work, on no slot. -/
theorem reports (h : a.Works S c p) (k : p.Reports q) : a.Works S c q :=
  h.trans { refl S c p with
    counters := fun x _ => k.counter x
    pendingMap := by rw [k.cpm]
    strayNoticed := by rw [k.lbp]
    responses := by rw [k.lbp]
    cu := k.cu
    run := k.rc ▸ .refl _
    nextWrite := k.nextWrite
    notices := fun _ _ _ _ => k.offers _
    slots := fun j _ => k.slot j
    queued := fun j _ x => by unfold Chip.QueuesCode; rw [k.ce]; exact x }

/-- An update of none of it. -/
theorem update (h : a.Works S c p) (counters : q.cpm.counters = p.cpm.counters := by rfl)
    (pendingMap : q.cpm.pendingMap = p.cpm.pendingMap := by rfl)
    (nextWrite : q.cpm.nextWrite = p.cpm.nextWrite := by rfl)
    (strayNoticed : q.lbp.strayNoticed = p.lbp.strayNoticed := by rfl)
    (responses : q.lbp.responses = p.lbp.responses := by rfl) (cu : q.cu = p.cu := by rfl)
    (mp : q.mp = p.mp := by rfl) (slots : q.slots = p.slots := by rfl)
    (queue : q.ce.queue = p.ce.queue := by rfl) (run : q.rc.run = p.rc.run := by rfl) : a.Works S c q :=
  h.trans { refl S c p with
    counters := fun x _ => by unfold Chip.counter; rw [counters]
    pendingMap := pendingMap
    strayNoticed := strayNoticed
    responses := responses
    cu := cu
    run := run ▸ .refl _
    nextWrite := nextWrite ▸ Nat.le_refl _
    notices := fun _ _ _ _ x => by unfold Chip.Offers; rw [mp]; exact x
    slots := fun j _ => by unfold Chip.slot; rw [slots]
    queued := fun j _ x => by unfold Chip.QueuesCode; rw [queue]; exact x }

theorem foldl {α : Type} {f : Chip → α → Chip} (hf : ∀ q x, a.Works S c q → a.Works S c (f q x)) (l : List α)
    (h : a.Works S c p) : a.Works S c (l.foldl f p) :=
  List.foldlRecOn l f h fun q hq x _ => hf q x hq

end Chip.Works

section

variable {S : Fin 128 → Prop} {c : Counter} {a p : Chip}

/-! ## Requests of MP -/

theorem Chip.offer_works (r : Req) (h : a.Works S c p) : a.Works S c (p.offer r) :=
  h.reports (Chip.offer_reports r p)

/-- A withdrawal leaves every other request that waits. -/
theorem Chip.offers_withdraw {r x : Req} (ne : x ≠ r) (h : p.Offers x) : (p.withdraw r).Offers x := by
  obtain ⟨o, member, rfl⟩ := h
  have queues : (p.withdraw r).mp.queues = (p.mp.remove r).queues := by
    unfold Chip.withdraw Mp.withdraw
    dsimp only
    split <;> rfl
  refine ⟨o, ?_, rfl⟩
  rw [queues]
  unfold Mp.remove
  simp only [Fin.getElem_fin, Vector.getElem_set] at member ⊢
  split
  · rename_i same
    have : r.cls = o.req.cls := Fin.ext same
    rw [List.mem_eraseP_of_neg (by simpa using ne)]
    simpa [this] using member
  · exact member

theorem Chip.withdraw_works {r : Req} (other : ∀ id index w0 w1, Req.notice id index w0 w1 ≠ r)
    (h : a.Works S c p) : a.Works S c (p.withdraw r) :=
  h.trans { Chip.Works.refl S c p with
    notices := fun _ _ _ _ => Chip.offers_withdraw (other _ _ _ _) }

/-! ## Slots, counters and the run -/

theorem Chip.setSlot_works {i : Fin 128} (on : S i) (x : Slot) (h : a.Works S c p) : a.Works S c (p.setSlot i x) :=
  h.trans { Chip.Works.refl S c p with
    slots := fun _ out => Chip.slot_setSlot_other x p fun same => out (same ▸ on) }

theorem Chip.modSlot_works {i : Fin 128} (on : S i) (f : Slot → Slot) (h : a.Works S c p) :
    a.Works S c (p.modSlot i f) := Chip.setSlot_works on _ h

theorem Chip.bump_works (n : Nat) (h : a.Works S c p) : a.Works S c (p.bump c n) :=
  h.trans { Chip.Works.refl S c p with counters := fun _ ne => Chip.counter_bump_other n p ne }

theorem Chip.modRun_works {f : RunRecord → RunRecord} (kind : ∀ r, (f r).kind = r.kind)
    (settled : ∀ r, r.settledCount ≤ (f r).settledCount) (h : a.Works S c p) : a.Works S c (p.modRun f) :=
  h.trans { Chip.Works.refl S c p with run := .map kind settled _ }

theorem Chip.moveWindow_works (h : a.Works S c p) : a.Works S c p.moveWindow :=
  Chip.modRun_works (fun _ => rfl) (fun _ => Nat.le_refl _) h

theorem Chip.settle_works (h : a.Works S c p) : a.Works S c p.settle :=
  Chip.modRun_works (fun _ => rfl) (fun _ => Nat.le_succ _) h

/-! ## Reports and results -/

theorem Chip.raise_works (n : Notice) (h : a.Works S c p) : a.Works S c (p.raise n) :=
  h.reports (Chip.raise_reports n p)

theorem Chip.noteStatus_works (h : a.Works S c p) : a.Works S c p.noteStatus := h.reports (Chip.noteStatus_reports p)

theorem Chip.offerResult_works (r : Result) (closes : Option Nat) (h : a.Works S c p) :
    a.Works S c (p.offerResult r closes) :=
  (Chip.offer_works _ h).trans { Chip.Works.refl S c _ with nextWrite := Nat.le_succ _ }

theorem Chip.report_works (outcome : ReqOutcome) (detail : Nat) (h : a.Works S c p) :
    a.Works S c (p.report outcome detail) := by
  unfold Chip.report
  dsimp only
  split
  · exact Chip.noteStatus_works h
  · exact (Chip.offerResult_works _ _ (Chip.noteStatus_works h)).update

theorem Chip.handOmit_works (segment : Nat) (h : a.Works S c p) : a.Works S c (p.handOmit segment) := by
  unfold Chip.handOmit
  split
  · exact h.update
  · exact h

/-! ## CE's items (R77, R79) -/

theorem Chip.setJob_works (j : Option CeJob) (h : a.Works S c p) : a.Works S c (p.setJob j) := h.update

theorem Chip.queueItem_works (it : CeItem) (h : a.Works S c p) : a.Works S c (p.queueItem it) :=
  h.trans { Chip.Works.refl S c p with
    queued := fun _ _ ⟨e, member, codes⟩ => ⟨e, List.mem_append_left _ member, codes⟩ }

theorem Chip.unqueue_works {out : CeItem → Bool} (keeps : ∀ j, ¬S j → ∀ it, it.codes j = true → out it = false)
    (h : a.Works S c p) : a.Works S c (p.unqueue out) :=
  h.trans { Chip.Works.refl S c p with
    queued := fun j no ⟨e, member, codes⟩ =>
      ⟨e, List.mem_filter.mpr ⟨member, by rw [keeps j no e.item codes]; rfl⟩, codes⟩ }

theorem Chip.noteAux_works (j : DecodeJob) (h : a.Works S c p) : a.Works S c (p.noteAux j) := by
  have mism : a.Works S c (if mismatchedBlocks j.segment j.aux = 0 then p
      else p.raise (.tMismatch j.segment (mismatchedBlocks j.segment j.aux))) := by
    split
    · exact h
    · exact Chip.raise_works _ h
  unfold Chip.noteAux
  dsimp only
  split
  · exact Chip.raise_works _ mism
  · exact mism

theorem Chip.decodeAdvance_works (j : DecodeJob) (h : a.Works S c p) : a.Works S c (p.decodeAdvance j) := by
  unfold Chip.decodeAdvance
  dsimp only
  split
  · exact Chip.offer_works _ (Chip.setJob_works _ h)
  · split
    · exact Chip.setJob_works _ (Chip.noteAux_works j h)
    · exact Chip.offer_works _ (Chip.setJob_works _ (Chip.noteAux_works j h))

theorem CeItem.decodes_of_codes {it : CeItem} {i j : Fin 128} (h : it.codes j = true) : it.decodes i = false := by
  cases it with
  | decode => cases h
  | code => rfl

theorem CeItem.codes_other {it : CeItem} {i j : Fin 128} (h : it.codes j = true) (ne : j ≠ i) : it.codes i = false := by
  cases it with
  | decode => cases h
  | code s =>
    have same : s = j := by simpa [CeItem.codes] using h
    simpa [CeItem.codes, same] using ne

theorem Chip.withdrawCode_works (h : a.Works S c p) : a.Works S c (p.withdraw .codeEngine) :=
  Chip.withdraw_works (fun _ _ _ _ => nofun) h

theorem Chip.voidDecode_works (i : Fin 128) (h : a.Works S c p) : a.Works S c (p.voidDecode i) := by
  have left : a.Works S c (p.unqueue (CeItem.decodes i)) :=
    Chip.unqueue_works (fun _ _ _ codes => CeItem.decodes_of_codes codes) h
  unfold Chip.voidDecode
  dsimp only
  split
  · split
    · split
      · exact Chip.setJob_works _ left
      · exact Chip.decodeAdvance_works _ (Chip.withdrawCode_works left)
      · exact Chip.setJob_works _ (Chip.withdrawCode_works left)
    · exact left
  · exact left

theorem Chip.voidCode_works {i : Fin 128} (on : S i) (h : a.Works S c p) : a.Works S c (p.voidCode i) := by
  have left : a.Works S c (p.unqueue (CeItem.codes i)) :=
    Chip.unqueue_works (fun j out _ codes => CeItem.codes_other codes fun same => out (same ▸ on)) h
  unfold Chip.voidCode
  dsimp only
  split
  · split
    · split
      · split
        · exact Chip.setJob_works _ left
        · exact Chip.setJob_works _ left
      · exact Chip.setJob_works _ (Chip.withdrawCode_works left)
    · exact left
  · exact left

/-! ## The undo stack, saves and loads (R161 to R169) -/

theorem Chip.offerMirror_works (place : Nat) (ws : List Word) (h : a.Works S c p) :
    a.Works S c (p.offerMirror place ws) := Chip.offer_works _ h

theorem Chip.freeImage_works (u : Fin 256) (h : a.Works S c p) : a.Works S c (p.freeImage u) := h.update

theorem Chip.pushEntry_works (e : StackEntry) (h : a.Works S c p) : a.Works S c (p.pushEntry e) :=
  (Chip.offerMirror_works _ _ h).update

theorem Chip.freeNamed_works (e : StackEntry) (h : a.Works S c p) : a.Works S c (p.freeNamed e) := by
  unfold Chip.freeNamed
  split
  · exact Chip.freeImage_works _ h
  · exact h

theorem Chip.popEntry_works (h : a.Works S c p) : a.Works S c p.popEntry := by
  unfold Chip.popEntry
  split
  · exact h
  · exact Chip.freeNamed_works _ (Chip.offerMirror_works _ _ h).update

theorem Chip.dropEntry_works (h : a.Works S c p) : a.Works S c p.dropEntry := by
  unfold Chip.dropEntry
  split
  · exact h
  · exact Chip.freeNamed_works _ (Chip.offerMirror_works _ _ h).update

theorem Chip.dropRun_works (h : a.Works S c p) : a.Works S c p.dropRun :=
  Chip.Works.foldl (fun _ _ => Chip.dropEntry_works) _ h

theorem secure_works (met : Ecu → Bool) (n : Nat) (h : a.Works S c p) : a.Works S c (secure met n p) := by
  induction n generalizing p with
  | zero => exact h
  | succ n ih =>
    unfold secure
    split
    · exact h
    · exact ih (Chip.dropRun_works h)

theorem Chip.secureWords_works (n : Nat) (h : a.Works S c p) : a.Works S c (p.secureWords n) := secure_works _ _ h

theorem Chip.saveProceed_works (h : a.Works S c p) : a.Works S c p.saveProceed := by
  unfold Chip.saveProceed
  split
  · split
    · split
      · split
        · exact h
        · exact h.update
      · split
        · exact Chip.offer_works _ h.update
        · exact h
    · exact h
  · exact h

theorem Chip.voidSaving_works (j : SaveJob) (h : a.Works S c p) : a.Works S c (p.voidSaving j) := by
  have freed := Chip.freeImage_works j.save.image h
  unfold Chip.voidSaving
  dsimp only
  split
  · exact Chip.saveProceed_works freed.update
  · exact Chip.withdraw_works (fun _ _ _ _ => nofun) freed.update

/-- The saves of a slot out of ECU: the part of `Chip.voidSave` before the slot's record. -/
def Chip.dropSaves (i : Fin 128) (p : Chip) : Chip :=
  let p := (p.ecu.saves.filter fun x => x.slot == i).foldl (fun p x => p.freeImage x.image) p
  let p := { p with ecu := { p.ecu with saves := p.ecu.saves.filter fun x => x.slot != i } }
  match p.ecu.saving with
  | some j => if j.save.slot = i ∧ j.void = false then p.voidSaving j else p
  | none => p

/-- A slot whose save is void (R164). -/
def Slot.saveVoided (x : Slot) : Slot := if x.undoSave = .inProgress then { x with undoSave := .none } else x

theorem Chip.voidSave_eq (i : Fin 128) (p : Chip) : p.voidSave i = (p.dropSaves i).modSlot i Slot.saveVoided := rfl

theorem Chip.dropSaves_works (i : Fin 128) (h : a.Works S c p) : a.Works S c (p.dropSaves i) := by
  have freed : a.Works S c ((p.ecu.saves.filter fun x => x.slot == i).foldl (fun p x => p.freeImage x.image) p) :=
    Chip.Works.foldl (fun _ _ => Chip.freeImage_works _) _ h
  unfold Chip.dropSaves
  dsimp only
  split
  · split
    · exact Chip.voidSaving_works _ freed.update
    · exact freed.update
  · exact freed.update

theorem Chip.voidSave_works {i : Fin 128} (on : S i) (h : a.Works S c p) : a.Works S c (p.voidSave i) :=
  Chip.modSlot_works on _ (Chip.dropSaves_works i h)

theorem Chip.beginLoad_works (l : Load) (h : a.Works S c p) : a.Works S c (p.beginLoad l) :=
  Chip.offer_works _ h.update

theorem Chip.voidLoad_works (i : Fin 128) (h : a.Works S c p) : a.Works S c (p.voidLoad i) := by
  unfold Chip.voidLoad
  split
  · exact Chip.withdraw_works (fun _ _ _ _ => nofun) h.update
  · exact h

theorem Chip.withdrawFetch_works (h : a.Works S c p) : a.Works S c p.withdrawFetch := by
  unfold Chip.withdrawFetch
  split
  · exact Chip.withdraw_works (fun _ _ _ _ => nofun) h.update
  · exact h

theorem Chip.withdrawFetchOf_works (i : Fin 128) (h : a.Works S c p) : a.Works S c (p.withdrawFetchOf i) := by
  unfold Chip.withdrawFetchOf
  split
  · split
    · exact Chip.withdrawFetch_works h
    · exact h
  · exact h

/-! ## The slot table -/

section

variable {i : Fin 128} (on : S i)

include on

theorem Chip.queueDecode_works (h : a.Works S c p) : a.Works S c (p.queueDecode i) :=
  Chip.queueItem_works _ (Chip.setSlot_works on _ h)

omit on in
theorem Chip.queueTest_works (h : a.Works S c p) : a.Works S c (p.queueTest i) := by
  unfold Chip.queueTest
  dsimp only
  split
  · exact h
  · split
    · exact Chip.queueItem_works _ h
    · exact h

theorem Chip.releaseSlot_works (h : a.Works S c p) : a.Works S c (p.releaseSlot i) := by
  unfold Chip.releaseSlot
  exact Chip.modSlot_works on _ (Chip.withdrawFetchOf_works i (Chip.voidLoad_works i (Chip.voidSave_works on
    (Chip.voidCode_works on (Chip.voidDecode_works i h)))))

theorem Chip.release_works (h : a.Works S c p) : a.Works S c (p.release i) :=
  Chip.moveWindow_works (Chip.releaseSlot_works on h)

theorem Chip.releaseTest_works (h : a.Works S c p) : a.Works S c (p.releaseTest i) := by
  unfold Chip.releaseTest
  split
  · exact Chip.release_works on h
  · exact h

theorem Chip.discardWrite_works (h : a.Works S c p) : a.Works S c (p.discardWrite i) := by
  unfold Chip.discardWrite
  exact Chip.modSlot_works on _ (Chip.withdrawFetchOf_works i (Chip.voidLoad_works i (Chip.voidSave_works on
    (Chip.voidCode_works on h))))

theorem Chip.setAside_works (h : a.Works S c p) : a.Works S c (p.setAside i) :=
  Chip.settle_works (Chip.modSlot_works on _ (Chip.voidSave_works on h))

theorem Chip.closeByDue_works (h : a.Works S .underrun p) : a.Works S .underrun (p.closeByDue i) :=
  Chip.queueTest_works (Chip.bump_works 1 (Chip.modSlot_works on _ h))

theorem Chip.claimPassed_works (r : RunRecord) (h : a.Works S .underrun p) :
    a.Works S .underrun (p.claimPassed r i) := by
  unfold Chip.claimPassed
  dsimp only
  split
  · exact h
  · exact Chip.closeByDue_works on h
  · split
    · exact h
    · exact Chip.settle_works (Chip.discardWrite_works on (Chip.raise_works _ (Chip.handOmit_works _ h)))
  · split
    · exact h
    · exact Chip.release_works on (Chip.settle_works (Chip.handOmit_works _ (Chip.discardWrite_works on h)))

omit on in
theorem Chip.beginLoadOf_works (h : a.Works S c p) : a.Works S c (p.beginLoadOf i) := by
  unfold Chip.beginLoadOf
  dsimp only
  split
  · exact Chip.beginLoad_works _ h
  · exact h

theorem Chip.claimSlot_works (r : RunRecord) (q : Nat) (h : a.Works S .underrun p) :
    a.Works S .underrun (p.claimSlot r q i) := by
  have claimed := Chip.setSlot_works on (p.claimedSlot r q (p.slot i)) h
  have decoding := Chip.queueDecode_works on claimed
  unfold Chip.claimSlot
  dsimp only
  split <;> split
  · exact Chip.claimPassed_works on r decoding
  · exact Chip.claimPassed_works on r claimed
  · exact Chip.beginLoadOf_works decoding
  · exact Chip.beginLoadOf_works claimed

end

/-! ## Cursor moves and claims (R48, R89) -/

/-- A claim works on a slot that is free. -/
theorem Chip.claim_works (free : ∀ i, (p.slot i).claimed = false → S i) (q : Nat) (h : a.Works S .underrun p) :
    a.Works S .underrun (p.claim q) := by
  unfold Chip.claim
  split
  · exact h
  · dsimp only
    split
    · exact h
    · rename_i unclaimed
      exact Chip.claimSlot_works (free _ (Bool.eq_false_iff.mpr unclaimed)) _ _ h

/-- A pass of the cursor works on no slot, but on the gap that a REVERT run releases. -/
theorem Chip.passCursor_works {r : RunRecord} (revert : r.kind = .revert → ∀ i, S i) (h : a.Works S c p) :
    a.Works S c (p.passCursor r) := by
  unfold Chip.passCursor
  dsimp only
  split
  · rename_i gap
    exact Chip.release_works (revert gap.1 _) h.update
  · exact h.update

theorem Chip.cursorStep_works {q : Chip} (revert : p.runKind = some .revert → ∀ i, S i) (moved : p.cursorStep = some q)
    (h : a.Works S c p) : a.Works S c q := by
  unfold Chip.cursorStep at moved
  split at moved
  · cases moved
  · rename_i r found
    split at moved
    · cases moved
      exact Chip.passCursor_works (fun kind => revert (by unfold Chip.runKind; rw [found]; exact congrArg some kind)) h
    · cases moved

/-- The progress after an event works on the slots that are free, and in a REVERT run on any. -/
theorem progressLoop_works (free : ∀ i, (a.slot i).claimed = false → S i)
    (revert : a.runKind = some .revert → ∀ i, S i) (n : Nat) (h : a.Works S .underrun p) :
    a.Works S .underrun (progressLoop n p) := by
  induction n generalizing p with
  | zero => exact h
  | succ n ih =>
    have kind : p.runKind = a.runKind := h.run.1
    have free' : ∀ i, (p.slot i).claimed = false → S i := fun i unclaimed => by
      by_contra out
      exact out (free i (h.slots i out ▸ unclaimed))
    unfold progressLoop
    split
    · rename_i moved
      exact ih (Chip.cursorStep_works (kind ▸ revert) moved h)
    · split
      · exact ih (Chip.claim_works free' _ h)
      · exact h

theorem Chip.progress_works (free : ∀ i, (p.slot i).claimed = false → S i)
    (revert : p.runKind = some .revert → ∀ i, S i) : p.Works S .underrun p.progress := by
  unfold Chip.progress
  split
  · exact .refl _ _ _
  · exact progressLoop_works free revert _ (.refl _ _ _)

theorem Chip.offerFetch_works (h : a.Works S c p) : a.Works S c p.offerFetch := by
  unfold Chip.offerFetch
  split
  · exact h
  · split
    · exact Chip.offer_works _ h.update
    · exact h

/-! ## The end of a run (R120) -/

theorem Chip.setClip_works (k : Fin 4) (x : Clip) (h : a.Works S c p) : a.Works S c (p.setClip k x) := h.update

theorem Chip.endClip_works (r : RunRecord) (h : a.Works S c p) : a.Works S c (p.endClip r) := by
  unfold Chip.endClip
  split
  · exact Chip.setClip_works _ _ h
  · exact h

theorem Chip.endSaves_works (r : RunRecord) (h : a.Works S c p) : a.Works S c (p.endSaves r) :=
  (Chip.pushEntry_works _ (Chip.secureWords_works 4 h)).update

theorem Chip.endEcu_works (r : RunRecord) (cause : EndCause) (h : a.Works S c p) : a.Works S c (p.endEcu r cause) := by
  unfold Chip.endEcu
  split
  · exact Chip.endSaves_works r (Chip.endClip_works r h)
  · split
    · exact Chip.Works.foldl (fun _ _ => Chip.popEntry_works) _ h
    · exact h
  · exact h
  · exact h

theorem Chip.answerStop_works (cause : EndCause) (omitted : Nat) (h : a.Works S c p) :
    a.Works S c (p.answerStop cause omitted) := by
  unfold Chip.answerStop
  split
  · split
    · exact Chip.report_works _ _ h
    · exact h
  · exact h

/-- With no map pending, the pending mode values move nothing but the values in force. -/
theorem Chip.applyPending_works (noMap : p.cpm.pendingMap = none) (h : a.Works S c p) :
    a.Works S c p.applyPending := by
  have held {α : Type} (x : Option α) {apply : α → Chip → Chip}
      (steady : ∀ m q, a.Works S c q → a.Works S c (apply m q)) {q : Chip} (hq : a.Works S c q) :
      a.Works S c (q.applyHeld x apply) := by
    unfold Chip.applyHeld
    split
    · exact steady _ q hq
    · exact hq
  unfold Chip.applyPending
  dsimp only
  rw [noMap]
  refine held _ (fun m q hq => hq.update) (held _ (fun m q hq => hq.update) (held _ (fun m q hq => hq.update) ?_))
  exact h.update (pendingMap := noMap.symm)

theorem Chip.enterIdle_works (noMap : p.cpm.pendingMap = none) (cause : EndCause) (h : a.Works S c p) :
    a.Works S c (p.enterIdle cause) := by
  unfold Chip.enterIdle
  split
  · exact h
  · rename_i r found
    have idle : p.Works S c { p with rc := ⟨.idle, some { r with endCause := cause, drainTimer := none }⟩ } :=
      { Chip.Works.refl S c p with
        run := by
          rw [found]
          exact RunGoesOn.map (f := fun r => { r with endCause := cause, drainTimer := none }) (fun _ => rfl)
            (fun _ => Nat.le_refl _) (some r) }
    have told := Chip.noteStatus_works (Chip.raise_works (.runEnd r.tag cause r.kind (r.pops cause))
      (Chip.endEcu_works r cause idle))
    exact Chip.answerStop_works _ _ (h.trans (Chip.applyPending_works (told.pendingMap.trans noMap) told))

theorem Chip.checkEnd_works (noMap : p.cpm.pendingMap = none) (h : a.Works S c p) : a.Works S c p.checkEnd := by
  unfold Chip.checkEnd
  split
  · exact h
  · split
    · exact h
    · split
      · exact Chip.enterIdle_works noMap _ h
      · exact h
    · split
      · exact Chip.enterIdle_works noMap _ h
      · exact h

/-- What follows an event, no map pending, works on the slots that are free, and in a REVERT run on any. -/
theorem Chip.finish_works (noMap : p.cpm.pendingMap = none) (free : ∀ i, (p.slot i).claimed = false → S i)
    (revert : p.runKind = some .revert → ∀ i, S i) : p.Works S .underrun p.finish := by
  have moved := Chip.progress_works free revert
  exact Chip.noteStatus_works (Chip.offerFetch_works (Chip.checkEnd_works (moved.pendingMap.trans noMap) moved))

/-! ## A pending map applied (R20, R28): the counters alone -/

/-- Work on whatever slots. -/
def anySlot : Fin 128 → Prop := fun _ => True

theorem Chip.unpin_works {i : Fin 128} (on : S i) (h : a.Works S c p) : a.Works S c (p.unpin i) :=
  Chip.releaseTest_works on (Chip.modSlot_works on _ h)

theorem Chip.dropCapture_works (x : Capture) (h : a.Works anySlot c p) : a.Works anySlot c (p.dropCapture x) := by
  have dropped {q : Chip} (hq : a.Works anySlot c q) : a.Works anySlot c (((List.range (x.count - x.segment)).foldl
      (fun (p : Chip) g => p.unpin (slotOf (x.first + x.segment + g)))
        { q with ecu := { q.ecu with capture := none } }).setClip x.clip Clip.reset) :=
    Chip.setClip_works _ _ (Chip.Works.foldl (fun _ _ => Chip.unpin_works trivial) _ hq.update)
  unfold Chip.dropCapture
  dsimp only
  split
  · exact dropped h
  · exact dropped (Chip.withdraw_works (fun _ _ _ _ => nofun) h)

theorem Chip.endCaptureForMap_works (h : a.Works anySlot c p) : a.Works anySlot c p.endCaptureForMap := by
  unfold Chip.endCaptureForMap
  split
  · exact Chip.report_works _ _ (Chip.dropCapture_works _ h)
  · exact h

theorem Chip.releaseAll_works (h : a.Works anySlot c p) : a.Works anySlot c p.releaseAll := by
  unfold Chip.releaseAll
  refine Chip.Works.foldl (fun q i hq => ?_) _ (Chip.Works.foldl (fun q i hq => ?_) _ h)
  · split
    · exact Chip.modSlot_works trivial _ hq
    · exact hq
  · split
    · exact Chip.releaseSlot_works trivial hq
    · exact hq

theorem Chip.foldl_cpm {α : Type} {f : Chip → α → Chip} (same : ∀ q x, (f q x).cpm = q.cpm) (l : List α) (p : Chip) :
    (l.foldl f p).cpm = p.cpm :=
  List.foldlRecOn (motive := fun q : Chip => q.cpm = p.cpm) l f rfl fun q hq x _ => (same q x).trans hq

theorem Chip.endReadEvals_cpm (p : Chip) : p.endReadEvals.cpm = p.cpm := by
  unfold Chip.endReadEvals
  refine Chip.foldl_cpm (fun q e => ?_) _ p
  dsimp only
  split
  · rfl
  · rfl

theorem Chip.releaseReads_cpm (p : Chip) : p.releaseReads.cpm = p.cpm := by
  unfold Chip.releaseReads
  refine Chip.foldl_cpm (fun q e => ?_) _ p
  split
  · rfl
  · rename_i r tracked
    split
    · obtain ⟨-, -, cpm, -⟩ := Chip.completeRead_completes tracked (List.replicate r.len 0) .none
      rw [Chip.completeZeros_eq tracked, cpm]
    · rfl

theorem Chip.dirtyRunWords_reports (p : Chip) : p.Reports p.dirtyRunWords := by
  unfold Chip.dirtyRunWords
  split
  · exact .refl p
  · exact (Chip.noteStatus_reports p).trans (Chip.markDirty_reports _ _)

theorem Chip.applyMap_counter (m : ModeMap) (p : Chip) {k : Counter} (other : k ≠ .underrun) :
    (p.applyMap m).counter k = p.counter k := by
  have released := Chip.releaseAll_works (Chip.endCaptureForMap_works (.refl anySlot .underrun p))
  unfold Chip.applyMap
  have set (q : Chip) : (q.setMap m).counter k = q.counter k := rfl
  rw [(Chip.dirtyRunWords_reports _).counter, set,
    Chip.counter_of_cpm ((Chip.releaseReads_cpm _).trans (Chip.endReadEvals_cpm _))]
  exact released.counters k other

theorem Chip.applyPending_counter (p : Chip) {k : Counter} (other : k ≠ .underrun) :
    p.applyPending.counter k = p.counter k := by
  have held {α : Type} (x : Option α) {apply : α → Chip → Chip}
      (steady : ∀ m q, (apply m q).counter k = q.counter k) (q : Chip) :
      (q.applyHeld x apply).counter k = q.counter k := by
    unfold Chip.applyHeld
    split
    · exact steady _ q
    · rfl
  unfold Chip.applyPending
  dsimp only
  rw [held (apply := Chip.applyEdit) _ fun _ _ => rfl, held (apply := Chip.applyLink) _ fun _ _ => rfl,
    held (apply := Chip.applySignal) _ fun _ _ => rfl, held _ fun m q => Chip.applyMap_counter m q other]
  rfl

theorem Chip.enterIdle_counter (cause : EndCause) (p : Chip) {k : Counter} (other : k ≠ .underrun) :
    (p.enterIdle cause).counter k = p.counter k := by
  unfold Chip.enterIdle
  split
  · rfl
  · rename_i r found
    rw [(Chip.answerStop_works _ _ (.refl anySlot .underrun _)).counters k other, Chip.applyPending_counter _ other]
    exact (Chip.noteStatus_works (Chip.raise_works _ (Chip.endEcu_works r cause
      (.refl anySlot .underrun _)))).counters k other

theorem Chip.checkEnd_counter (p : Chip) {k : Counter} (other : k ≠ .underrun) :
    p.checkEnd.counter k = p.counter k := by
  unfold Chip.checkEnd
  split
  · rfl
  · split
    · rfl
    · split
      · exact Chip.enterIdle_counter _ _ other
      · rfl
    · split
      · exact Chip.enterIdle_counter _ _ other
      · rfl

/-- What follows an event advances no counter but the underruns. -/
theorem Chip.finish_counter (p : Chip) {k : Counter} (other : k ≠ .underrun) : p.finish.counter k = p.counter k := by
  have moved := Chip.progress_works (S := anySlot) (p := p) (fun _ _ => trivial) fun _ _ => trivial
  have closed := Chip.noteStatus_works (Chip.offerFetch_works (.refl anySlot .underrun p.progress.checkEnd))
  calc p.finish.counter k = p.progress.checkEnd.counter k := closed.counters k other
    _ = p.progress.counter k := Chip.checkEnd_counter _ other
    _ = p.counter k := moved.counters k other

/-! ## The head leaves the queue (R11, R14) -/

theorem Chip.offerRead_works (e : Fin 8) (h : a.Works S c p) : a.Works S c (p.offerRead e) :=
  Chip.offer_works _ h.update

theorem Chip.endWaitAt_works (w : Wait) (e : Fin 8) (h : a.Works S c p) : a.Works S c (p.endWaitAt w e) := by
  unfold Chip.endWaitAt
  dsimp only
  split
  · exact h
  · split
    · split
      · exact Chip.offerRead_works e h.update
      · exact h.update
    · exact h

theorem Chip.leaveQueue_works (w : PostedWrite) (h : a.Works S c p) : a.Works S c (p.leaveQueue w) := by
  have ended : a.Works S c
      (({ p with lbp := { p.lbp with posted := p.lbp.posted.tail } } : Chip).endWait (.posted w.id)) :=
    Chip.Works.foldl (fun _ e hq => Chip.endWaitAt_works _ e hq) _ h.update
  unfold Chip.leaveQueue
  dsimp only
  split
  · exact ended
  · exact Chip.offer_works _ ended

end

end Sys2Proof.Machine


/-! PROOFS. The words of an audio-view burst decided one by one (R7, R8): what a list of them leaves in the slot, in the
counters and among the notices. -/

namespace Sys2Proof.Machine

/-! ## What a word of the burst leaves alone -/

/-- b is a but for the written channels and the clip count of a slot, counters, the stray mark and reports. -/
structure Chip.AroundView (i : Fin 128) (a b : Chip) : Prop where
  lbp : b.lbp = { a.lbp with strayNoticed := b.lbp.strayNoticed }
  cpm : Cpm.SameButCounters a.cpm b.cpm
  slots : Chip.SameSlotsBut i a b
  slot : b.slot i = { a.slot i with written := (b.slot i).written, clipCount := (b.slot i).clipCount }
  ce : b.ce = a.ce
  cu : b.cu = a.cu
  rc : b.rc = a.rc
  nextWrite : a.cpm.nextWrite ≤ b.cpm.nextWrite
  offers : ∀ r, a.Offers r → b.Offers r

namespace Chip.AroundView

variable {i : Fin 128} {a b p : Chip}

theorem refl (i : Fin 128) (p : Chip) : p.AroundView i p :=
  ⟨rfl, rfl, fun _ _ => rfl, rfl, rfl, rfl, rfl, Nat.le_refl _, fun _ => id⟩

theorem trans (h : a.AroundView i p) (k : p.AroundView i b) : a.AroundView i b where
  lbp := by rw [k.lbp, h.lbp]
  cpm := by
    have first := h.cpm
    have second := k.cpm
    unfold Cpm.SameButCounters Cpm.SameButReports at first second ⊢
    rw [second, first]
  slots := fun j other => (k.slots j other).trans (h.slots j other)
  slot := by rw [k.slot, h.slot]
  ce := k.ce.trans h.ce
  cu := k.cu.trans h.cu
  rc := k.rc.trans h.rc
  nextWrite := h.nextWrite.trans k.nextWrite
  offers := fun r x => k.offers r (h.offers r x)

theorem partState (h : a.AroundView i b) : b.cpm.partState = a.cpm.partState := by rw [h.cpm]

theorem pendingMap (h : a.AroundView i b) : b.cpm.pendingMap = a.cpm.pendingMap := by rw [h.cpm]

theorem responses (h : a.AroundView i b) : b.lbp.responses = a.lbp.responses := by rw [h.lbp]

/-- A word is accepted or not whatever words went before it. -/
theorem accepts (h : a.AroundView i b) {place : ViewPlace} (at' : place.slot = i) :
    b.acceptsWord place = a.acceptsWord place := by
  unfold Chip.acceptsWord Chip.needs
  rw [at', h.slot, h.rc]

theorem raises (h : p.AroundView i b) {n : Notice} (raised : a.Raises p n) : a.Raises b n := by
  obtain ⟨id, index, new, offered⟩ := raised
  exact ⟨id, index, new, h.offers _ offered⟩

end Chip.AroundView

/-! ## One word -/

/-- The clamps of an accepted word (R8). -/
def clampOf (data : Word) : Nat := if limit (writtenSample data) = writtenSample data then 0 else 1

/-- The channel of its segment that a place names, from 0 on. -/
def ViewPlace.channelIndex (place : ViewPlace) : Nat := 2 * place.pair + place.channel

/-- A slot with an accepted word: its channel written, its clamp counted (R8, R45, R55). -/
def Slot.withWord (place : ViewPlace) (data : Word) (x : Slot) : Slot :=
  { x with
    written := x.written ||| BitVec.ofNat 384 (2 ^ place.channelIndex)
    clipCount := min Config.clipCountMax (x.clipCount + clampOf data) }

section

variable (place : ViewPlace) (data : Word) (w : PostedWrite) (p : Chip)

theorem Chip.acceptWord_eq : p.acceptWord place data =
    (p.modSlot place.slot (Slot.withWord place data)).bump .clippedSamples (clampOf data) := rfl

theorem Chip.acceptWord_slot :
    (p.acceptWord place data).slot place.slot = (p.slot place.slot).withWord place data := by
  rw [Chip.acceptWord_eq]
  exact Chip.slot_modSlot_same place.slot _ p

theorem Slot.withWord_written {x : Slot} {k : Nat} (lt : k < 384) :
    (x.withWord place data).written.getLsbD k = (x.written.getLsbD k || place.channelIndex == k) := by
  unfold Slot.withWord
  rw [BitVec.getLsbD_or, BitVec.getLsbD_ofNat, Nat.testBit_two_pow, beq_eq_decide, decide_eq_true lt, Bool.true_and]

theorem Chip.acceptWord_around : p.AroundView place.slot (p.acceptWord place data) where
  lbp := rfl
  cpm := rfl
  slots := fun _ other => Chip.slot_modSlot_other (Slot.withWord place data) p other
  slot := by rw [Chip.acceptWord_slot]; rfl
  ce := rfl
  cu := rfl
  rc := rfl
  nextWrite := Nat.le_refl _
  offers := fun _ => id

theorem Chip.acceptWord_counted : p.Counted (p.acceptWord place data) .clippedSamples (clampOf data) :=
  ⟨Chip.counter_bump_same .clippedSamples _ _, fun _ other => Chip.counter_bump_other _ _ other⟩

/-- The first stray word is noticed, any is counted (R7). -/
theorem Chip.strayWord_noticed (i : Fin 128) (noticed : p.lbp.strayNoticed = true) :
    p.strayWord w i = p.bump .stray 1 := by
  unfold Chip.strayWord
  exact if_pos noticed

theorem Chip.strayWord_first (i : Fin 128) (first : p.lbp.strayNoticed = false) :
    p.strayWord w i = ({ p.bump .stray 1 with lbp := { p.lbp with strayNoticed := true } } : Chip).raise
      (.stray (p.slot i).segment w.initiator.val) := by
  unfold Chip.strayWord
  exact if_neg (by rw [Chip.bump_lbp, first]; exact nofun)

theorem Chip.strayWord_marks (i : Fin 128) :
    p.AroundView i (p.strayWord w i) ∧ p.Counted (p.strayWord w i) .stray 1 ∧
      (p.strayWord w i).slot i = p.slot i ∧ (p.strayWord w i).lbp.strayNoticed = true := by
  have counted : p.Counted (p.bump .stray 1) .stray 1 :=
    ⟨Chip.counter_bump_same .stray _ p, fun _ other => Chip.counter_bump_other _ p other⟩
  cases noticed : p.lbp.strayNoticed with
  | true =>
    rw [Chip.strayWord_noticed w p i noticed]
    exact ⟨⟨rfl, rfl, fun _ _ => rfl, rfl, rfl, rfl, rfl, Nat.le_refl _, fun _ => id⟩, counted, rfl, noticed⟩
  | false =>
    rw [Chip.strayWord_first w p i noticed]
    have reports := Chip.raise_reports (.stray (p.slot i).segment w.initiator.val)
      { p.bump .stray 1 with lbp := { p.lbp with strayNoticed := true } }
    have slot (j : Fin 128) := reports.slot j
    have counted' : p.Counted { p.bump .stray 1 with lbp := { p.lbp with strayNoticed := true } } .stray 1 := counted
    exact ⟨⟨by rw [reports.lbp], reports.cpm.sameButCounters rfl, fun j _ => slot j, by rw [slot i]; rfl, reports.ce,
      reports.cu, reports.rc, reports.nextWrite, reports.offers⟩, counted'.reports reports, slot i, by rw [reports.lbp]⟩

theorem Chip.strayWord_raises (i : Fin 128) (first : p.lbp.strayNoticed = false) (isReady : p.cpm.partState = .ready)
    (room : p.RingRoom) : p.Raises (p.strayWord w i) (.stray (p.slot i).segment w.initiator.val) := by
  rw [Chip.strayWord_first w p i first]
  exact Chip.raise_raises _ { p.bump .stray 1 with lbp := { p.lbp with strayNoticed := true } } isReady room

end

/-! ## The words of a burst -/

/-- The word and its number in the burst are accepted (R7). -/
def Chip.takes (p : Chip) (place : ViewPlace) (dk : Word × Nat) : Bool := p.acceptsWord (place.advance dk.2)

/-- The words of a list that clamp (R8). -/
def clampsOf (l : List (Word × Nat)) : Nat :=
  l.countP fun dk => limit (writtenSample dk.1) != writtenSample dk.1

/-- The outgoing word that an accepted word becomes (R7, R8). -/
def viewWrite (base : Nat) (place : ViewPlace) (dk : Word × Nat) : Nat × Word :=
  (outgoingAddr base place.slot (place.advance dk.2).imageWord, word (codeOfSample (limit (writtenSample dk.1))))

/-- One of the words is for the channel. -/
def writesChannel (place : ViewPlace) (l : List (Word × Nat)) (k : Nat) : Bool :=
  l.any fun dk => (place.advance dk.2).channelIndex == k

/-- q comes from p by words of a burst: those of `acc` are accepted, n are stray. -/
structure Chip.TakesWords (w : PostedWrite) (place : ViewPlace) (acc : List (Word × Nat)) (n : Nat) (p q : Chip) :
    Prop where
  around : p.AroundView place.slot q
  stray : p.counter .stray ≤ Config.counterMax → q.counter .stray = min Config.counterMax (p.counter .stray + n)
  clipped : p.counter .clippedSamples ≤ Config.counterMax →
    q.counter .clippedSamples = min Config.counterMax (p.counter .clippedSamples + clampsOf acc)
  others : ∀ c, c ≠ .stray → c ≠ .clippedSamples → q.counter c = p.counter c
  strayNoticed : q.lbp.strayNoticed = (p.lbp.strayNoticed || n != 0)
  noticed : p.cpm.partState = .ready → p.RingRoom → p.lbp.strayNoticed = false → n ≠ 0 →
    p.Raises q (.stray (p.slot place.slot).segment w.initiator.val)
  room : p.lbp.strayNoticed = true ∨ n = 0 → p.RingRoom → q.RingRoom
  written : ∀ k, k < 384 → (q.slot place.slot).written.getLsbD k =
    ((p.slot place.slot).written.getLsbD k || writesChannel place acc k)
  clips : acc ≠ [] → (q.slot place.slot).clipCount =
    min Config.clipCountMax ((p.slot place.slot).clipCount + clampsOf acc)
  untouched : acc = [] → q.slot place.slot = p.slot place.slot

section

variable {w : PostedWrite} {place : ViewPlace} {p q : Chip} {acc : List (Word × Nat)} {n : Nat}

theorem Chip.TakesWords.nil (p : Chip) : p.TakesWords w place [] 0 p where
  around := .refl _ _
  stray := fun bounded => (Nat.min_eq_right bounded).symm
  clipped := fun bounded => (Nat.min_eq_right bounded).symm
  others := fun _ _ _ => rfl
  strayNoticed := by simp
  noticed := fun _ _ _ some => absurd rfl some
  room := fun _ room => room
  written := fun k _ => by simp [writesChannel]
  clips := fun some => absurd rfl some
  untouched := fun _ => rfl

theorem clampsOf_cons (dk : Word × Nat) (l : List (Word × Nat)) : clampsOf (dk :: l) = clampOf dk.1 + clampsOf l := by
  unfold clampsOf clampOf
  rw [List.countP_cons, Nat.add_comm]
  congr 1
  by_cases same : limit (writtenSample dk.1) = writtenSample dk.1
  · simp [same]
  · simp [same]

/-- Steps of a count that stops at m add up. -/
theorem min_add_min (m a b c : Nat) : min m (min m (a + b) + c) = min m (a + (b + c)) := by omega

/-- An accepted word, and the words after it. -/
theorem Chip.TakesWords.accept {dk : Word × Nat}
    (rest : (p.acceptWord (place.advance dk.2) dk.1).TakesWords w place acc n q) :
    p.TakesWords w place (dk :: acc) n q := by
  have around : p.AroundView place.slot _ := Chip.acceptWord_around (place.advance dk.2) dk.1 p
  obtain ⟨counted, uncounted⟩ := Chip.acceptWord_counted (place.advance dk.2) dk.1 p
  have slot : (p.acceptWord (place.advance dk.2) dk.1).slot place.slot =
      (p.slot place.slot).withWord (place.advance dk.2) dk.1 := Chip.acceptWord_slot (place.advance dk.2) dk.1 p
  have lbp : (p.acceptWord (place.advance dk.2) dk.1).lbp = p.lbp := rfl
  have ring : (p.acceptWord (place.advance dk.2) dk.1).RingRoom ↔ p.RingRoom := Iff.rfl
  have raises {m : Notice} (h : (p.acceptWord (place.advance dk.2) dk.1).Raises q m) : p.Raises q m := h
  have segment : ((p.acceptWord (place.advance dk.2) dk.1).slot place.slot).segment = (p.slot place.slot).segment := by
    rw [slot]
    rfl
  generalize p.acceptWord (place.advance dk.2) dk.1 = p' at *
  refine {
    around := around.trans rest.around
    stray := fun bounded => ?_
    clipped := fun bounded => ?_
    others := fun c stray clipped => (rest.others c stray clipped).trans (uncounted c clipped)
    strayNoticed := by rw [rest.strayNoticed, lbp]
    noticed := fun isReady room first some => ?_
    room := fun silent room => rest.room (lbp ▸ silent) (ring.mpr room)
    written := fun k lt => ?_
    clips := fun _ => ?_
    untouched := nofun }
  · have same := uncounted .stray nofun
    rw [rest.stray (same ▸ bounded), same]
  · rw [rest.clipped (counted ▸ Nat.min_le_left _ _), counted, min_add_min, clampsOf_cons]
  · have first' : p'.lbp.strayNoticed = false := lbp ▸ first
    exact segment ▸ raises (rest.noticed (around.partState.trans isReady) (ring.mpr room) first' some)
  · rw [rest.written k lt, slot, Slot.withWord_written _ _ lt, Bool.or_assoc]
    rfl
  · rw [clampsOf_cons]
    cases acc with
    | nil =>
      rw [rest.untouched rfl, slot]
      rfl
    | cons dk' acc' =>
      rw [rest.clips nofun, slot]
      exact min_add_min _ _ _ _

/-- A stray word, and the words after it. -/
theorem Chip.TakesWords.stray_cons (rest : (p.strayWord w place.slot).TakesWords w place acc n q) :
    p.TakesWords w place acc (n + 1) q := by
  obtain ⟨around, ⟨counted, uncounted⟩, slot, marked⟩ := Chip.strayWord_marks w p place.slot
  have first := Chip.strayWord_raises w p place.slot
  have again (noticed : p.lbp.strayNoticed = true) (room : p.RingRoom) : (p.strayWord w place.slot).RingRoom := by
    rw [Chip.strayWord_noticed w p place.slot noticed]
    exact room
  generalize p.strayWord w place.slot = p' at *
  refine {
    around := around.trans rest.around
    stray := fun _ => ?_
    clipped := fun bounded => ?_
    others := fun c stray clipped => (rest.others c stray clipped).trans (uncounted c stray)
    strayNoticed := by rw [rest.strayNoticed, marked]; simp
    noticed := fun isReady room silent _ => rest.around.raises (first silent isReady room)
    room := fun silent room => ?_
    written := fun k lt => by rw [rest.written k lt, slot]
    clips := fun some => by rw [rest.clips some, slot]
    untouched := fun none => (rest.untouched none).trans slot }
  · rw [rest.stray (counted ▸ Nat.min_le_left _ _), counted, min_add_min, Nat.add_comm 1 n]
  · have same := uncounted .clippedSamples nofun
    rw [rest.clipped (same ▸ bounded), same]
  · obtain noticed | none := silent
    · exact rest.room (.inl marked) (again noticed room)
    · cases none

/-- The words of a list decided one by one: the ones the slot takes are accepted, the others stray. -/
theorem foldl_takeWord (w : PostedWrite) (place : ViewPlace) (base : Nat) (l : List (Word × Nat)) (p : Chip)
    (ws : List (Nat × Word)) :
    p.TakesWords w place (l.filter (p.takes place)) (l.countP fun dk => !p.takes place dk)
        (l.foldl (Chip.takeWord w place base) (p, ws)).1 ∧
      (l.foldl (Chip.takeWord w place base) (p, ws)).2 =
        ws ++ (l.filter (p.takes place)).map (viewWrite base place) := by
  induction l generalizing p ws with
  | nil => exact ⟨.nil p, (List.append_nil ws).symm⟩
  | cons dk l ih =>
    have same {p' : Chip} (around : p.AroundView place.slot p') : p'.takes place = p.takes place :=
      funext fun x => around.accepts (place := place.advance x.2) rfl
    rw [List.foldl_cons, List.filter_cons, List.countP_cons]
    cases taken : p.takes place dk with
    | true =>
      have step : Chip.takeWord w place base (p, ws) dk =
          (p.acceptWord (place.advance dk.2) dk.1, ws ++ [viewWrite base place dk]) := if_pos taken
      obtain ⟨rest, writes⟩ := ih (p.acceptWord (place.advance dk.2) dk.1) (ws ++ [viewWrite base place dk])
      rw [same (Chip.acceptWord_around (place.advance dk.2) dk.1 p)] at rest writes
      rw [step]
      exact ⟨rest.accept, writes.trans (by simp)⟩
    | false =>
      have step : Chip.takeWord w place base (p, ws) dk = (p.strayWord w place.slot, ws) :=
        if_neg (Bool.eq_false_iff.mp taken)
      obtain ⟨rest, writes⟩ := ih (p.strayWord w place.slot) ws
      rw [same (Chip.strayWord_marks w p place.slot).1] at rest writes
      rw [step]
      exact ⟨rest.stray_cons, writes⟩

end

/-! ## Words apart (R6) -/

theorem ViewPlace.imageWord_advance (place : ViewPlace) (k : Nat) :
    (place.advance k).imageWord =
      30 * ((place.channelIndex + k) / 24) + (place.channelIndex + k) % 24 := by
  unfold ViewPlace.imageWord ViewPlace.advance ViewPlace.channelIndex
  dsimp only
  omega

/-- Different words of a burst are stored apart. -/
theorem viewWrite_apart (base : Nat) (place : ViewPlace) {x y : Word × Nat} (other : x.2 ≠ y.2) :
    (viewWrite base place x).1 + 4 ≤ (viewWrite base place y).1 ∨
      (viewWrite base place y).1 + 4 ≤ (viewWrite base place x).1 := by
  unfold viewWrite outgoingAddr
  rw [ViewPlace.imageWord_advance, ViewPlace.imageWord_advance]
  dsimp only
  omega

theorem apart_map_viewWrite (base : Nat) (place : ViewPlace) (data : List Word) (taken : Word × Nat → Bool) :
    Apart ((data.zipIdx.filter taken).map (viewWrite base place)) := by
  have numbered : data.zipIdx.Pairwise fun x y => x.2 ≠ y.2 := by
    have numbers : (data.zipIdx.map Prod.snd).Nodup := by
      rw [List.zipIdx_map_snd]
      exact List.nodup_range'
    exact List.pairwise_map.mp numbers
  unfold Apart
  rw [List.pairwise_map]
  exact (numbered.filter taken).imp fun other => viewWrite_apart base place other

end Sys2Proof.Machine


/-! PROOFS. What follows the words of an audio-view burst: the fold, a refusal and the close of the slot (R55, R173 to
R177). -/

namespace Sys2Proof.Machine

/-- Work on one slot. -/
theorem Chip.modSlot_works_self {i : Fin 128} {c : Counter} {a p : Chip} (f : Slot → Slot)
    (h : a.Works (· = i) c p) : a.Works (· = i) c (p.modSlot i f) := Chip.modSlot_works (S := (· = i)) rfl f h

/-! ## The fold (R174) -/

/-- A slot with a burst of a grade and a source folded in. -/
def Slot.folded (g : Grade) (source : Source) (x : Slot) : Slot :=
  { x with
    worstGrade := some (foldGrade x.worstGrade g)
    worstSource := foldSource x.worstGrade x.worstSource g source
    analogWritten := x.analogWritten || source == .analog }

/-- The fold of a burst of an initiator, by the mode values in force. -/
def Chip.foldOf (p : Chip) (initiator : Fin 8) : Slot → Slot :=
  Slot.folded ((p.materialGrade initiator).getD .none) (p.sourceOf initiator)

theorem Chip.foldBurst_eq (initiator : Fin 8) (i : Fin 128) (p : Chip) :
    p.foldBurst initiator i = p.modSlot i (p.foldOf initiator) := rfl

/-- A refused burst is a digital one (R173). -/
theorem Chip.sourceOf_refused {p : Chip} {initiator : Fin 8} (refused : p.materialGrade initiator = none) :
    p.sourceOf initiator = .digital := by
  unfold Chip.materialGrade at refused
  unfold Chip.sourceOf
  split at refused
  · rename_i digital
    exact if_pos digital
  · cases refused

/-! ## A refusal noticed and counted (R175, R176) -/

/-- The notice of a refusal from a slot's record, and its count. -/
def Chip.noteRefusal (kind : RunKind) (initiator : Fin 8) (x : Slot) (p : Chip) : Chip :=
  (p.raise (.refused x.segment kind initiator.val p.cpm.incoming x.analogWritten)).bump .refusedSegments 1

/-- A slot whose material is FILL (R175). -/
def Slot.filled (x : Slot) : Slot := { x with material := .fill }

section

variable {kind : RunKind} {initiator : Fin 8} {x : Slot} {p q : Chip} {i : Fin 128}

theorem Chip.noteRefusal_slot (j : Fin 128) : (p.noteRefusal kind initiator x).slot j = p.slot j :=
  (Chip.raise_reports _ p).slot j

theorem Chip.noteRefusal_rc : (p.noteRefusal kind initiator x).rc = p.rc := (Chip.raise_reports _ p).rc

theorem Chip.noteRefusal_ce : (p.noteRefusal kind initiator x).ce = p.ce := (Chip.raise_reports _ p).ce

theorem Chip.noteRefusal_counter : (p.noteRefusal kind initiator x).counter .refusedSegments =
    min Config.counterMax (p.counter .refusedSegments + 1) := by
  unfold Chip.noteRefusal
  rw [Chip.counter_bump_same, (Chip.raise_reports _ p).counter]

theorem Chip.noteRefusal_raises (isReady : p.cpm.partState = .ready) (room : p.RingRoom) :
    p.Raises (p.noteRefusal kind initiator x)
      (.refused x.segment kind initiator.val p.cpm.incoming x.analogWritten) :=
  Chip.raise_raises _ p isReady room

theorem Chip.noteRefusal_works {S : Fin 128 → Prop} {a : Chip} (h : a.Works S .refusedSegments p) :
    a.Works S .refusedSegments (p.noteRefusal kind initiator x) :=
  Chip.bump_works 1 (Chip.raise_works _ h)

theorem Chip.refuse_edit (edit : p.runKind = some .edit) : p.refuse initiator i =
    ((p.noteRefusal .edit initiator (p.slot i)).setAside i).releaseTest i := by
  unfold Chip.refuse
  dsimp only
  rw [edit]
  rfl

theorem Chip.refuse_record (record : p.runKind ≠ some .edit) : p.refuse initiator i =
    if (p.slot i).material = .fill then p.modSlot i Slot.filled
    else (p.modSlot i Slot.filled).noteRefusal .record initiator (p.slot i) := by
  unfold Chip.refuse
  dsimp only
  split
  · contradiction
  · rfl

theorem Chip.refuse_works {a : Chip} (h : a.Works (· = i) .refusedSegments p) :
    a.Works (· = i) .refusedSegments (p.refuse initiator i) := by
  by_cases edit : p.runKind = some .edit
  · rw [Chip.refuse_edit edit]
    exact Chip.releaseTest_works rfl (Chip.setAside_works rfl (Chip.noteRefusal_works h))
  · rw [Chip.refuse_record edit]
    split
    · exact Chip.modSlot_works_self _ h
    · exact Chip.noteRefusal_works (Chip.modSlot_works_self _ h)

/-! ## The close (R55) -/

theorem Chip.unwritten_eq_zero :
    p.unwritten i = 0 ↔ ∀ k, k < 384 → p.needs i (k / 2) = true → (p.slot i).written.getLsbD k = true := by
  unfold Chip.unwritten
  rw [List.countP_eq_zero]
  constructor
  · intro none k lt needed
    simpa [needed] using none k (List.mem_range.mpr lt)
  · intro all k member
    have lt := List.mem_range.mp member
    cases needed : p.needs i (k / 2) with
    | false => simp
    | true => simp [all k lt needed]

/-- A slot closed (R55). -/
def Slot.closed (x : Slot) : Slot := { x with write := .closed }

theorem Chip.closeIfComplete_complete (filling : (p.slot i).write = .filling) (complete : p.unwritten i = 0) :
    p.closeIfComplete i = (p.modSlot i Slot.closed).queueTest i := if_pos ⟨filling, complete⟩

theorem Chip.closeIfComplete_open (unready : (p.slot i).write ≠ .filling ∨ p.unwritten i ≠ 0) :
    p.closeIfComplete i = p := by
  refine if_neg fun ⟨filling, complete⟩ => ?_
  obtain h | h := unready
  · exact h filling
  · exact h complete

theorem Chip.closeIfComplete_works {c : Counter} {a : Chip} (h : a.Works (· = i) c p) :
    a.Works (· = i) c (p.closeIfComplete i) := by
  unfold Chip.closeIfComplete
  split
  · exact Chip.queueTest_works (Chip.modSlot_works_self _ h)
  · exact h

theorem Chip.queueTest_slots (i : Fin 128) (p : Chip) : (p.queueTest i).slots = p.slots := by
  unfold Chip.queueTest
  dsimp only
  split
  · rfl
  · split
    · rfl
    · rfl

theorem Chip.closeIfComplete_slot (filling : (p.slot i).write = .filling) :
    (p.closeIfComplete i).slot i = if p.unwritten i = 0 then (p.slot i).closed else p.slot i := by
  split
  · rename_i complete
    rw [Chip.closeIfComplete_complete filling complete]
    unfold Chip.slot
    rw [Chip.queueTest_slots]
    exact Chip.slot_modSlot_same i _ p
  · rename_i incomplete
    rw [Chip.closeIfComplete_open (.inr incomplete)]

/-- A slot that meets the conditions of the queue test has a code item queued after it (R57). -/
theorem Chip.queueTest_queues {r : RunRecord} (run : p.rc.run = some r) (claimed : (p.slot i).claimed = true)
    (closed : (p.slot i).write = .closed) (may : p.mayCode r i = true) : (p.queueTest i).QueuesCode i := by
  unfold Chip.queueTest
  dsimp only
  rw [run]
  dsimp only
  split
  · exact ⟨_, List.mem_append_right _ (List.mem_singleton.mpr rfl), by simp [CeItem.codes]⟩
  · rename_i unmet
    have queued : p.ce.queue.any (fun e => e.item.codes i) = true := by
      by_contra none
      exact unmet ⟨claimed, closed, Bool.eq_false_iff.mpr none, may⟩
    exact List.any_eq_true.mp queued

/-! ## The end of a burst -/

/-- The part once a burst is folded and, if it is, refused: what `Chip.endBurst` closes. -/
def Chip.judged (initiator : Fin 8) (i : Fin 128) (p : Chip) : Chip :=
  if (p.materialGrade initiator).isNone then (p.foldBurst initiator i).refuse initiator i
  else p.foldBurst initiator i

theorem Chip.endBurst_eq (initiator : Fin 8) (i : Fin 128) (p : Chip) :
    p.endBurst initiator i = (p.judged initiator i).closeIfComplete i := rfl

theorem Chip.foldBurst_slot : (p.foldBurst initiator i).slot i = p.foldOf initiator (p.slot i) :=
  Chip.slot_modSlot_same i _ p

theorem Chip.foldBurst_works {c : Counter} {a : Chip} (h : a.Works (· = i) c p) :
    a.Works (· = i) c (p.foldBurst initiator i) := by
  rw [Chip.foldBurst_eq]
  exact Chip.modSlot_works_self _ h

theorem Chip.endBurst_works {a : Chip} (h : a.Works (· = i) .refusedSegments p) :
    a.Works (· = i) .refusedSegments (p.endBurst initiator i) := by
  rw [Chip.endBurst_eq]
  refine Chip.closeIfComplete_works ?_
  unfold Chip.judged
  split
  · exact Chip.refuse_works (Chip.foldBurst_works h)
  · exact Chip.foldBurst_works h

theorem Chip.judged_graded {g : Grade} (grade : p.materialGrade initiator = some g) :
    p.judged initiator i = p.foldBurst initiator i := by
  unfold Chip.judged
  rw [grade]
  rfl

theorem Chip.judged_refused (grade : p.materialGrade initiator = none) :
    p.judged initiator i = (p.foldBurst initiator i).refuse initiator i := by
  unfold Chip.judged
  rw [grade]
  rfl

/-- A slot as a burst that is not refused in an EDIT run leaves it: folded, and FILL if the burst is refused. -/
def Chip.judgedSlot (p : Chip) (initiator : Fin 8) (x : Slot) : Slot :=
  if p.materialGrade initiator = none then (p.foldOf initiator x).filled else p.foldOf initiator x

/-- Unless an EDIT run refuses it, a burst changes only the slot's record before the close. -/
theorem Chip.judged_kept (kept : p.runKind ≠ some .edit ∨ p.materialGrade initiator ≠ none) :
    (p.judged initiator i).slot i = p.judgedSlot initiator (p.slot i) ∧ (p.judged initiator i).rc = p.rc ∧
      (p.judged initiator i).ce = p.ce := by
  cases grade : p.materialGrade initiator with
  | some g =>
    rw [Chip.judged_graded grade, Chip.judgedSlot, if_neg (by rw [grade]; exact nofun)]
    exact ⟨Chip.foldBurst_slot, rfl, rfl⟩
  | none =>
    have record : (p.foldBurst initiator i).runKind ≠ some .edit := kept.resolve_right fun h => h grade
    have filled : ((p.foldBurst initiator i).modSlot i Slot.filled).slot i = p.judgedSlot initiator (p.slot i) := by
      rw [Chip.slot_modSlot_same, Chip.foldBurst_slot, Chip.judgedSlot, if_pos grade]
    rw [Chip.judged_refused grade, Chip.refuse_record record]
    split
    · exact ⟨filled, rfl, rfl⟩
    · exact ⟨(Chip.noteRefusal_slot i).trans filled, Chip.noteRefusal_rc, Chip.noteRefusal_ce⟩

theorem Chip.judgedSlot_eq (x : Slot) : p.judgedSlot initiator x = { p.foldOf initiator x with
    material := if p.materialGrade initiator = none then .fill else x.material } := by
  unfold Chip.judgedSlot
  split
  · rfl
  · rfl

theorem Chip.judged_unwritten (kept : p.runKind ≠ some .edit ∨ p.materialGrade initiator ≠ none) :
    (p.judged initiator i).unwritten i = p.unwritten i := by
  obtain ⟨slot, rc, -⟩ := Chip.judged_kept (i := i) kept
  unfold Chip.unwritten Chip.needs
  rw [slot, rc, Chip.judgedSlot_eq]
  rfl

/-- Unless an EDIT run refuses it, a burst leaves its slot folded, and closed if every needed word is written. -/
theorem Chip.endBurst_slot (kept : p.runKind ≠ some .edit ∨ p.materialGrade initiator ≠ none)
    (filling : (p.slot i).write = .filling) : (p.endBurst initiator i).slot i =
      if p.unwritten i = 0 then (p.judgedSlot initiator (p.slot i)).closed
      else p.judgedSlot initiator (p.slot i) := by
  obtain ⟨slot, -, -⟩ := Chip.judged_kept (i := i) kept
  rw [Chip.endBurst_eq, Chip.closeIfComplete_slot (by rw [slot, Chip.judgedSlot_eq]; exact filling),
    Chip.judged_unwritten kept, slot]

/-- A burst that completes its slot has the slot's code item queued, if the slot may be coded (R57). -/
theorem Chip.endBurst_queues {r : RunRecord} (kept : p.runKind ≠ some .edit ∨ p.materialGrade initiator ≠ none)
    (filling : (p.slot i).write = .filling) (complete : p.unwritten i = 0) (run : p.rc.run = some r)
    (claimed : (p.slot i).claimed = true)
    (may : r.kind = .record ∨ (r.kind = .edit ∧ (p.slot i).play = .ready ∧ (p.slot i).undoSave ≠ .inProgress)) :
    (p.endBurst initiator i).QueuesCode i := by
  obtain ⟨slot, rc, -⟩ := Chip.judged_kept (i := i) kept
  have closed : ((p.judged initiator i).modSlot i Slot.closed).slot i =
      (p.judgedSlot initiator (p.slot i)).closed := by
    rw [Chip.slot_modSlot_same, slot]
  rw [Chip.judgedSlot_eq] at slot closed
  rw [Chip.endBurst_eq, Chip.closeIfComplete_complete (by rw [slot]; exact filling)
    (by rw [Chip.judged_unwritten kept]; exact complete)]
  refine Chip.queueTest_queues (r := r) (by rw [Chip.modSlot_rc, rc, run]) (by rw [closed]; exact claimed)
    (by rw [closed]; rfl) ?_
  unfold Chip.mayCode
  obtain record | ⟨edit, ready, saved⟩ := may
  · rw [record]
  · rw [edit, closed]
    exact Bool.and_eq_true_iff.mpr ⟨beq_iff_eq.mpr ready, bne_iff_ne.mpr saved⟩

/-! ### Refusals counted -/

/-- What is left of the end of a burst after the judgement counts nothing and keeps every notice. -/
theorem Chip.endBurst_after (c : Counter) : (p.judged initiator i).Works (· = i) c (p.endBurst initiator i) :=
  Chip.closeIfComplete_works (.refl _ _ _)

theorem Chip.endBurst_counter (k : Counter) :
    (p.endBurst initiator i).counter k = (p.judged initiator i).counter k := by
  cases k with
  | stray => exact (Chip.endBurst_after .underrun).counters _ nofun
  | _ => exact (Chip.endBurst_after .stray).counters _ nofun

/-- A burst that is taken, or refused by a slot that is FILL already, is not counted. -/
theorem Chip.endBurst_uncounted
    (quiet : p.materialGrade initiator ≠ none ∨ (p.runKind = some .record ∧ (p.slot i).material = .fill)) :
    (p.endBurst initiator i).counter .refusedSegments = p.counter .refusedSegments := by
  rw [Chip.endBurst_counter]
  cases grade : p.materialGrade initiator with
  | some g =>
    rw [Chip.judged_graded grade]
    rfl
  | none =>
    obtain ⟨record, fill⟩ := quiet.resolve_left fun h => h grade
    have notEdit : (p.foldBurst initiator i).runKind ≠ some .edit := by
      rw [show (p.foldBurst initiator i).runKind = some .record from record]
      exact nofun
    rw [Chip.judged_refused grade, Chip.refuse_record notEdit, if_pos (by rw [Chip.foldBurst_slot]; exact fill)]
    rfl

/-- A refusal in a RECORD run whose slot is not FILL yet, or in an EDIT run, is noted before all else that follows. -/
theorem Chip.endBurst_notes {kind : RunKind} (grade : p.materialGrade initiator = none)
    (first : (p.runKind = some .edit ∧ kind = .edit) ∨
      (p.runKind = some .record ∧ kind = .record ∧ (p.slot i).material ≠ .fill)) :
    ∃ b : Chip, b.cpm = p.cpm ∧ ∀ c, (b.noteRefusal kind initiator (p.foldOf initiator (p.slot i))).Works (· = i) c
      (p.endBurst initiator i) := by
  have slot : (p.foldBurst initiator i).slot i = p.foldOf initiator (p.slot i) := Chip.foldBurst_slot
  rw [Chip.endBurst_eq, Chip.judged_refused grade]
  obtain ⟨edit, rfl⟩ | ⟨record, rfl, live⟩ := first
  · have edit' : (p.foldBurst initiator i).runKind = some .edit := edit
    rw [Chip.refuse_edit edit', slot]
    exact ⟨p.foldBurst initiator i, rfl, fun c => Chip.closeIfComplete_works (Chip.releaseTest_works rfl
      (Chip.setAside_works rfl (.refl _ _ _)))⟩
  · have record' : (p.foldBurst initiator i).runKind ≠ some .edit := by
      rw [show (p.foldBurst initiator i).runKind = some .record from record]
      exact nofun
    have live' : (p.foldOf initiator (p.slot i)).material ≠ .fill := live
    rw [Chip.refuse_record record', slot, if_neg live']
    exact ⟨(p.foldBurst initiator i).modSlot i Slot.filled, rfl, fun c => Chip.closeIfComplete_works (.refl _ _ _)⟩

/-- Such a refusal is counted, and noticed if the ring has room. -/
theorem Chip.endBurst_refused {kind : RunKind} (grade : p.materialGrade initiator = none)
    (first : (p.runKind = some .edit ∧ kind = .edit) ∨
      (p.runKind = some .record ∧ kind = .record ∧ (p.slot i).material ≠ .fill)) :
    (p.endBurst initiator i).counter .refusedSegments = min Config.counterMax (p.counter .refusedSegments + 1) ∧
      (p.cpm.partState = .ready → p.RingRoom → p.Raises (p.endBurst initiator i)
        (.refused (p.slot i).segment kind initiator.val p.cpm.incoming (p.slot i).analogWritten)) := by
  obtain ⟨b, cpm, later⟩ := Chip.endBurst_notes grade first
  refine ⟨?_, fun isReady room => ?_⟩
  · rw [(later .stray).counters .refusedSegments nofun, Chip.noteRefusal_counter, Chip.counter_of_cpm cpm]
  · have analog : (p.foldOf initiator (p.slot i)).analogWritten = (p.slot i).analogWritten := by
      unfold Chip.foldOf
      rw [Chip.sourceOf_refused grade]
      exact Bool.or_false _
    have room' : b.RingRoom := by
      unfold Chip.RingRoom
      rw [cpm]
      exact room
    have raised := (later .stray).raises (Chip.noteRefusal_raises (kind := kind) (initiator := initiator)
      (x := p.foldOf initiator (p.slot i)) (cpm ▸ isReady) room')
    unfold Chip.Raises at raised ⊢
    rw [cpm, analog] at raised
    exact raised

/-! ### A span write side set aside (R141, R176) -/

theorem Slot.saveVoided_eq (x : Slot) :
    x.saveVoided = { x with undoSave := if x.undoSave = .inProgress then .none else x.undoSave } := by
  unfold Slot.saveVoided
  split
  · rfl
  · rfl

theorem Chip.setAside_slot (i : Fin 128) (p : Chip) :
    (p.setAside i).slot i = { (p.slot i).saveVoided with write := .idle } := by
  have dropped := (Chip.dropSaves_works i (.refl (fun _ => False) .stray p)).slots i id
  unfold Chip.setAside
  rw [Chip.voidSave_eq]
  unfold Chip.settle
  have slot (f : RunRecord → RunRecord) (q : Chip) : (q.modRun f).slot i = q.slot i := rfl
  rw [slot, Chip.slot_modSlot_same, Chip.slot_modSlot_same, dropped]

theorem Chip.setAside_settles {r : RunRecord} (run : p.rc.run = some r) :
    ∃ r', (p.setAside i).rc.run = some r' ∧ r'.kind = r.kind ∧ r.settledCount + 1 ≤ r'.settledCount := by
  have goesOn := (Chip.dropSaves_works i (.refl (fun _ => False) .stray p)).run
  have settled : (p.setAside i).rc.run =
      (p.dropSaves i).rc.run.map fun r => { r with settledCount := r.settledCount + 1 } := rfl
  obtain ⟨kind, more⟩ := goesOn
  rw [settled]
  cases dropped : (p.dropSaves i).rc.run with
  | none =>
    rw [dropped, run] at kind
    cases kind
  | some r' =>
    rw [dropped, run] at kind
    exact ⟨_, rfl, Option.some.inj kind, Nat.succ_le_succ (more r run r' dropped)⟩

/-- A slot that is not yet played, consumed and unpinned stays claimed while an EDIT run is ACTIVE. -/
theorem Chip.releaseTest_stays {r : RunRecord} (run : p.rc.run = some r) (edit : r.kind = .edit)
    (active : p.rc.state ≠ .draining)
    (stays : (p.slot i).play ≠ .ready ∨ (p.slot i).consumed = false ∨ (p.slot i).pins ≠ 0) :
    p.releaseTest i = p := by
  refine if_neg ?_
  unfold Chip.mayRelease
  rw [run]
  dsimp only
  rw [edit, beq_eq_false_iff_ne.mpr active]
  obtain h | h | h := stays <;> simp [h]

/-- A slot as a refused burst of an EDIT run leaves it: folded, its write side set aside. -/
def Chip.setAsideSlot (p : Chip) (initiator : Fin 8) (x : Slot) : Slot :=
  { p.foldOf initiator x with
    write := .idle
    undoSave := if x.undoSave = .inProgress then .none else x.undoSave }

/-- A refused burst sets the write side of an EDIT slot that stays claimed aside, and settles it. -/
theorem Chip.endBurst_setAside {r : RunRecord} (grade : p.materialGrade initiator = none)
    (run : p.rc.run = some r) (edit : r.kind = .edit) (active : p.rc.state = .active)
    (stays : (p.slot i).play ≠ .ready ∨ (p.slot i).consumed = false ∨ (p.slot i).pins ≠ 0) :
    (p.endBurst initiator i).slot i = p.setAsideSlot initiator (p.slot i) ∧
      ∃ r', (p.endBurst initiator i).rc.run = some r' ∧ r.settledCount + 1 ≤ r'.settledCount := by
  have edit' : (p.foldBurst initiator i).runKind = some .edit :=
    show p.rc.run.map RunRecord.kind = some .edit by rw [run]; exact congrArg some edit
  have noted : ((p.foldBurst initiator i).noteRefusal .edit initiator ((p.foldBurst initiator i).slot i)).rc = p.rc :=
    Chip.noteRefusal_rc
  have slot : ((p.foldBurst initiator i).noteRefusal .edit initiator ((p.foldBurst initiator i).slot i)).slot i =
      p.foldOf initiator (p.slot i) := (Chip.noteRefusal_slot i).trans Chip.foldBurst_slot
  rw [Chip.endBurst_eq, Chip.judged_refused grade, Chip.refuse_edit edit']
  generalize (p.foldBurst initiator i).noteRefusal .edit initiator ((p.foldBurst initiator i).slot i) = b at *
  have aside : (b.setAside i).slot i = p.setAsideSlot initiator (p.slot i) := by
    rw [Chip.setAside_slot, slot, Slot.saveVoided_eq]
    rfl
  obtain ⟨r', run', kind, settled⟩ := Chip.setAside_settles (i := i) ((congrArg Rc.run noted).trans run)
  have state : (b.setAside i).rc.state ≠ .draining := by
    rcases (Chip.setAside_cascade i (.refl b)).run with idle | ⟨same, -⟩
    · rw [idle]
      exact nofun
    · rw [same, noted, active]
      exact nofun
  rw [Chip.releaseTest_stays run' (kind.trans edit) state (by rw [aside]; exact stays),
    Chip.closeIfComplete_open (.inl (by rw [aside]; exact nofun))]
  exact ⟨aside, r', run', settled⟩

end

end Sys2Proof.Machine


/-! PROOFS. AUDIO_VIEW_WRITE stores the accepted words, counts, notices, and folds, closes or refuses the slot (O17). -/

namespace Sys2Proof.Machine

/-! ## The parts of the command -/

section

variable (s : State) (w : PostedWrite) (place : ViewPlace)

/-- The words of the burst that the slot takes (R7). -/
def State.viewAccepted : List (Word × Nat) := w.data.zipIdx.filter (s.toChip.takes place)

/-- The part once the words are decided. -/
def State.viewWords : Chip := ((s.toChip.beginGrant .postedWrite).takeWords w place).1

/-- The part once the burst is over. -/
def State.viewBurst : Chip := (s.toChip.beginGrant .postedWrite).takeBurst w place

/-- The part once the head has left the queue and what follows is done. -/
def State.viewDone : Chip := ((s.viewBurst w place).leaveQueue w).finish

theorem execAudioViewWrite_eq (heads : s.Heads w (.audioView place)) : execAudioViewWrite s = .next { s with
    toChip := s.viewDone w place
    mem := Memory.writeWords s.mem ((s.viewAccepted w place).map (viewWrite s.cpm.map.privateBase place)) } := by
  have writes := (foldl_takeWord w place s.cpm.map.privateBase w.data.zipIdx
    (s.toChip.beginGrant .postedWrite) []).2
  obtain ⟨head, row, grant⟩ := heads
  unfold execAudioViewWrite
  cases posted : s.lbp.posted with
  | nil => rw [posted] at head; cases head
  | cons x rest =>
    rw [posted] at head
    cases head
    dsimp only
    rw [row]
    dsimp only
    rw [if_pos grant]
    exact congrArg (fun ws => (.next { s with toChip := s.viewDone w place, mem := Memory.writeWords s.mem ws } : Out))
      writes

theorem countP_not_eq {α : Type} (f : α → Bool) (l : List α) :
    l.countP (fun x => !f x) = l.length - (l.filter f).length := by
  have all := List.length_eq_countP_add_countP f (l := l)
  rw [← List.countP_eq_length_filter]
  simp only [Bool.not_eq_true, Bool.decide_eq_false] at all
  omega

theorem State.viewAccepted_length_le : (s.viewAccepted w place).length ≤ w.data.length :=
  (List.length_filter_le _ _).trans_eq List.length_zipIdx

/-- Some word is stray just if not all are accepted. -/
theorem State.viewStrays_ne_zero :
    w.data.length - (s.viewAccepted w place).length ≠ 0 ↔ (s.viewAccepted w place).length ≠ w.data.length := by
  have := s.viewAccepted_length_le w place
  omega

theorem State.viewWords_takes : (s.toChip.beginGrant .postedWrite).TakesWords w place (s.viewAccepted w place)
    (w.data.length - (s.viewAccepted w place).length) (s.viewWords w place) := by
  have takes := (foldl_takeWord w place s.cpm.map.privateBase w.data.zipIdx
    (s.toChip.beginGrant .postedWrite) []).1
  rw [countP_not_eq, List.length_zipIdx] at takes
  exact takes

theorem State.viewWords_rc : (s.viewWords w place).rc = s.rc := (s.viewWords_takes w place).around.rc

theorem State.viewWords_runKind : (s.viewWords w place).runKind = s.toChip.runKind :=
  congrArg (fun rc : Rc => rc.run.map RunRecord.kind) (s.viewWords_rc w place)

theorem State.viewBurst_eq : s.viewBurst w place =
    if s.viewAccepted w place = [] then s.viewWords w place
    else (s.viewWords w place).endBurst w.initiator place.slot := by
  have writes := (foldl_takeWord w place s.cpm.map.privateBase w.data.zipIdx
    (s.toChip.beginGrant .postedWrite) []).2
  have none : ((s.toChip.beginGrant .postedWrite).takeWords w place).2.isEmpty = true ↔
      s.viewAccepted w place = [] := by
    have base : (s.toChip.beginGrant .postedWrite).cpm.map.privateBase = s.cpm.map.privateBase := rfl
    rw [Chip.takeWords_eq, base, writes, List.nil_append, List.isEmpty_iff, List.map_eq_nil_iff]
    rfl
  unfold State.viewBurst Chip.takeBurst
  simp only [none]
  rfl

theorem State.viewBurst_works :
    (s.viewWords w place).Works (· = place.slot) .refusedSegments (s.viewBurst w place) := by
  rw [State.viewBurst_eq]
  split
  · exact .refl _ _ _
  · exact Chip.endBurst_works (.refl _ _ _)

/-! ## What holds of every burst -/

theorem State.viewDone_posted : (s.viewDone w place).lbp.posted = s.lbp.posted.tail := by
  have burst := (Chip.takeBurst_cascade w place (.refl (s.toChip.beginGrant .postedWrite))).posted
  unfold State.viewDone State.viewBurst
  rw [(Chip.finish_cascade (.refl _)).posted, Chip.leaveQueue_posted, burst]
  rfl

theorem State.viewDone_counter {k : Counter} (other : k ≠ .underrun) :
    (s.viewDone w place).counter k = (s.viewBurst w place).counter k :=
  (Chip.finish_counter _ other).trans ((Chip.leaveQueue_works w (.refl anySlot .underrun _)).counters k other)

theorem State.viewDone_counter_words {k : Counter} (underrun : k ≠ .underrun) (refused : k ≠ .refusedSegments) :
    (s.viewDone w place).counter k = (s.viewWords w place).counter k :=
  (s.viewDone_counter w place underrun).trans ((s.viewBurst_works w place).counters k refused)

theorem State.viewBurst_pendingMap : (s.viewBurst w place).cpm.pendingMap = s.cpm.pendingMap :=
  (s.viewBurst_works w place).pendingMap.trans (s.viewWords_takes w place).around.pendingMap

theorem State.viewBurst_runKind : (s.viewBurst w place).runKind = s.toChip.runKind :=
  (s.viewBurst_works w place).run.1.trans (s.viewWords_runKind w place)

variable {s}

/-- With no map pending, what follows the burst works on the slots that are free, and in a REVERT run on any. -/
theorem State.viewDone_works {S : Fin 128 → Prop} (noMap : s.cpm.pendingMap = none)
    (free : ∀ j, ((s.viewBurst w place).slot j).claimed = false → S j)
    (revert : s.toChip.runKind = some .revert → ∀ j, S j) :
    (s.viewBurst w place).Works S .underrun (s.viewDone w place) := by
  have left := Chip.leaveQueue_works w (.refl S .underrun (s.viewBurst w place))
  have stay := Chip.leaveQueue_works w (.refl (fun _ => False) .underrun (s.viewBurst w place))
  refine left.trans (Chip.finish_works (left.pendingMap.trans ((s.viewBurst_pendingMap w place).trans noMap))
    (fun j unclaimed => free j (stay.slots j id ▸ unclaimed)) fun kind => revert ?_)
  rw [← s.viewBurst_runKind w place, ← kind]
  exact stay.run.1.symm

theorem State.viewDone_calm (noMap : s.cpm.pendingMap = none) :
    (s.viewBurst w place).Works anySlot .underrun (s.viewDone w place) :=
  State.viewDone_works w place noMap (fun _ _ => trivial) fun _ _ => trivial

end

/-! ## The slot of a claimed segment -/

/-- The worst grade after a burst (R174). -/
def worstGradeOf (worst : Option Grade) (g : Grade) : Grade :=
  match worst with
  | none => g
  | some h => if h.code < g.code then g else h

/-- The worst source after a burst (R174). -/
def worstSourceOf (worst : Option Grade) (old : Option Source) (g : Grade) (source : Source) : Option Source :=
  match worst with
  | none => some source
  | some h =>
    if h.code < g.code then some source
    else if h = g ∧ source = .digital then some .digital
    else old

theorem foldGrade_eq (worst : Option Grade) (g : Grade) : foldGrade worst g = worstGradeOf worst g := by
  cases worst with
  | none => rfl
  | some h => cases g <;> cases h <;> rfl

theorem foldSource_eq (worst : Option Grade) (old : Option Source) (g : Grade) (source : Source) :
    foldSource worst old g source = worstSourceOf worst old g source := by
  cases worst with
  | none => rfl
  | some h =>
    unfold foldSource worstSourceOf Grade.below
    by_cases same : h = g <;> by_cases digital : source = .digital <;> simp [same, digital]

/-- A slot with the channels written and the clip count of a burst, its grade and source folded in. -/
def Slot.taken (x : Slot) (g : Grade) (source : Source) (written : BitVec 384) (clips : Nat) : Slot :=
  { x with
    written := written
    clipCount := clips
    worstGrade := some (worstGradeOf x.worstGrade g)
    worstSource := worstSourceOf x.worstGrade x.worstSource g source
    analogWritten := x.analogWritten || source == .analog }

theorem Slot.folded_taken (x : Slot) (g : Grade) (source : Source) (written : BitVec 384) (clips : Nat) :
    Slot.folded g source { x with written := written, clipCount := clips } = x.taken g source written clips := by
  unfold Slot.folded Slot.taken
  rw [foldGrade_eq, foldSource_eq]

section

variable {s : State} {w : PostedWrite} {place : ViewPlace}

theorem State.viewWords_grade :
    (s.viewWords w place).materialGrade w.initiator = s.toChip.materialGrade w.initiator := by
  unfold Chip.materialGrade
  rw [(s.viewWords_takes w place).around.cpm]
  rfl

theorem State.viewWords_source : (s.viewWords w place).sourceOf w.initiator = s.toChip.sourceOf w.initiator := by
  unfold Chip.sourceOf
  rw [(s.viewWords_takes w place).around.cpm]
  rfl

theorem State.viewWords_slot : (s.viewWords w place).slot place.slot = { s.toChip.slot place.slot with
    written := ((s.viewWords w place).slot place.slot).written
    clipCount := ((s.viewWords w place).slot place.slot).clipCount } := (s.viewWords_takes w place).around.slot

/-- The slot's record as the words of a burst and its fold leave it. -/
def State.viewTaken (s : State) (w : PostedWrite) (place : ViewPlace) : Slot :=
  (s.toChip.slot place.slot).taken ((s.toChip.materialGrade w.initiator).getD .none) (s.toChip.sourceOf w.initiator)
    ((s.viewWords w place).slot place.slot).written
    (min Config.clipCountMax ((s.toChip.slot place.slot).clipCount + clampsOf (s.viewAccepted w place)))

theorem State.viewWords_folded (written : s.viewAccepted w place ≠ []) :
    (s.viewWords w place).foldOf w.initiator ((s.viewWords w place).slot place.slot) = s.viewTaken w place := by
  have clips := (s.viewWords_takes w place).clips written
  unfold Chip.foldOf
  rw [State.viewWords_grade, State.viewWords_source, State.viewWords_slot, Slot.folded_taken, clips]
  rfl

/-- Every needed channel of the slot is written once the burst's words are (R55). -/
theorem State.viewWords_complete : (s.viewWords w place).unwritten place.slot = 0 ↔
    ∀ k, k < 384 → s.toChip.needs place.slot (k / 2) = true →
      ((s.toChip.slot place.slot).written.getLsbD k || writesChannel place (s.viewAccepted w place) k) = true := by
  have needs (k : Nat) : (s.viewWords w place).needs place.slot (k / 2) = s.toChip.needs place.slot (k / 2) := by
    unfold Chip.needs
    rw [State.viewWords_rc, State.viewWords_slot]
  rw [Chip.unwritten_eq_zero]
  refine forall_congr' fun k => forall_congr' fun lt => ?_
  rw [needs, (s.viewWords_takes w place).written k lt]
  rfl

/-- An accepted word comes to a FILLING slot of a RECORD or an EDIT run (R7, R48). -/
theorem State.viewAccepted_filling (written : s.viewAccepted w place ≠ []) :
    (s.toChip.slot place.slot).write = .filling ∧
      (s.toChip.runKind = some .record ∨ s.toChip.runKind = some .edit) := by
  obtain ⟨dk, member⟩ := List.exists_mem_of_ne_nil _ written
  have takes : ((s.toChip.slot place.slot).write == .filling &&
      s.toChip.needs place.slot (place.advance dk.2).pair) = true := (List.mem_filter.mp member).2
  obtain ⟨filling, needed⟩ := Bool.and_eq_true_iff.mp takes
  refine ⟨beq_iff_eq.mp filling, ?_⟩
  unfold Chip.needs at needed
  unfold Chip.runKind
  split at needed
  · rename_i r run
    rw [run]
    unfold RunRecord.needs at needed
    cases kind : r.kind with
    | record => exact .inl (congrArg some kind)
    | edit => exact .inr (congrArg some kind)
    | play => rw [kind] at needed; cases needed
    | revert => rw [kind] at needed; cases needed
  · cases needed

theorem State.viewBurst_none (empty : s.viewAccepted w place = []) : s.viewBurst w place = s.viewWords w place := by
  rw [State.viewBurst_eq, if_pos empty]

theorem State.viewBurst_some (written : s.viewAccepted w place ≠ []) :
    s.viewBurst w place = (s.viewWords w place).endBurst w.initiator place.slot := by
  rw [State.viewBurst_eq, if_neg written]

theorem State.viewBurst_slot_other {j : Fin 128} (other : j ≠ place.slot) :
    (s.viewBurst w place).slot j = s.toChip.slot j :=
  ((s.viewBurst_works w place).slots j other).trans ((s.viewWords_takes w place).around.slots j other)

theorem State.viewBurst_slot_none (empty : s.viewAccepted w place = []) :
    (s.viewBurst w place).slot place.slot = s.toChip.slot place.slot := by
  rw [State.viewBurst_none empty]
  exact (s.viewWords_takes w place).untouched empty

/-- The slot's record as a burst that no EDIT run refuses leaves it before the close: FILL if it is refused (R175). -/
def State.viewJudged (s : State) (w : PostedWrite) (place : ViewPlace) : Slot :=
  { s.viewTaken w place with
    material := if s.toChip.materialGrade w.initiator = none then .fill else (s.toChip.slot place.slot).material }

theorem State.viewWords_kept (kept : s.toChip.runKind = some .record ∨ s.toChip.materialGrade w.initiator ≠ none) :
    (s.viewWords w place).runKind ≠ some .edit ∨ (s.viewWords w place).materialGrade w.initiator ≠ none := by
  rw [State.viewWords_runKind, State.viewWords_grade]
  exact kept.imp_left fun record edit => nomatch record.symm.trans edit

/-- A burst that no EDIT run refuses leaves its slot judged, and closed if it is complete. -/
theorem State.viewBurst_slot_kept (written : s.viewAccepted w place ≠ [])
    (kept : s.toChip.runKind = some .record ∨ s.toChip.materialGrade w.initiator ≠ none) :
    (s.viewBurst w place).slot place.slot =
      if (s.viewWords w place).unwritten place.slot = 0 then (s.viewJudged w place).closed
      else s.viewJudged w place := by
  have filling : ((s.viewWords w place).slot place.slot).write = .filling := by
    rw [State.viewWords_slot]
    exact (State.viewAccepted_filling written).1
  have judged : (s.viewWords w place).judgedSlot w.initiator ((s.viewWords w place).slot place.slot) =
      s.viewJudged w place := by
    rw [Chip.judgedSlot_eq, State.viewWords_folded written, State.viewWords_grade, State.viewWords_slot]
    rfl
  rw [State.viewBurst_some written, Chip.endBurst_slot (State.viewWords_kept kept) filling, judged]

/-- Such a burst, once it completes a slot that may be coded, has the slot's code item queued (R57). -/
theorem State.viewBurst_queues (written : s.viewAccepted w place ≠ []) {r : RunRecord}
    (kept : s.toChip.runKind = some .record ∨ s.toChip.materialGrade w.initiator ≠ none)
    (complete : (s.viewWords w place).unwritten place.slot = 0) (run : s.rc.run = some r)
    (claimed : (s.toChip.slot place.slot).claimed = true)
    (may : r.kind = .record ∨ ((s.toChip.slot place.slot).play = .ready ∧
      (s.toChip.slot place.slot).undoSave ≠ .inProgress)) :
    (s.viewBurst w place).QueuesCode place.slot := by
  obtain ⟨filling, kind⟩ := State.viewAccepted_filling written
  have kind' : r.kind = .record ∨ r.kind = .edit := by
    unfold Chip.runKind at kind
    rw [run] at kind
    exact kind.imp Option.some.inj Option.some.inj
  have slot := s.viewWords_slot (w := w) (place := place)
  rw [State.viewBurst_some written]
  refine Chip.endBurst_queues (r := r) (State.viewWords_kept kept) (by rw [slot]; exact filling) complete
    (by rw [State.viewWords_rc, run]) (by rw [slot]; exact claimed) ?_
  rw [slot]
  obtain record | ⟨ready, saved⟩ := may
  · exact .inl record
  · exact kind'.imp_right fun edit => ⟨edit, ready, saved⟩

/-- A refused burst sets the write side of a slot of an EDIT run aside (R141, R176). -/
theorem State.viewBurst_setAside (written : s.viewAccepted w place ≠ []) {r : RunRecord}
    (refused : s.toChip.materialGrade w.initiator = none) (active : s.rc = ⟨.active, some r⟩) (edit : r.kind = .edit)
    (stays : (s.toChip.slot place.slot).play ≠ .ready ∨ (s.toChip.slot place.slot).consumed = false ∨
      (s.toChip.slot place.slot).pins ≠ 0) :
    (s.viewBurst w place).slot place.slot = { s.viewTaken w place with
        write := .idle
        undoSave := if (s.toChip.slot place.slot).undoSave = .inProgress then .none
          else (s.toChip.slot place.slot).undoSave } ∧
      ∃ r', (s.viewBurst w place).rc.run = some r' ∧ r.settledCount + 1 ≤ r'.settledCount := by
  have slot := s.viewWords_slot (w := w) (place := place)
  have rc : (s.viewWords w place).rc = ⟨.active, some r⟩ := (s.viewWords_rc w place).trans active
  have aside := Chip.endBurst_setAside (p := s.viewWords w place) (i := place.slot) (initiator := w.initiator) (r := r)
    (State.viewWords_grade.trans refused) (by rw [rc]) edit (by rw [rc]) (by rw [slot]; exact stays)
  rw [State.viewBurst_some written]
  unfold Chip.setAsideSlot at aside
  rw [State.viewWords_folded written] at aside
  refine ⟨aside.1.trans ?_, aside.2⟩
  rw [slot]

/-! ## Refusals counted (R175, R176) -/

theorem State.viewWords_refusedSegments :
    (s.viewWords w place).counter .refusedSegments = s.toChip.counter .refusedSegments :=
  (s.viewWords_takes w place).others .refusedSegments nofun nofun

theorem State.viewBurst_uncounted (quiet : s.viewAccepted w place = [] ∨ s.toChip.materialGrade w.initiator ≠ none ∨
      (s.toChip.runKind = some .record ∧ (s.toChip.slot place.slot).material = .fill)) :
    (s.viewBurst w place).counter .refusedSegments = s.toChip.counter .refusedSegments := by
  by_cases empty : s.viewAccepted w place = []
  · rw [State.viewBurst_none empty, State.viewWords_refusedSegments]
  · have quiet' := quiet.resolve_left empty
    rw [State.viewBurst_some empty, Chip.endBurst_uncounted, State.viewWords_refusedSegments]
    rw [State.viewWords_grade, State.viewWords_runKind, State.viewWords_slot]
    exact quiet'

/-- A refusal is counted, and noticed if the ring has room that no stray word of the burst takes. -/
theorem State.viewBurst_refused (written : s.viewAccepted w place ≠ []) {kind : RunKind}
    (refused : s.toChip.materialGrade w.initiator = none)
    (first : (s.toChip.runKind = some .edit ∧ kind = .edit) ∨
      (s.toChip.runKind = some .record ∧ kind = .record ∧ (s.toChip.slot place.slot).material ≠ .fill)) :
    (s.viewBurst w place).counter .refusedSegments =
        min Config.counterMax (s.toChip.counter .refusedSegments + 1) ∧
      (s.cpm.partState = .ready → s.toChip.RingRoom →
        (s.lbp.strayNoticed = true ∨ (s.viewAccepted w place).length = w.data.length) →
        s.toChip.Raises (s.viewBurst w place) (.refused (s.toChip.slot place.slot).segment kind w.initiator.val
          s.cpm.incoming (s.toChip.slot place.slot).analogWritten)) := by
  have takes := s.viewWords_takes w place
  have slot := s.viewWords_slot (w := w) (place := place)
  have after := Chip.endBurst_refused (p := s.viewWords w place) (i := place.slot) (kind := kind)
    (State.viewWords_grade.trans refused) (by rw [State.viewWords_runKind, slot]; exact first)
  rw [State.viewBurst_some written]
  obtain ⟨counted, raised⟩ := after
  refine ⟨counted.trans (by rw [State.viewWords_refusedSegments]), fun isReady room silent => ?_⟩
  have room' : (s.viewWords w place).RingRoom :=
    takes.room (silent.imp_right fun all => by rw [all, Nat.sub_self]) room
  obtain ⟨id, index, new, offered⟩ := raised (takes.around.partState.trans isReady) room'
  refine ⟨id, index, takes.around.nextWrite.trans new, ?_⟩
  have incoming : (s.viewWords w place).cpm.incoming = s.cpm.incoming := by
    rw [takes.around.cpm]
    rfl
  rw [slot, incoming] at offered
  exact offered

/-! ## The obligation -/

/-- In an ACTIVE run that is no REVERT run, what follows the burst works on free slots alone. -/
theorem State.viewDone_active (noMap : s.cpm.pendingMap = none) {r : RunRecord} (active : s.rc = ⟨.active, some r⟩)
    (forward : r.kind ≠ .revert) :
    (s.viewBurst w place).Works (fun j => ((s.viewBurst w place).slot j).claimed = false) .underrun
      (s.viewDone w place) := by
  refine State.viewDone_works w place noMap (fun _ unclaimed => unclaimed) fun kind => ?_
  unfold Chip.runKind at kind
  rw [active] at kind
  exact absurd (Option.some.inj kind) forward

/-- The slot's record with the channels it holds after all, folded. -/
def State.viewFolded (s : State) (w : PostedWrite) (place : ViewPlace) : Slot :=
  (s.toChip.slot place.slot).taken ((s.toChip.materialGrade w.initiator).getD .none) (s.toChip.sourceOf w.initiator)
    ((s.viewDone w place).slot place.slot).written
    (min Config.clipCountMax ((s.toChip.slot place.slot).clipCount + clampsOf (s.viewAccepted w place)))

theorem State.viewFolded_eq (same : ((s.viewDone w place).slot place.slot).written =
    ((s.viewWords w place).slot place.slot).written) : s.viewFolded w place = s.viewTaken w place := by
  unfold State.viewFolded State.viewTaken
  rw [same]

section

variable {r : RunRecord} (noMap : s.cpm.pendingMap = none) (active : s.rc = ⟨.active, some r⟩)
  (forward : r.kind ≠ .revert)

include active in
theorem State.viewRun_kind : s.toChip.runKind = some r.kind := by
  unfold Chip.runKind
  rw [active]
  rfl

include noMap active forward

theorem State.viewDone_slot {j : Fin 128} (claimed : ((s.viewBurst w place).slot j).claimed = true) :
    (s.viewDone w place).slot j = (s.viewBurst w place).slot j :=
  (State.viewDone_active noMap active forward).slots j fun unclaimed => by rw [claimed] at unclaimed; cases unclaimed

theorem State.viewDone_slot_other {j : Fin 128} (other : j ≠ place.slot) (claimed : (s.toChip.slot j).claimed = true) :
    (s.viewDone w place).slot j = s.toChip.slot j := by
  have same := State.viewBurst_slot_other (s := s) (w := w) other
  exact (State.viewDone_slot noMap active forward (by rw [same]; exact claimed)).trans same

variable (claimed : (s.toChip.slot place.slot).claimed = true)

include claimed

theorem State.viewDone_slot_none (empty : s.viewAccepted w place = []) :
    (s.viewDone w place).slot place.slot = s.toChip.slot place.slot := by
  have same := State.viewBurst_slot_none empty
  exact (State.viewDone_slot noMap active forward (by rw [same]; exact claimed)).trans same

section

variable (written : s.viewAccepted w place ≠ [])

include written

/-- The record of the slot after a burst that no EDIT run refuses. -/
theorem State.viewDone_kept (kept : r.kind = .record ∨ s.toChip.materialGrade w.initiator ≠ none) :
    (s.viewDone w place).slot place.slot =
      if (s.viewWords w place).unwritten place.slot = 0 then (s.viewJudged w place).closed
      else s.viewJudged w place := by
  have slot := State.viewBurst_slot_kept written
    (kept.imp_left fun record => (State.viewRun_kind active).trans (congrArg some record))
  rw [State.viewDone_slot noMap active forward, slot]
  rw [slot]
  split
  · exact claimed
  · exact claimed

theorem State.viewDone_kept_written (kept : r.kind = .record ∨ s.toChip.materialGrade w.initiator ≠ none) :
    ((s.viewDone w place).slot place.slot).written = ((s.viewWords w place).slot place.slot).written := by
  rw [State.viewDone_kept noMap active forward claimed written kept]
  split
  · rfl
  · rfl

/-- Such a burst that completes the slot closes it, and one that does not leaves it FILLING (R55, R174, R175). -/
theorem State.viewDone_closes (kept : r.kind = .record ∨ s.toChip.materialGrade w.initiator ≠ none) :
    ((s.viewWords w place).unwritten place.slot = 0 → (s.viewDone w place).slot place.slot =
      { s.viewFolded w place with
        write := .closed
        material := if s.toChip.materialGrade w.initiator = none then .fill
          else (s.toChip.slot place.slot).material }) ∧
    ((s.viewWords w place).unwritten place.slot ≠ 0 → (s.viewDone w place).slot place.slot =
      { s.viewFolded w place with
        material := if s.toChip.materialGrade w.initiator = none then .fill
          else (s.toChip.slot place.slot).material }) := by
  have slot := State.viewDone_kept noMap active forward claimed written kept
  rw [State.viewFolded_eq (State.viewDone_kept_written noMap active forward claimed written kept)]
  refine ⟨fun complete => ?_, fun incomplete => ?_⟩
  · rw [slot, if_pos complete]
    rfl
  · rw [slot, if_neg incomplete]
    rfl

/-- A slot that such a burst completes has its code item queued, if it may be coded (R57). -/
theorem State.viewDone_queues (kept : r.kind = .record ∨ s.toChip.materialGrade w.initiator ≠ none)
    (complete : (s.viewWords w place).unwritten place.slot = 0)
    (may : r.kind = .record ∨ ((s.toChip.slot place.slot).play = .ready ∧
      (s.toChip.slot place.slot).undoSave ≠ .inProgress)) : (s.viewDone w place).QueuesCode place.slot := by
  have kept' := kept.imp_left fun record => (State.viewRun_kind active).trans (congrArg some record)
  have queued := State.viewBurst_queues written kept' complete (by rw [active]) claimed may
  refine (State.viewDone_active noMap active forward).queued place.slot (fun unclaimed => ?_) queued
  rw [State.viewBurst_slot_kept written kept', if_pos complete] at unclaimed
  exact Bool.noConfusion (unclaimed.symm.trans claimed)

variable (refused : s.toChip.materialGrade w.initiator = none) (edit : r.kind = .edit)
  (stays : (s.toChip.slot place.slot).play ≠ .ready ∨ (s.toChip.slot place.slot).consumed = false ∨
    (s.toChip.slot place.slot).pins ≠ 0)

include refused edit stays

theorem State.viewDone_aside : (s.viewDone w place).slot place.slot = { s.viewTaken w place with
    write := .idle
    undoSave := if (s.toChip.slot place.slot).undoSave = .inProgress then .none
      else (s.toChip.slot place.slot).undoSave } := by
  obtain ⟨slot, -⟩ := State.viewBurst_setAside written refused active edit stays
  rw [State.viewDone_slot noMap active forward (by rw [slot]; exact claimed), slot]

/-- A refused burst of an EDIT run leaves its slot folded and set aside, and the run one more write side settled. -/
theorem State.viewDone_setAside :
    (s.viewDone w place).slot place.slot = { s.viewFolded w place with
      write := .idle
      undoSave := if (s.toChip.slot place.slot).undoSave = .inProgress then .none
        else (s.toChip.slot place.slot).undoSave } ∧
    ∃ r', (s.viewDone w place).rc.run = some r' ∧ r.settledCount + 1 ≤ r'.settledCount := by
  have slot := State.viewDone_aside noMap active forward claimed written refused edit stays
  obtain ⟨-, r', run, settled⟩ := State.viewBurst_setAside written refused active edit stays
  obtain ⟨goesOn, more⟩ := (State.viewDone_active (w := w) (place := place) noMap active forward).run
  rw [State.viewFolded_eq (by rw [slot]; rfl)]
  refine ⟨slot, ?_⟩
  cases after : (s.viewDone w place).rc.run with
  | none =>
    rw [after, run] at goesOn
    cases goesOn
  | some r'' => exact ⟨r'', rfl, settled.trans (more r' run r'' after)⟩

end

/-- The channels written, where the slot stays claimed. -/
theorem State.viewDone_written (stays : r.kind = .record ∨ s.toChip.materialGrade w.initiator ≠ none ∨
      s.viewAccepted w place = [] ∨ (s.toChip.slot place.slot).play ≠ .ready ∨
      (s.toChip.slot place.slot).consumed = false ∨ (s.toChip.slot place.slot).pins ≠ 0) {k : Nat} (lt : k < 384) :
    ((s.viewDone w place).slot place.slot).written.getLsbD k =
      ((s.toChip.slot place.slot).written.getLsbD k || writesChannel place (s.viewAccepted w place) k) := by
  have same : ((s.viewDone w place).slot place.slot).written = ((s.viewWords w place).slot place.slot).written := by
    by_cases empty : s.viewAccepted w place = []
    · rw [State.viewDone_slot_none noMap active forward claimed empty, ← State.viewBurst_slot_none empty,
        State.viewBurst_none empty]
    · by_cases kept : r.kind = .record ∨ s.toChip.materialGrade w.initiator ≠ none
      · exact State.viewDone_kept_written noMap active forward claimed empty kept
      · obtain ⟨notRecord, refused⟩ := not_or.mp kept
        obtain ⟨-, kind⟩ := State.viewAccepted_filling empty
        rw [State.viewRun_kind active] at kind
        have edit := (kind.imp Option.some.inj Option.some.inj).resolve_left notRecord
        have stays' := ((stays.resolve_left notRecord).resolve_left refused).resolve_left empty
        rw [State.viewDone_aside noMap active forward claimed empty (not_not.mp refused) edit stays']
        rfl
  rw [same]
  exact (s.viewWords_takes w place).written k lt

end

/-- Settles O17: the words, the end of the burst, and what follows, each by its own lemmas. -/
theorem audioViewWriteTakesWords : Obligations.AudioViewWriteTakesWords := by
  unfold Obligations.AudioViewWriteTakesWords
  intro s w place heads wf bounded
  have takes := s.viewWords_takes w place
  have burst := s.viewBurst_works w place
  refine ⟨_, execAudioViewWrite_eq s w place heads, s.viewDone_posted w place,
    stored_writeWords s.mem _ wf (apart_map_viewWrite _ _ _ _),
    (s.viewDone_counter_words (k := .stray) w place nofun nofun).trans (takes.stray (bounded.1 _)),
    (s.viewDone_counter_words (k := .clippedSamples) w place nofun nofun).trans (takes.clipped (bounded.1 _)),
    fun c noStray noClip noRefusal noUnderrun =>
      (s.viewDone_counter_words w place noUnderrun noRefusal).trans (takes.others c noStray noClip),
    fun noMap => ?_, fun r noMap active forward claimed => ?_⟩
  · have calm := State.viewDone_calm w place noMap
    refine ⟨(calm.strayNoticed.trans burst.strayNoticed).trans ?_, fun isReady room first strays => ?_,
      (calm.cu.trans burst.cu).trans takes.around.cu,
      (calm.responses.trans burst.responses).trans takes.around.responses⟩
    · rw [takes.strayNoticed, Bool.eq_iff_iff, Bool.or_eq_true, Bool.or_eq_true, bne_iff_ne, bne_iff_ne]
      exact or_congr_right (s.viewStrays_ne_zero w place)
    · exact calm.raises (burst.raises (takes.noticed isReady room first ((s.viewStrays_ne_zero w place).mpr strays)))
  · have kind : s.toChip.runKind = some r.kind := State.viewRun_kind active
    have refusals : (s.viewDone w place).counter .refusedSegments = (s.viewBurst w place).counter .refusedSegments :=
      s.viewDone_counter w place nofun
    have calm := State.viewDone_active (w := w) (place := place) noMap active forward
    have incomplete := not_congr (s.viewWords_complete (w := w) (place := place))
    refine ⟨fun stays k lt => State.viewDone_written noMap active forward claimed stays lt,
      fun j other held => State.viewDone_slot_other noMap active forward other held,
      fun empty => ⟨State.viewDone_slot_none noMap active forward claimed empty,
        refusals.trans (State.viewBurst_uncounted (.inl empty))⟩,
      fun written kept => ⟨fun complete => ?_, fun unfinished => ?_, fun complete may =>
        State.viewDone_queues noMap active forward claimed written kept (State.viewWords_complete.mpr complete) may⟩,
      fun written quiet => refusals.trans (State.viewBurst_uncounted (.inr (quiet.imp_right fun ⟨record, fill⟩ =>
        ⟨kind.trans (congrArg some record), fill⟩))),
      fun written refused first => ?_, fun written refused edit stays =>
        State.viewDone_setAside noMap active forward claimed written refused edit stays⟩
    · exact (State.viewDone_closes noMap active forward claimed written kept).1 (State.viewWords_complete.mpr complete)
    · exact (State.viewDone_closes noMap active forward claimed written kept).2 (incomplete.mpr unfinished)
    · have noted := State.viewBurst_refused (kind := r.kind) written refused <| by
        obtain ⟨-, record | edit⟩ := State.viewAccepted_filling written
        · have record' := Option.some.inj (kind.symm.trans record)
          exact .inr ⟨record, record', first.resolve_left fun edit => nomatch record'.symm.trans edit⟩
        · exact .inl ⟨edit, Option.some.inj (kind.symm.trans edit)⟩
      exact ⟨refusals.trans noted.1, fun ⟨isReady, room, silent⟩ => calm.raises (noted.2 isReady room silent)⟩

end

end Sys2Proof.Machine


/-! PROOFS. In a READY part no command but PIN_RESET makes a counter fall (O10). -/

namespace Sys2Proof.Machine

/-! ## What an action climbs -/

/-- From a READY part b is READY too, and no counter has fallen or passed its maximum (R26, R36). -/
def Chip.Climbs (a b : Chip) : Prop :=
  a.cpm.partState = .ready → b.cpm.partState = .ready ∧
    ((∀ c : Fin 16, a.cpm.counters[c] ≤ Config.counterMax) →
      ∀ c : Fin 16, a.cpm.counters[c] ≤ b.cpm.counters[c] ∧ b.cpm.counters[c] ≤ Config.counterMax)

namespace Chip.Climbs

variable {a p q : Chip}

theorem refl (p : Chip) : p.Climbs p := fun isReady => ⟨isReady, fun bounded c => ⟨Nat.le_refl _, bounded c⟩⟩

theorem trans (h : a.Climbs p) (k : p.Climbs q) : a.Climbs q := fun isReady => by
  obtain ⟨readyP, countedP⟩ := h isReady
  obtain ⟨readyQ, countedQ⟩ := k readyP
  refine ⟨readyQ, fun bounded c => ?_⟩
  have first := countedP bounded
  have second := countedQ (fun c => (first c).2) c
  exact ⟨(first c).1.trans second.1, second.2⟩

/-- Inner work climbs. -/
theorem cascade (h : a.Climbs p) (k : p.Cascade q) : a.Climbs q :=
  h.trans fun isReady => ⟨k.partState.trans isReady, k.counters⟩

/-- An update of neither the part state nor a counter. -/
theorem update (h : a.Climbs p) (partState : q.cpm.partState = p.cpm.partState := by rfl)
    (counters : q.cpm.counters = p.cpm.counters := by rfl) : a.Climbs q :=
  h.trans fun isReady => ⟨partState.trans isReady, fun bounded c => by
    rw [counters]
    exact ⟨Nat.le_refl _, bounded c⟩⟩

theorem ofCpm (h : a.Climbs p) (cpm : q.cpm = p.cpm) : a.Climbs q :=
  h.update (congrArg Cpm.partState cpm) (congrArg Cpm.counters cpm)

theorem foldl {α : Type} {f : Chip → α → Chip} (hf : ∀ q x, a.Climbs q → a.Climbs (f q x)) (l : List α)
    (h : a.Climbs p) : a.Climbs (l.foldl f p) :=
  List.foldlRecOn l f h fun q hq x _ => hf q x hq

end Chip.Climbs

/-! ## Operations that leave CPM alone -/

section

variable (p : Chip)

@[simp] theorem Chip.openLink_cpm (request : Bool) : (p.openLink request).cpm = p.cpm := by
  cases request <;> rfl

@[simp] theorem Chip.handGrant_cpm : p.handGrant.cpm = p.cpm := by
  unfold Chip.handGrant
  split <;> rfl

@[simp] theorem Chip.releaseCredit_cpm : p.releaseCredit.cpm = p.cpm := by
  unfold Chip.releaseCredit
  dsimp only
  split
  · exact Chip.handGrant_cpm _
  · rfl

@[simp] theorem Chip.unstage_cpm (rest : List StagedRow) : (p.unstage rest).cpm = p.cpm := by
  unfold Chip.unstage
  dsimp only
  split <;> simp

@[simp] theorem Chip.sendRow_cpm (f : RowFetch) (words : List Word) : (p.sendRow f words).cpm = p.cpm := by
  unfold Chip.sendRow
  dsimp only
  split <;> rfl

@[simp] theorem Chip.enterStaging_cpm (row : StagedRow) : (p.enterStaging row).cpm = p.cpm := by
  unfold Chip.enterStaging
  dsimp only
  split
  · exact Chip.releaseCredit_cpm p
  · split <;> rfl

@[simp] theorem Chip.handMissing_cpm (flags : BitVec 8) : (p.handMissing flags).cpm = p.cpm := by
  unfold Chip.handMissing
  split <;> rfl

@[simp] theorem Chip.takeSeq_cpm (seq : BitVec 3) : (p.takeSeq seq).cpm = p.cpm := by
  unfold Chip.takeSeq
  dsimp only
  split
  · rfl
  · exact Chip.handMissing_cpm _ _

@[simp] theorem Chip.newRow_cpm (seq : BitVec 3) (row : StagedRow) : (p.newRow seq row).cpm = p.cpm := by
  unfold Chip.newRow
  dsimp only
  split
  · rfl
  · simp

@[simp] theorem Chip.leave_cpm (f : LaneFrame) : (p.leave f).cpm = p.cpm := by
  cases f with
  | missing flags =>
    unfold Chip.leave
    dsimp only
    split <;> rfl
  | _ => rfl

end

/-! ## Operations that are more than inner work -/

section

variable {a p : Chip}

theorem Chip.setMap_climbs (m : ModeMap) (p : Chip) : p.Climbs (p.setMap m) := (Chip.Climbs.refl p).update

theorem Chip.applyMap_climbs (m : ModeMap) (h : a.Climbs p) : a.Climbs (p.applyMap m) := by
  have released : a.Climbs ((p.endCaptureForMap.releaseAll).endReadEvals).releaseReads :=
    h.cascade (Chip.releaseReads_cascade (Chip.endReadEvals_cascade (Chip.releaseAll_cascade
      (Chip.endCaptureForMap_cascade (.refl p)))))
  exact (released.trans (Chip.setMap_climbs m _)).cascade (Chip.dirtyRunWords_cascade (.refl _))

/-- A mode value of a READY part never enters READY again. -/
theorem Chip.takeMode_climbs {apply hold : Chip → Chip} (mark : WrittenSet → WrittenSet)
    (applied : p.Climbs (apply p)) (held : p.Climbs (hold p)) : p.Climbs (p.takeMode apply hold mark) := by
  intro isReady
  unfold Chip.takeMode
  rw [isReady]
  dsimp only
  split
  · exact applied isReady
  · exact held isReady

theorem Chip.noteClamp_climbs (mode marks : Nat) (p : Chip) : p.Climbs (p.noteClamp mode marks) :=
  (Chip.Climbs.refl p).cascade (Chip.noteClamp_cascade mode marks (.refl p))

theorem Chip.writeMap_climbs (w : PostedWrite) (p : Chip) : p.Climbs (p.writeMap w) := by
  have noted := Chip.noteClamp_climbs 0 (p.cpm.clampMarks 0 mapRanges) p
  unfold Chip.writeMap
  dsimp only
  split
  · exact (Chip.Climbs.refl p).cascade (Chip.raise_cascade _ (.refl _))
  · generalize p.noteClamp 0 (p.cpm.clampMarks 0 mapRanges) = q at noted ⊢
    exact noted.trans (Chip.takeMode_climbs _ (Chip.applyMap_climbs _ (.refl _)) (Chip.Climbs.refl _).update)

theorem Chip.writeSignal_climbs (p : Chip) : p.Climbs p.writeSignal := by
  have noted := Chip.noteClamp_climbs 1 (p.cpm.clampMarks 1 signalRanges) p
  unfold Chip.writeSignal
  dsimp only
  generalize p.noteClamp 1 (p.cpm.clampMarks 1 signalRanges) = q at noted ⊢
  exact noted.trans (Chip.takeMode_climbs _ (Chip.Climbs.refl _).update (Chip.Climbs.refl _).update)

theorem Chip.writeLink_climbs (p : Chip) : p.Climbs p.writeLink := by
  have noted := Chip.noteClamp_climbs 2 (p.cpm.clampMarks 2 linkRanges) p
  unfold Chip.writeLink
  dsimp only
  generalize p.noteClamp 2 (p.cpm.clampMarks 2 linkRanges) = q at noted ⊢
  exact noted.trans (Chip.takeMode_climbs _ (Chip.Climbs.refl _).update (Chip.Climbs.refl _).update)

theorem Chip.writeEdit_climbs (p : Chip) : p.Climbs p.writeEdit := by
  have noted := Chip.noteClamp_climbs 3 (p.cpm.clampMarks 3 editRanges) p
  unfold Chip.writeEdit
  dsimp only
  generalize p.noteClamp 3 (p.cpm.clampMarks 3 editRanges) = q at noted ⊢
  exact noted.trans (Chip.takeMode_climbs _ (Chip.Climbs.refl _).update (Chip.Climbs.refl _).update)

theorem Chip.writeReadIndex_climbs (v : Nat) (p : Chip) : p.Climbs (p.writeReadIndex v) := by
  unfold Chip.writeReadIndex
  split
  · exact (Chip.Climbs.refl p).update
  · exact .refl p

theorem Chip.publish_climbs (index : Nat) (p : Chip) : p.Climbs (p.publish index) := (Chip.Climbs.refl p).update

theorem Chip.requestWord_climbs (kind : RequestKind) (tag : Nat) {act : Chip → Chip}
    (climbs : ∀ q : Chip, q.Climbs (act q)) (p : Chip) : p.Climbs (p.requestWord kind tag act) := by
  have taken (q : Chip) : q.Climbs (act (q.takePending kind tag)) :=
    ((Chip.Climbs.refl q).cascade (Chip.takePending_cascade kind tag (.refl q))).trans (climbs _)
  have ignored : p.Climbs (p.ignoreRequest tag) := (Chip.Climbs.refl p).cascade (Chip.ignoreRequest_cascade _ (.refl _))
  unfold Chip.requestWord
  split
  · exact .refl p
  · split
    · exact taken p
    · split
      · split
        · exact ((Chip.Climbs.refl p).cascade (Chip.abandonFor_cascade _ _ (.refl p))).trans (taken _)
        · exact ignored
      · exact ignored

theorem Chip.report_climbs (o : ReqOutcome) (d : Nat) (h : a.Climbs p) : a.Climbs (p.report o d) :=
  h.cascade (Chip.report_cascade o d (.refl p))

theorem Chip.startChecked_climbs (range : Option (Int × Int)) {act : Chip → Chip} (acted : p.Climbs (act p)) :
    p.Climbs (p.startChecked range act) := by
  unfold Chip.startChecked
  extract_lets outside
  split
  · exact Chip.report_climbs _ _ (.refl p)
  · split
    · exact Chip.report_climbs _ _ (.refl p)
    · split
      · exact Chip.report_climbs _ _ (.refl p)
      · exact acted

theorem Chip.startRun_climbs (r : RunRecord) (p : Chip) : p.Climbs (p.startRun r) := by
  have released : p.Climbs (p.releaseAll.endReadEvals).releaseReads := (Chip.Climbs.refl p).cascade
    (Chip.releaseReads_cascade (Chip.endReadEvals_cascade (Chip.releaseAll_cascade (.refl p))))
  unfold Chip.startRun
  generalize (p.releaseAll.endReadEvals).releaseReads = q at released ⊢
  dsimp only
  refine Chip.Climbs.cascade ?_ (Chip.finish_cascade (Chip.report_cascade _ _ (Chip.dirtyRunWords_cascade
    (Chip.Cascade.foldl (fun q x hq => Chip.claim_cascade x hq) (Chip.placeSlots_cascade r (Chip.startEdit_cascade r
      (.refl _)))))))
  exact released.update

theorem Chip.startPlay_climbs (tag : Nat) (p : Chip) : p.Climbs (p.startPlay tag) := by
  unfold Chip.startPlay
  refine Chip.startChecked_climbs _ ?_
  split
  · exact Chip.report_climbs _ _ (.refl p)
  · exact Chip.startRun_climbs _ p

theorem Chip.startRecord_climbs (tag : Nat) (p : Chip) : p.Climbs (p.startRecord tag) :=
  Chip.startChecked_climbs _ (Chip.startRun_climbs _ p)

theorem Chip.startEditRun_climbs (tag : Nat) (p : Chip) : p.Climbs (p.startEditRun tag) := by
  unfold Chip.startEditRun
  refine Chip.startChecked_climbs _ ?_
  split
  · exact Chip.report_climbs _ _ (.refl p)
  · exact Chip.startRun_climbs _ p

theorem Chip.startRevert_climbs (tag : Nat) (p : Chip) : p.Climbs (p.startRevert tag) := by
  unfold Chip.startRevert
  refine Chip.startChecked_climbs _ ?_
  split
  · exact Chip.report_climbs _ _ (.refl p)
  · split
    · exact Chip.report_climbs _ _ (.refl p)
    · split
      · exact Chip.report_climbs _ _ ((Chip.Climbs.refl p).cascade (Chip.popEntry_cascade (.refl p)))
      · exact Chip.startRun_climbs _ p

theorem Chip.stopRun_climbs (p : Chip) : p.Climbs p.stopRun := by
  have draining : p.Climbs { p with rc := { p.rc with state := .draining } } := (Chip.Climbs.refl p).update
  unfold Chip.stopRun
  split
  · exact draining.cascade (Chip.finish_cascade (Chip.startDrain_cascade (.refl _)))
  · exact Chip.report_climbs _ _ (.refl p)

theorem Chip.clearLink_climbs (request : Bool) (h : a.Climbs p) : a.Climbs (p.clearLink request) := by
  have withdrawn : a.Climbs p.abort.withdrawLink :=
    h.cascade (Chip.withdrawLink_cascade (Chip.abort_cascade (.refl p)))
  have emptied : a.Climbs (p.abort.withdrawLink).emptyLink := withdrawn.update
  exact emptied.cascade (Chip.raise_cascade _ (.refl _))

theorem Chip.failLink_climbs (h : a.Climbs p) : a.Climbs p.failLink := by
  have withdrawn : a.Climbs p.abort.withdrawLink :=
    h.cascade (Chip.withdrawLink_cascade (Chip.abort_cascade (.refl p)))
  unfold Chip.failLink
  dsimp only
  refine Chip.Climbs.cascade ?_ (Chip.raise_cascade _ (.refl _))
  exact withdrawn.update

theorem Chip.linkClearRequest_climbs (p : Chip) : p.Climbs p.linkClearRequest := by
  unfold Chip.linkClearRequest
  refine Chip.report_climbs _ _ (Chip.Climbs.ofCpm ?_ (Chip.openLink_cpm _ _))
  split
  · exact Chip.clearLink_climbs _ (.refl p)
  · exact Chip.clearLink_climbs _ (.refl p)
  · exact .refl p
  · exact .refl p

theorem Chip.comeUp_climbs (h : a.Climbs p) : a.Climbs p.comeUp := by
  unfold Chip.comeUp
  refine Chip.Climbs.cascade ?_ (Chip.raise_cascade _ (Chip.handGrant_cascade (.refl _)))
  exact h.update

theorem Chip.playRow_climbs (seq : BitVec 3) (row : StagedRow) (h : a.Climbs p) : a.Climbs (p.playRow seq row) := by
  have counted := h.cascade (Chip.bump_cascade .rowsReceived 1 (.refl p))
  unfold Chip.playRow
  dsimp only
  split
  · exact counted.ofCpm (Chip.handGrant_cpm _)
  · exact counted.ofCpm (Chip.newRow_cpm _ seq row)

theorem Chip.acknowledge_climbs (n : Nat) (h : a.Climbs p) : a.Climbs (p.acknowledge n) := by
  unfold Chip.acknowledge
  dsimp only
  refine Chip.Climbs.foldl (fun q e hq => ?_) _ (Chip.Climbs.foldl (fun q e hq => ?_) _ ?_)
  · split
    · exact hq.cascade (Chip.rowAcked_cascade e (.refl _))
    · exact hq
  · exact hq.update
  · exact h.update

theorem Chip.takeGrant_climbs (next : BitVec 3) (credits : Nat) (h : a.Climbs p) :
    a.Climbs (p.takeGrant next credits) := by
  have credited : a.Climbs { p with
      dlc := { p.dlc with writeCredits := min Config.creditMax (p.dlc.writeCredits + credits) } } := h.update
  unfold Chip.takeGrant
  dsimp only
  split
  · exact Chip.acknowledge_climbs _ credited
  · exact credited

theorem Chip.ackExpired_climbs (h : a.Climbs p) : a.Climbs p.ackExpired := by
  unfold Chip.ackExpired
  dsimp only
  split
  · exact Chip.failLink_climbs h
  · refine Chip.Climbs.cascade ?_ (Chip.Cascade.foldl (fun q e hq => Chip.resend_cascade e hq) (.refl _))
    exact h.update

end

/-! ## Commands -/

/-- What a command answers climbs from the state it found. -/
def State.Climbs (s : State) (o : Out) : Prop := ∀ t, o = .next t → s.toChip.Climbs t.toChip

namespace State.Climbs

variable {s t : State}

theorem next (h : s.toChip.Climbs t.toChip) : s.Climbs (.next t) := by
  rintro _ ⟨⟩
  exact h

/-- A command turned away (log 5). -/
theorem same (s : State) : s.Climbs (.next s) := next (.refl _)

/-- A command of inner work alone. -/
theorem begun (k : s.toChip.begin.Cascade t.toChip) : s.Climbs (.next t) :=
  next (Chip.Climbs.cascade (Chip.Climbs.refl s.toChip).update k)

/-- A grant followed by inner work alone. -/
theorem granted {r : Req} (k : (s.toChip.beginGrant r).Cascade t.toChip) : s.Climbs (.next t) :=
  next (Chip.Climbs.cascade (Chip.Climbs.refl s.toChip).update k)

end State.Climbs

theorem Chip.begin_climbs (p : Chip) : p.Climbs p.begin := (Chip.Climbs.refl p).update

theorem Chip.beginGrant_climbs (r : Req) (p : Chip) : p.Climbs (p.beginGrant r) := (Chip.Climbs.refl p).update

theorem Chip.leaveQueue_climbs (w : PostedWrite) (p : Chip) : p.Climbs (p.leaveQueue w) :=
  Chip.Climbs.cascade (Chip.Climbs.refl p).update (Chip.leaveQueue_cascade w p)

section

variable (s : State)

/-! ### Grants of the posted-write head -/

/-- A grant of the posted-write head climbs if its effect does. -/
theorem grantHead_climbs (want : WriteAct) {effect : PostedWrite → Chip → Chip}
    (climbs : ∀ (w : PostedWrite) (p : Chip), p.Climbs (effect w p)) : s.Climbs (s.grantHead want effect) := by
  unfold State.grantHead
  split
  · exact .same s
  · rename_i w _ _
    split
    · have placed : s.toChip.Climbs ((s.toChip.beginGrant .postedWrite).placeShadow w) :=
        (Chip.beginGrant_climbs _ _).cascade (Chip.placeShadow_cascade w (.refl _))
      exact .next ((placed.trans (climbs w _)).trans ((Chip.leaveQueue_climbs w _).cascade
        (Chip.noteStatus_cascade (.refl _))))
    · exact .same s

theorem grantRequest_climbs (kind : RequestKind) {act : Nat → Chip → Chip}
    (climbs : ∀ (tag : Nat) (p : Chip), p.Climbs (act tag p)) :
    s.Climbs (s.grantRequest kind act) :=
  grantHead_climbs s _ fun _ p => Chip.requestWord_climbs kind _ (climbs _) p

theorem grantHead_cascade_climbs (want : WriteAct) {effect : PostedWrite → Chip → Chip}
    (inner : ∀ (w : PostedWrite) (p : Chip), p.Cascade (effect w p)) : s.Climbs (s.grantHead want effect) :=
  grantHead_climbs s want fun w p => (Chip.Climbs.refl p).cascade (inner w p)

theorem exec_headRow_climbs {c : Instr} {act : WriteAct} (row : c.headRow = some act) : s.Climbs (exec c s) := by
  cases c with
  | writeGrant => exact grantHead_climbs s _ fun _ p => .refl p
  | modeMapWrite => exact grantHead_climbs s _ Chip.writeMap_climbs
  | modeSignalWrite => exact grantHead_climbs s _ fun _ => Chip.writeSignal_climbs
  | modeLinkWrite => exact grantHead_climbs s _ fun _ => Chip.writeLink_climbs
  | modeEditWrite => exact grantHead_climbs s _ fun _ => Chip.writeEdit_climbs
  | play => exact grantRequest_climbs s _ Chip.startPlay_climbs
  | record => exact grantRequest_climbs s _ Chip.startRecord_climbs
  | edit => exact grantRequest_climbs s _ Chip.startEditRun_climbs
  | revert => exact grantRequest_climbs s _ Chip.startRevert_climbs
  | stop => exact grantRequest_climbs s _ (act := fun _ => Chip.stopRun) fun _ => Chip.stopRun_climbs
  | capture =>
    exact grantRequest_climbs s _ (act := fun _ => Chip.captureClip) fun _ p =>
      .cascade (.refl p) (Chip.captureClip_cascade (.refl p))
  | dropClip =>
    exact grantRequest_climbs s _ (act := fun _ => Chip.dropClip) fun _ p =>
      .cascade (.refl p) (Chip.dropClip_cascade (.refl p))
  | mark =>
    exact grantRequest_climbs s _ (act := fun _ => Chip.markSegment) fun _ p =>
      .cascade (.refl p) (Chip.markSegment_cascade (.refl p))
  | linkClear =>
    exact grantRequest_climbs s _ (act := fun _ => Chip.linkClearRequest) fun _ => Chip.linkClearRequest_climbs
  | badReq =>
    exact grantHead_cascade_climbs s _ (effect := fun w p => p.refuseWord (requestTag (w.wordAt (cellWordAddr 4 7))))
      fun _ p => Chip.refuseWord_cascade _ (.refl p)
  | consumeCountWrite =>
    exact grantHead_cascade_climbs s _ (effect := fun w p => p.writeConsume (w.wordAt consumeCell).toNat) fun _ p =>
      Chip.writeConsume_cascade _ (.refl p)
  | inputStatusWrite =>
    exact grantHead_cascade_climbs s _ (effect := fun w p => p.writeInput w.initiator (w.wordAt inputStatusCell))
      fun _ p => Chip.writeInput_cascade _ _ (.refl p)
  | noticeReadIndexWrite => exact grantHead_climbs s _ fun _ => Chip.writeReadIndex_climbs _
  | _ => cases row

/-! ### One lemma a command -/

theorem execWriteAccept_climbs (initiator : Fin 8) (addr : BusAddr) (data : List Word) :
    s.Climbs (execWriteAccept initiator addr data s) := by
  have post (range : Range) : s.toChip.Climbs (s.toChip.begin.post initiator addr.toNat data range) := by
    unfold Chip.post
    dsimp only
    split
    · exact (Chip.begin_climbs _).update
    · exact (Chip.begin_climbs _).update
  unfold execWriteAccept
  dsimp only
  split
  · exact .begun (Chip.rejectWrite_cascade _ _ (.refl _))
  · split
    · exact .begun (Chip.protectWrite_cascade _ _ (.refl _))
    · split
      · exact .next (post _)
      · exact .same s

theorem execReadAccept_climbs (initiator : Fin 8) (tag : Nat) (addr : BusAddr) (len : Nat) :
    s.Climbs (execReadAccept initiator tag addr len s) := by
  unfold execReadAccept
  dsimp only
  split
  · exact .begun (Chip.respond_cascade _ (.refl _))
  · split
    · exact .begun (Chip.track_cascade _ _ _ _ _ (.refl _))
    · exact .same s

theorem execAudioViewWrite_climbs : s.Climbs (execAudioViewWrite s) := by
  unfold execAudioViewWrite
  split
  · exact .same s
  · rename_i w _ _
    split
    · rename_i place _
      split
      · have burst : s.toChip.Climbs ((s.toChip.beginGrant .postedWrite).takeBurst w place) :=
          (Chip.beginGrant_climbs _ _).cascade (Chip.takeBurst_cascade w place (.refl _))
        exact .next (burst.trans ((Chip.leaveQueue_climbs w _).cascade (Chip.finish_cascade (.refl _))))
      · exact .same s
    · exact .same s

theorem execReadGrant_climbs (e : Fin 8) : s.Climbs (execReadGrant e s) := by
  unfold execReadGrant
  repeat' split
  all_goals first | exact .same s | exact .granted (Chip.completeRead_cascade _ _ _ (.refl _))

theorem execOutputStatusRead_climbs (e : Fin 8) : s.Climbs (execOutputStatusRead e s) := by
  unfold execOutputStatusRead
  repeat' split
  all_goals first | exact .same s | exact .granted (Chip.completeRead_cascade _ _ _ (.refl _))

theorem execAudioViewFetch_climbs (e : Fin 8) : s.Climbs (execAudioViewFetch e s) := by
  have fetched (place : ViewPlace) (ws : List (Nat × WordFlag)) (p : Chip) :
      p.Cascade (match (p.slot place.slot).readable with
        | .ready => p.takeFetched e place ws
        | .arriving => p.holdOnSlot e
        | .checking => p.holdOnSlot e
        | .empty => p.completeZeros e) := by
    split
    · exact Chip.takeFetched_cascade _ _ _ (.refl _)
    · exact Chip.holdOnSlot_cascade _ (.refl _)
    · exact Chip.holdOnSlot_cascade _ (.refl _)
    · exact Chip.completeZeros_cascade _ (.refl _)
  unfold execAudioViewFetch
  split
  · exact .same s
  · split
    · split
      · exact .granted (r := .read e) (Chip.noteStatus_cascade (fetched _ _ _))
      · exact .same s
    · exact .same s

theorem execNeighbourFetch_climbs (evaluation : Nat) : s.Climbs (execNeighbourFetch evaluation s) := by
  unfold execNeighbourFetch
  split
  · exact .same s
  · split
    · exact .same s
    · split
      · exact .granted (Chip.noteStatus_cascade (Chip.proceed_cascade _ (Chip.applyScan_cascade _ _ _ (.refl _))))
      · exact .same s

theorem execReadLate_climbs (e : Fin 8) : s.Climbs (execReadLate e s) := by
  unfold execReadLate
  split
  · exact .same s
  · split
    · exact .begun (Chip.noteStatus_cascade (Chip.becomeLate_cascade _ _ (.refl _)))
    · exact .same s

theorem execStagingWrite_climbs : s.Climbs (execStagingWrite s) := by
  unfold execStagingWrite
  split
  · exact .same s
  · rename_i row rest _
    split
    · have staged := (Chip.beginGrant_climbs .staging s.toChip).cascade (Chip.stageRow_cascade row (.refl _))
      exact .next ((staged.ofCpm (Chip.unstage_cpm _ rest)).cascade (Chip.noteStatus_cascade (.refl _)))
    · exact .same s

theorem execRowFetch_climbs : s.Climbs (execRowFetch s) := by
  unfold execRowFetch
  split
  · exact .same s
  · rename_i f _
    split
    · have taken : s.toChip.Climbs { s.toChip.beginGrant .rowFetch with
          dlc := { (s.toChip.beginGrant .rowFetch).dlc with fetch := none } } := (Chip.Climbs.refl _).update
      refine .next (Chip.Climbs.cascade ?_ (Chip.finish_cascade (.refl _)))
      split
      · exact taken.ofCpm (Chip.sendRow_cpm _ f _)
      · exact taken
    · exact .same s

theorem execCeTakeDecodeItem_climbs (slot : Fin 128) : s.Climbs (execCeTakeDecodeItem slot s) := by
  unfold execCeTakeDecodeItem
  split
  · exact .begun (Chip.offer_cascade _ (Chip.takeItem_cascade _ _ (.refl _)))
  · exact .same s

theorem execCeTakeCodeItem_climbs (slot : Fin 128) : s.Climbs (execCeTakeCodeItem slot s) := by
  unfold execCeTakeCodeItem
  split
  · exact .begun (Chip.beginCoding_cascade _ (Chip.modSlot_cascade _ _ (Nat.le_refl _)
      (Chip.takeItem_cascade _ _ (.refl _))))
  · exact .same s

theorem execDecodeBlockRead_climbs : s.Climbs (execDecodeBlockRead s) := by
  unfold execDecodeBlockRead
  repeat' split
  all_goals first
    | exact .same s
    | exact .granted (Chip.noteStatus_cascade (Chip.decideBlock_cascade _ _ (.refl _)))

theorem execDecodeBlockWrite_climbs : s.Climbs (execDecodeBlockWrite s) := by
  unfold execDecodeBlockWrite
  repeat' split
  all_goals first
    | exact .same s
    | exact .granted (Chip.noteStatus_cascade (Chip.decodeAdvance_cascade _ (.refl _)))

theorem execDecodeFinalWrite_climbs : s.Climbs (execDecodeFinalWrite s) := by
  unfold execDecodeFinalWrite
  repeat' split
  all_goals first | exact .same s | exact .granted (Chip.reportDecode_cascade _ (.refl _))

theorem execCodeFlagMapRead_climbs : s.Climbs (execCodeFlagMapRead s) := by
  unfold execCodeFlagMapRead
  repeat' split
  all_goals first
    | exact .same s
    | exact .granted (Chip.noteStatus_cascade (Chip.startEditCoding_cascade _ _ (.refl _)))

theorem execCodeBlockRead_climbs : s.Climbs (execCodeBlockRead s) := by
  unfold execCodeBlockRead
  repeat' split
  all_goals first | exact .same s | exact .granted (Chip.gatherBlock_cascade _ (.refl _))

theorem execCodeBlockWrite_climbs : s.Climbs (execCodeBlockWrite s) := by
  unfold execCodeBlockWrite
  repeat' split
  all_goals first | exact .same s | exact .granted (Chip.codeAdvance_cascade _ (.refl _))

theorem execCodeSummaryWrite_climbs : s.Climbs (execCodeSummaryWrite s) := by
  unfold execCodeSummaryWrite
  repeat' split
  all_goals first | exact .same s | exact .granted (Chip.reportCode_cascade _ (.refl _))

theorem execCaptureBlockRead_climbs : s.Climbs (execCaptureBlockRead s) := by
  unfold execCaptureBlockRead
  repeat' split
  all_goals first | exact .same s | exact .granted (Chip.captureRead_cascade _ _ (.refl _))

theorem execCaptureBlockWrite_climbs : s.Climbs (execCaptureBlockWrite s) := by
  unfold execCaptureBlockWrite
  repeat' split
  all_goals first | exact .same s | exact .granted (Chip.captureWritten_cascade _ (.refl _))

theorem execSaveTake_climbs : s.Climbs (execSaveTake s) := by
  unfold execSaveTake
  split
  · exact .begun (Chip.takeSave_cascade _ _ (.refl _))
  · exact .same s

theorem execSaveBlockRead_climbs : s.Climbs (execSaveBlockRead s) := by
  unfold execSaveBlockRead
  repeat' split
  all_goals first | exact .same s | exact .granted (Chip.saveRead_cascade _ _ (.refl _))

theorem execSaveBlockWrite_climbs : s.Climbs (execSaveBlockWrite s) := by
  unfold execSaveBlockWrite
  repeat' split
  all_goals first | exact .same s | exact .granted (Chip.saveWritten_cascade _ (.refl _))

theorem execSaveClosingWrite_climbs : s.Climbs (execSaveClosingWrite s) := by
  unfold execSaveClosingWrite
  repeat' split
  all_goals first | exact .same s | exact .granted (Chip.endSave_cascade _ (.refl _))

theorem execLoadBlockRead_climbs (slot : Fin 128) : s.Climbs (execLoadBlockRead slot s) := by
  unfold execLoadBlockRead
  repeat' split
  all_goals first | exact .same s | exact .granted (Chip.offer_cascade _ (Chip.putLoad_cascade _ (.refl _)))

theorem execLoadBlockWrite_climbs (slot : Fin 128) : s.Climbs (execLoadBlockWrite slot s) := by
  unfold execLoadBlockWrite
  repeat' split
  all_goals first | exact .same s | exact .granted (Chip.loadWritten_cascade _ (.refl _))

theorem execStackMirrorWrite_climbs : s.Climbs (execStackMirrorWrite s) := by
  unfold execStackMirrorWrite
  repeat' split
  all_goals first | exact .same s | exact .next (Chip.beginGrant_climbs _ _)

theorem execResultWrite_climbs : s.Climbs (execResultWrite s) := by
  unfold execResultWrite
  repeat' split
  all_goals first
    | exact .same s
    | exact .granted (Chip.closeRequest_cascade _ (Chip.endWait_cascade _ (.refl _)))

theorem execStatusWrite_climbs : s.Climbs (execStatusWrite s) := by
  unfold execStatusWrite
  split
  · split
    · exact .granted (Chip.emptyDirty_cascade (Chip.endWait_cascade _ (.refl _)))
    · exact .same s
  · exact .same s

theorem execNoticeWrite_climbs : s.Climbs (execNoticeWrite s) := by
  unfold execNoticeWrite
  split
  · split
    · exact .next (((Chip.beginGrant_climbs _ _).cascade (Chip.endWait_cascade _ (.refl _))).trans
        (Chip.publish_climbs _ _))
    · exact .same s
  · exact .same s

theorem execOpenedReceived_climbs (frame : List Byte) : s.Climbs (execOpenedReceived frame s) := by
  unfold execOpenedReceived
  split
  · exact .next ((Chip.comeUp_climbs (Chip.begin_climbs _)).cascade (Chip.noteStatus_cascade (.refl _)))
  · exact .same s

theorem execClearReceived_climbs (frame : List Byte) : s.Climbs (execClearReceived frame s) := by
  unfold execClearReceived
  split
  · exact .next (((Chip.clearLink_climbs false (Chip.begin_climbs _)).ofCpm (Chip.openLink_cpm _ _)).cascade
      (Chip.noteStatus_cascade (.refl _)))
  · exact .same s

theorem execPlayRowReceived_climbs (frame : List Byte) : s.Climbs (execPlayRowReceived frame s) := by
  unfold execPlayRowReceived
  repeat' split
  all_goals first
    | exact .same s
    | exact .next ((Chip.playRow_climbs _ _ (Chip.begin_climbs _)).cascade (Chip.noteStatus_cascade (.refl _)))

theorem execGrantReceived_climbs (frame : List Byte) : s.Climbs (execGrantReceived frame s) := by
  unfold execGrantReceived
  repeat' split
  all_goals first
    | exact .same s
    | exact .next ((Chip.takeGrant_climbs _ _ (Chip.begin_climbs _)).cascade (Chip.finish_cascade (.refl _)))

theorem execMissingReceived_climbs (frame : List Byte) : s.Climbs (execMissingReceived frame s) := by
  unfold execMissingReceived
  repeat' split
  all_goals first
    | exact .same s
    | exact .begun (Chip.noteStatus_cascade (Chip.takeMissing_cascade _ (.refl _)))

theorem execDueReceived_climbs (frame : List Byte) : s.Climbs (execDueReceived frame s) := by
  unfold execDueReceived
  repeat' split
  all_goals first | exact .same s | exact .begun (Chip.takeDue_cascade _ (.refl _))

theorem execBadCrcFrame_climbs (frame : List Byte) : s.Climbs (execBadCrcFrame frame s) := by
  unfold execBadCrcFrame
  split
  · exact .begun (Chip.noteStatus_cascade (Chip.dropBad_cascade (.refl _)))
  · exact .same s

theorem execDroppedFrame_climbs (frame : List Byte) : s.Climbs (execDroppedFrame frame s) := by
  unfold execDroppedFrame
  split
  · exact .next (Chip.begin_climbs _)
  · exact .same s

theorem execFrameLeaves_climbs (second : Bool) : s.Climbs (execFrameLeaves second s) := by
  unfold execFrameLeaves
  split
  · exact .same s
  · exact .next ((Chip.Climbs.refl s.toChip).ofCpm (Chip.leave_cpm _ _))

theorem execOpenRetryExpiry_climbs : s.Climbs (execOpenRetryExpiry s) := by
  unfold execOpenRetryExpiry
  split
  · have handed := (Chip.begin_climbs s.toChip).cascade (Chip.handOpen_cascade (.refl _))
    exact .next handed.update
  · exact .same s

theorem execAckTimerExpiry_climbs : s.Climbs (execAckTimerExpiry s) := by
  unfold execAckTimerExpiry
  split
  · exact .next ((Chip.ackExpired_climbs (Chip.begin_climbs _)).cascade (Chip.noteStatus_cascade (.refl _)))
  · exact .same s

theorem execCreditTimerExpiry_climbs : s.Climbs (execCreditTimerExpiry s) := by
  unfold execCreditTimerExpiry
  split
  · have handed := (Chip.begin_climbs s.toChip).cascade (Chip.handGrant_cascade (.refl _))
    exact .next handed.update
  · exact .same s

theorem execDrainTimerExpiry_climbs : s.Climbs (execDrainTimerExpiry s) := by
  unfold execDrainTimerExpiry
  split
  · exact .begun (Chip.drainExpired_cascade (.refl _))
  · exact .same s

/-- Every command but PIN_RESET climbs. -/
theorem exec_climbs {c : Instr} (kept : c ≠ .pinReset) : s.Climbs (exec c s) :=
  match c with
  | .pinReset => absurd rfl kept
  | .writeAccept initiator addr data => execWriteAccept_climbs s initiator addr data
  | .readAccept initiator tag addr len => execReadAccept_climbs s initiator tag addr len
  | .writeGrant => exec_headRow_climbs s (c := .writeGrant) rfl
  | .audioViewWrite => execAudioViewWrite_climbs s
  | .modeMapWrite => exec_headRow_climbs s (c := .modeMapWrite) rfl
  | .modeSignalWrite => exec_headRow_climbs s (c := .modeSignalWrite) rfl
  | .modeLinkWrite => exec_headRow_climbs s (c := .modeLinkWrite) rfl
  | .modeEditWrite => exec_headRow_climbs s (c := .modeEditWrite) rfl
  | .play => exec_headRow_climbs s (c := .play) rfl
  | .record => exec_headRow_climbs s (c := .record) rfl
  | .edit => exec_headRow_climbs s (c := .edit) rfl
  | .revert => exec_headRow_climbs s (c := .revert) rfl
  | .stop => exec_headRow_climbs s (c := .stop) rfl
  | .capture => exec_headRow_climbs s (c := .capture) rfl
  | .dropClip => exec_headRow_climbs s (c := .dropClip) rfl
  | .mark => exec_headRow_climbs s (c := .mark) rfl
  | .linkClear => exec_headRow_climbs s (c := .linkClear) rfl
  | .badReq => exec_headRow_climbs s (c := .badReq) rfl
  | .consumeCountWrite => exec_headRow_climbs s (c := .consumeCountWrite) rfl
  | .inputStatusWrite => exec_headRow_climbs s (c := .inputStatusWrite) rfl
  | .noticeReadIndexWrite => exec_headRow_climbs s (c := .noticeReadIndexWrite) rfl
  | .readGrant entry => execReadGrant_climbs s entry
  | .outputStatusRead entry => execOutputStatusRead_climbs s entry
  | .audioViewFetch entry => execAudioViewFetch_climbs s entry
  | .neighbourFetch evaluation => execNeighbourFetch_climbs s evaluation
  | .readLate entry => execReadLate_climbs s entry
  | .stagingWrite => execStagingWrite_climbs s
  | .rowFetch => execRowFetch_climbs s
  | .ceTakeDecodeItem slot => execCeTakeDecodeItem_climbs s slot
  | .ceTakeCodeItem slot => execCeTakeCodeItem_climbs s slot
  | .decodeBlockRead => execDecodeBlockRead_climbs s
  | .decodeBlockWrite => execDecodeBlockWrite_climbs s
  | .decodeFinalWrite => execDecodeFinalWrite_climbs s
  | .codeFlagMapRead => execCodeFlagMapRead_climbs s
  | .codeBlockRead => execCodeBlockRead_climbs s
  | .codeBlockWrite => execCodeBlockWrite_climbs s
  | .codeSummaryWrite => execCodeSummaryWrite_climbs s
  | .captureBlockRead => execCaptureBlockRead_climbs s
  | .captureBlockWrite => execCaptureBlockWrite_climbs s
  | .saveTake => execSaveTake_climbs s
  | .saveBlockRead => execSaveBlockRead_climbs s
  | .saveBlockWrite => execSaveBlockWrite_climbs s
  | .saveClosingWrite => execSaveClosingWrite_climbs s
  | .loadBlockRead slot => execLoadBlockRead_climbs s slot
  | .loadBlockWrite slot => execLoadBlockWrite_climbs s slot
  | .stackMirrorWrite => execStackMirrorWrite_climbs s
  | .resultWrite => execResultWrite_climbs s
  | .statusWrite => execStatusWrite_climbs s
  | .noticeWrite => execNoticeWrite_climbs s
  | .openedReceived frame => execOpenedReceived_climbs s frame
  | .clearReceived frame => execClearReceived_climbs s frame
  | .playRowReceived frame => execPlayRowReceived_climbs s frame
  | .grantReceived frame => execGrantReceived_climbs s frame
  | .missingReceived frame => execMissingReceived_climbs s frame
  | .dueReceived frame => execDueReceived_climbs s frame
  | .badCrcFrame frame => execBadCrcFrame_climbs s frame
  | .droppedFrame frame => execDroppedFrame_climbs s frame
  | .frameLeaves second => execFrameLeaves_climbs s second
  | .openRetryExpiry => execOpenRetryExpiry_climbs s
  | .ackTimerExpiry => execAckTimerExpiry_climbs s
  | .creditTimerExpiry => execCreditTimerExpiry_climbs s
  | .drainTimerExpiry => execDrainTimerExpiry_climbs s

end

/-- Settles O10: inner work lets counters only grow by its `Cascade` lemma, and nothing else a READY part does touches
one. -/
theorem countersNeverFallWhileReady : Obligations.CountersNeverFallWhileReady := by
  unfold Obligations.CountersNeverFallWhileReady
  intro c s t kept isReady ⟨bounded, _⟩ answer
  obtain ⟨stays, counted⟩ := exec_climbs s kept t answer isReady
  exact ⟨stays, fun k => (counted bounded k.index).1⟩

end Sys2Proof.Machine


/-! PROOFS. What a grant leaves behind: the reads that waited on the write go on (R14), the entry leaves the queue
(R11), and CPM reports (R35); WRITE_GRANT (O16) and the writes of CPM itself (O52). -/

namespace Sys2Proof.Machine

/-! ## Offers that are not made (R16) -/

section

variable {p : Chip} {q r : Req}

theorem Chip.offers_of_offer (other : q ≠ r) (h : (p.offer r).Offers q) : p.Offers q := by
  obtain ⟨o, member, rfl⟩ := h
  rw [Chip.queue_offer] at member
  split at member
  · rcases List.mem_append.mp member with old | new
    · exact ⟨o, old, rfl⟩
    · cases List.mem_singleton.mp new
      exact absurd rfl other
  · exact ⟨o, member, rfl⟩

/-- What raising a notice and reporting offers is in class 7. -/
theorem Chip.offers_of_raise (n : Notice) (other : q.cls ≠ 6) (h : (p.raise n).Offers q) : p.Offers q := by
  unfold Chip.raise at h
  split at h
  · exact h
  · split at h
    · exact h
    · exact Chip.offers_of_offer (fun same => other (same ▸ rfl)) h

theorem Chip.offers_of_markDirty (ws : List Nat) (other : q.cls ≠ 6) (h : (p.markDirty ws).Offers q) :
    p.Offers q := by
  unfold Chip.markDirty at h
  dsimp only at h
  split at h
  · exact h
  · split at h
    · exact h
    · exact Chip.offers_of_offer (fun same => other (same ▸ rfl)) h

theorem Chip.offers_of_noteStatus (other : q.cls ≠ 6) (h : p.noteStatus.Offers q) : p.Offers q := by
  unfold Chip.noteStatus at h
  split at h
  · exact h
  · have kept := Chip.offers_of_markDirty _ other h
    exact kept

end

/-! ## Reads that waited on a write (R14) -/

/-- b is a but for the reads that waited on writes, some of which have been offered. -/
structure Chip.AroundWaits (a b : Chip) : Prop where
  event : b.event = a.event
  posted : b.lbp.posted = a.lbp.posted
  responses : b.lbp.responses = a.lbp.responses
  outRecord : b.lbp.outRecord = a.lbp.outRecord
  strayNoticed : b.lbp.strayNoticed = a.lbp.strayNoticed
  cpm : b.cpm = a.cpm
  tape : Chip.SameTape a b
  dlc : b.dlc = a.dlc
  offers : ∀ r, a.Offers r → b.Offers r
  noOffers : ∀ r, (∀ e, r ≠ .read e) → b.Offers r → a.Offers r
  reads : ∀ e, (∀ r, a.read e = some r → r.state ≠ .waiting) → b.read e = a.read e

theorem Chip.SameTape.refl (p : Chip) : Chip.SameTape p p := ⟨rfl, rfl, rfl, rfl, rfl⟩

theorem Chip.SameTape.trans {a b c : Chip} (h : Chip.SameTape a b) (k : Chip.SameTape b c) : Chip.SameTape a c := by
  obtain ⟨slots, ce, cu, rc, ecu⟩ := h
  obtain ⟨slots', ce', cu', rc', ecu'⟩ := k
  exact ⟨slots'.trans slots, ce'.trans ce, cu'.trans cu, rc'.trans rc, ecu'.trans ecu⟩

namespace Chip.AroundWaits

variable {a p q : Chip}

theorem refl (p : Chip) : p.AroundWaits p :=
  ⟨rfl, rfl, rfl, rfl, rfl, rfl, .refl p, rfl, fun _ => id, fun _ _ => id, fun _ _ => rfl⟩

theorem trans (h : a.AroundWaits p) (k : p.AroundWaits q) : a.AroundWaits q where
  event := k.event.trans h.event
  posted := k.posted.trans h.posted
  responses := k.responses.trans h.responses
  outRecord := k.outRecord.trans h.outRecord
  strayNoticed := k.strayNoticed.trans h.strayNoticed
  cpm := k.cpm.trans h.cpm
  tape := h.tape.trans k.tape
  dlc := k.dlc.trans h.dlc
  offers := fun r x => k.offers r (h.offers r x)
  noOffers := fun r other x => h.noOffers r other (k.noOffers r other x)
  reads := fun e idle => by
    have same := h.reads e idle
    exact (k.reads e (same ▸ idle)).trans same

end Chip.AroundWaits

/-- A read once a write it may have waited on has left. -/
def Read.afterWait (w : Wait) (r : Read) : Read :=
  if r.state = .waiting ∧ w ∈ r.waits then
    { r with
      waits := r.waits.filter (· != w)
      state := if (r.waits.filter (· != w)).isEmpty then .offered else r.state }
  else r

section

variable (w : Wait) (p : Chip)

theorem Chip.endWaitAt_read (e : Fin 8) : (p.endWaitAt w e).read e = (p.read e).map (Read.afterWait w) := by
  unfold Chip.endWaitAt
  cases tracked : p.read e with
  | none => exact tracked
  | some r =>
    dsimp only [Option.map_some, Read.afterWait]
    split
    · split
      · rw [Chip.read_offerRead_same, Chip.read_setRead_same]
        rfl
      · exact Chip.read_setRead_same _ _ _
    · exact tracked

theorem Chip.endWaitAt_read_other {e x : Fin 8} (other : x ≠ e) : (p.endWaitAt w e).read x = p.read x := by
  unfold Chip.endWaitAt
  dsimp only
  split
  · rfl
  · split
    · split
      · rw [Chip.read_offerRead_other _ other, Chip.read_setRead_other _ _ other]
      · exact Chip.read_setRead_other _ _ other
    · rfl

theorem Chip.endWaitAt_around (e : Fin 8) : p.AroundWaits (p.endWaitAt w e) := by
  have reads (x : Fin 8) (idle : ∀ r, p.read x = some r → r.state ≠ .waiting) :
      (p.endWaitAt w e).read x = p.read x := by
    by_cases same : x = e
    · subst same
      rw [Chip.endWaitAt_read]
      cases tracked : p.read x with
      | none => rfl
      | some r => exact congrArg some (if_neg fun waits => idle r tracked waits.1)
    · exact Chip.endWaitAt_read_other w p same
  have around (t : Chip) (ht : t = p ∨ ∃ r, t = p.setRead e (some r) ∨ t = (p.setRead e (some r)).offerRead e)
      (reads : ∀ x, (∀ r, p.read x = some r → r.state ≠ .waiting) → t.read x = p.read x) : p.AroundWaits t := by
    rcases ht with rfl | ⟨r, rfl | rfl⟩
    · exact .refl t
    · exact ⟨rfl, rfl, rfl, rfl, rfl, rfl, .refl p, rfl, fun _ => id, fun _ _ => id, reads⟩
    · exact ⟨rfl, rfl, rfl, rfl, rfl, rfl, .refl p, rfl,
        fun _ x => Chip.offers_mono _ (p := (p.setRead e (some r)).modRead e _) x,
        fun _ other x => Chip.offers_of_offer (p := (p.setRead e (some r)).modRead e _) (other e) x, reads⟩
  refine around _ ?_ reads
  unfold Chip.endWaitAt
  dsimp only
  split
  · exact .inl rfl
  · split
    · split
      · exact .inr ⟨_, .inr rfl⟩
      · exact .inr ⟨_, .inl rfl⟩
    · exact .inl rfl

theorem Chip.endWaits_around (l : List (Fin 8)) : p.AroundWaits (l.foldl (Chip.endWaitAt w) p) :=
  List.foldlRecOn l _ (.refl p) fun q hq e _ => hq.trans (Chip.endWaitAt_around w q e)

theorem Chip.endWait_around : p.AroundWaits (p.endWait w) := Chip.endWaits_around w p allEntries

theorem Chip.endWaits_read_other {l : List (Fin 8)} {x : Fin 8} (out : x ∉ l) :
    (l.foldl (Chip.endWaitAt w) p).read x = p.read x :=
  List.foldlRecOn (motive := fun q : Chip => q.read x = p.read x) l _ rfl fun q hq e member =>
    (Chip.endWaitAt_read_other w q (by rintro rfl; exact out member)).trans hq

/-- The tracker around one of its entries. -/
theorem allEntries_around (e : Fin 8) : ∃ before after, allEntries = before ++ e :: after ∧ e ∉ before ∧ e ∉ after := by
  have nodup : allEntries.Nodup := by decide
  obtain ⟨before, after, split⟩ := List.append_of_mem (mem_allEntries e)
  rw [split, List.nodup_middle, List.nodup_cons, List.mem_append, not_or] at nodup
  exact ⟨before, after, split, nodup.1⟩

/-- A read that waits on the write alone is offered as it leaves. -/
theorem Chip.endWait_offers {e : Fin 8} {r : Read} (tracked : p.read e = some r) (waiting : r.state = .waiting)
    (alone : r.waits = [w]) :
    (p.endWait w).read e = some { r with state := .offered, waits := [] } ∧ (p.endWait w).Offers (.read e) := by
  obtain ⟨before, after, entries, fresh, done⟩ := allEntries_around e
  have turn : (before.foldl (Chip.endWaitAt w) p).read e = some r :=
    (Chip.endWaits_read_other w p fresh).trans tracked
  unfold Chip.endWait
  rw [entries, List.foldl_append, List.foldl_cons]
  generalize before.foldl (Chip.endWaitAt w) p = q at turn
  constructor
  · rw [Chip.endWaits_read_other w _ done, Chip.endWaitAt_read, turn]
    simp [Read.afterWait, waiting, alone]
  · refine (Chip.endWaits_around w _ after).offers _ ?_
    have offered : q.endWaitAt w e = (q.setRead e (some { r with waits := [] })).offerRead e := by
      unfold Chip.endWaitAt
      rw [turn]
      simp [waiting, alone]
    rw [offered]
    exact Chip.offers_offerRead e _

end

/-! ## The end of a grant of the posted-write head (R11, R35) -/

/-- The head leaves the queue and the blocks report: the last acts of its grant. -/
@[irreducible] def Chip.endHead (w : PostedWrite) (p : Chip) : Chip := (p.leaveQueue w).noteStatus

/-- The part as the head is granted, its copy placed in the shadows (R17, R21). -/
def State.placed (s : State) (w : PostedWrite) : Chip := (s.toChip.beginGrant .postedWrite).placeShadow w

theorem State.grantHead_ends {s : State} {w : PostedWrite} {act : WriteAct} (effect : PostedWrite → Chip → Chip)
    (h : s.Heads w act) : s.grantHead act effect = .next { s with
      toChip := (effect w (s.placed w)).endHead w
      mem := Memory.writeWords s.mem (placeWords w.addr w.data) } := by
  unfold Chip.endHead
  exact State.grantHead_eq effect h

/-- b is a with the head gone: reads that waited on it go on, and CPM has reports on their way. -/
structure Chip.EndsHead (a b : Chip) : Prop where
  posted : b.lbp.posted = a.lbp.posted.tail
  responses : b.lbp.responses = a.lbp.responses
  outRecord : b.lbp.outRecord = a.lbp.outRecord
  strayNoticed : b.lbp.strayNoticed = a.lbp.strayNoticed
  cpm : Cpm.SameButReports a.cpm b.cpm
  nextWrite : a.cpm.nextWrite ≤ b.cpm.nextWrite
  tape : Chip.SameTape a b
  dlc : b.dlc = a.dlc
  offers : ∀ r, a.Offers r → b.Offers r
  noCapture : b.Offers .capture → a.Offers .capture
  reads : ∀ e, (∀ r, a.read e = some r → r.state ≠ .waiting) → b.read e = a.read e

/-- The head taken out of the queue, with nothing else done. -/
def Chip.popHead (p : Chip) : Chip := { p with lbp := { p.lbp with posted := p.lbp.posted.tail } }

theorem Chip.leaveQueue_eq (w : PostedWrite) (p : Chip) : p.leaveQueue w =
    if p.lbp.posted.tail.isEmpty then p.popHead.endWait (.posted w.id)
    else (p.popHead.endWait (.posted w.id)).offer .postedWrite := rfl

theorem Chip.leaveQueue_around (w : PostedWrite) (p : Chip) :
    p.popHead.AroundWaits (p.leaveQueue w) ∨ ∃ q, p.popHead.AroundWaits q ∧ p.leaveQueue w = q.offer .postedWrite := by
  have around := Chip.endWait_around (.posted w.id) p.popHead
  rw [Chip.leaveQueue_eq]
  split
  · exact .inl around
  · exact .inr ⟨_, around, rfl⟩

/-- The next entry is offered. -/
theorem Chip.leaveQueue_offers (w : PostedWrite) {p : Chip} (more : p.lbp.posted.tail ≠ []) :
    (p.leaveQueue w).Offers .postedWrite := by
  rw [Chip.leaveQueue_eq, if_neg (by simpa using more)]
  exact Chip.offers_offer _ _

theorem Chip.leaveQueue_read (w : PostedWrite) {p : Chip} {e : Fin 8} {r : Read} (tracked : p.read e = some r)
    (waiting : r.state = .waiting) (alone : r.waits = [.posted w.id]) :
    (p.leaveQueue w).read e = some { r with state := .offered, waits := [] } ∧ (p.leaveQueue w).Offers (.read e) := by
  obtain ⟨read, offered⟩ := Chip.endWait_offers (.posted w.id) p.popHead tracked waiting alone
  rw [Chip.leaveQueue_eq]
  split
  · exact ⟨read, offered⟩
  · exact ⟨((Chip.offer_reports _ _).read e).trans read, Chip.offers_mono _ offered⟩

theorem Chip.AroundWaits.endsHead {p q : Chip} (h : p.popHead.AroundWaits q) : p.EndsHead q where
  posted := h.posted
  responses := h.responses
  outRecord := h.outRecord
  strayNoticed := h.strayNoticed
  cpm := by
    rw [h.cpm]
    exact .refl _
  nextWrite := by
    rw [h.cpm]
    exact Nat.le_refl _
  tape := h.tape
  dlc := h.dlc
  offers := h.offers
  noCapture := h.noOffers _ (fun _ => nofun)
  reads := h.reads

theorem Chip.EndsHead.reports {a p q : Chip} (h : a.EndsHead p) (k : p.Reports q)
    (noCapture : q.Offers .capture → p.Offers .capture) : a.EndsHead q where
  posted := by rw [k.lbp, h.posted]
  responses := by rw [k.lbp, h.responses]
  outRecord := by rw [k.lbp, h.outRecord]
  strayNoticed := by rw [k.lbp, h.strayNoticed]
  cpm := h.cpm.trans k.cpm
  nextWrite := h.nextWrite.trans k.nextWrite
  tape := h.tape.trans k.sameTape
  dlc := k.dlc.trans h.dlc
  offers := fun r x => k.offers r (h.offers r x)
  noCapture := fun x => h.noCapture (noCapture x)
  reads := fun e idle => (k.read e).trans (h.reads e idle)

theorem Chip.endHead_ends (w : PostedWrite) (p : Chip) : p.EndsHead (p.endHead w) := by
  unfold Chip.endHead
  have left : p.EndsHead (p.leaveQueue w) := by
    rcases Chip.leaveQueue_around w p with around | ⟨q, around, eq⟩
    · exact around.endsHead
    · rw [eq]
      exact around.endsHead.reports (Chip.offer_reports _ q) (Chip.offers_of_offer nofun)
  exact left.reports (Chip.noteStatus_reports _) (Chip.offers_of_noteStatus (by decide))

section

variable {a b : Chip} (h : a.EndsHead b)

include h

theorem Chip.EndsHead.raises {s : Chip} {n : Notice} (raised : s.Raises a n) : s.Raises b n := by
  obtain ⟨id, index, new, offered⟩ := raised
  exact ⟨id, index, new, h.offers _ offered⟩

theorem Chip.EndsHead.counter (c : Counter) : b.counter c = a.counter c := by
  unfold Chip.counter
  rw [h.cpm]

theorem Chip.EndsHead.slot (i : Fin 128) : b.slot i = a.slot i := by
  unfold Chip.slot
  rw [h.tape.1]

end

/-! ## The shadows (R21) -/

theorem placeWords_cons (start : Nat) (d : Word) (ds : List Word) :
    placeWords start (d :: ds) = (start, d) :: placeWords (start + 4) ds := by
  refine List.ext_getElem (by simp [placeWords]) fun k _ _ => ?_
  cases k with
  | zero => simp [placeWords]
  | succ k =>
    simp [placeWords]
    omega

/-- One word of a control-page copy placed in the shadows. -/
def placeCell (v : Vector Word 40) (aw : Nat × Word) : Vector Word 40 :=
  if aw.1 < 0xA0 then v.setIfInBounds (aw.1 / 4) aw.2 else v

theorem placeCell_getElem (v : Vector Word 40) {a : Nat} (d : Word) (aligned : a % 4 = 0) (k : Fin 40) :
    (placeCell v (a, d))[k] = if a = 4 * k.val then d else v[k] := by
  have bound := k.isLt
  unfold placeCell
  by_cases here : a = 4 * k.val
  · rw [if_pos (by dsimp only; omega), if_pos here]
    simp [show a / 4 = k.val by omega]
  · rw [if_neg here]
    split
    · simp [show a / 4 ≠ k.val by omega]
    · rfl

/-- A shadow after the words of a burst are placed: the burst's word where it covers the shadow. -/
theorem foldl_placeCell_getElem (ds : List Word) (start : Nat) (v : Vector Word 40) (aligned : start % 4 = 0)
    (k : Fin 40) : ((placeWords start ds).foldl placeCell v)[k] =
      if start ≤ 4 * k.val ∧ 4 * k.val < start + 4 * ds.length then ds.getD ((4 * k.val - start) / 4) 0 else v[k] := by
  induction ds generalizing start v with
  | nil => exact (if_neg (by simp)).symm
  | cons d ds ih =>
    rw [placeWords_cons, List.foldl_cons, ih _ _ (by omega), placeCell_getElem v d aligned, List.length_cons]
    by_cases here : start = 4 * k.val
    · rw [if_neg (by omega), if_pos here, if_pos (by omega), show (4 * k.val - start) / 4 = 0 by omega]
      rfl
    · rw [if_neg here]
      by_cases covered : start + 4 ≤ 4 * k.val ∧ 4 * k.val < start + 4 + 4 * ds.length
      · have next : (4 * k.val - start) / 4 = (4 * k.val - (start + 4)) / 4 + 1 := by omega
        rw [if_pos covered, if_pos (by omega), next]
        rfl
      · rw [if_neg covered, if_neg (by omega)]

theorem Chip.placeShadow_cells (w : PostedWrite) (p : Chip) (aligned : w.addr % 4 = 0) (k : Fin 40) :
    (p.placeShadow w).cpm.cells[k] = if w.covers (4 * k.val) then w.wordAt (4 * k.val) else p.cpm.cells[k] := by
  refine (foldl_placeCell_getElem w.data w.addr p.cpm.cells aligned k).trans ?_
  simp only [PostedWrite.covers, PostedWrite.wordAt, Bool.and_eq_true, decide_eq_true_eq]

/-- Settles O16: the copy changes the shadows, the pop the queue and the reads that waited, the rest is reports. -/
theorem writeGrantLeavesTheRest : Obligations.WriteGrantLeavesTheRest := by
  unfold Obligations.WriteGrantLeavesTheRest
  intro s w heads aligned wf
  have ends := Chip.endHead_ends w (s.placed w)
  have reports : ((s.placed w).leaveQueue w).Reports ((s.placed w).endHead w) := by
    unfold Chip.endHead
    exact Chip.noteStatus_reports _
  have cells : ((s.placed w).endHead w).cpm.cells = (s.placed w).cpm.cells := by rw [ends.cpm]
  refine ⟨_, (State.grantHead_ends (fun _ p => p) heads : execWriteGrant s = _),
    stored_placeWords _ _ _ wf, ends.posted, fun more => reports.offers _ (Chip.leaveQueue_offers w more),
    fun e r tracked waiting alone => ?_,
    ends.reads, fun k => ?_, ?_, ends.tape, ends.dlc, ends.responses⟩
  · obtain ⟨read, offered⟩ := Chip.leaveQueue_read w (p := s.placed w) tracked waiting alone
    exact ⟨(reports.read e).trans read, reports.offers _ offered⟩
  · dsimp only
    rw [cells]
    exact Chip.placeShadow_cells w _ aligned k
  · dsimp only
    rw [cells]
    exact ends.cpm

/-! ## The writes of CPM (R32, R35, R37) -/

theorem Mp.cpmFront_eq {m : Mp} {r : Req} {stamp : Nat} {rest : List Offer}
    (front : m.queues[(6 : Fin 7)] = ⟨r, stamp⟩ :: rest) : m.cpmFront = some r := by
  unfold Mp.cpmFront
  rw [front]
  rfl

/-- Words of which any two lie apart, or are the same word written twice, are stored. -/
theorem stored_of_apart_or_same (m : Memory) (ws : List (Nat × Word)) (wf : Memory.wf m = true)
    (apart : ∀ x ∈ ws, ∀ y ∈ ws, x = y ∨ x.1 + 4 ≤ y.1 ∨ y.1 + 4 ≤ x.1) :
    Stored m (Memory.writeWords m ws) ws := by
  refine ⟨?_, fun b outside => Memory.readByte_writeWords_other m ws b outside⟩
  induction ws generalizing m with
  | nil => nofun
  | cons x rest ih =>
    have others := ih (m.writeWord x.1 x.2) (Memory.wf_writeWord m _ _ wf) fun y hy z hz =>
      apart y (List.mem_cons_of_mem _ hy) z (List.mem_cons_of_mem _ hz)
    intro aw member
    by_cases again : aw ∈ rest
    · exact others aw again
    · obtain rfl := (List.mem_cons.mp member).resolve_right again
      refine (Memory.readWord_writeWords_other _ rest _ fun y hy => ?_).trans
        (Memory.readWord_writeWord_same m aw.1 aw.2 wf)
      exact (apart aw List.mem_cons_self y (List.mem_cons_of_mem _ hy)).resolve_left fun same => again (same ▸ hy)

theorem Cpm.statusWrites_apart (c : Cpm) {x y : Nat × Word} (hx : x ∈ c.statusWrites) (hy : y ∈ c.statusWrites) :
    x = y ∨ x.1 + 4 ≤ y.1 ∨ y.1 + 4 ≤ x.1 := by
  have shape {z : Nat × Word} (hz : z ∈ c.statusWrites) :
      (∃ i, z = (0x160 + 4 * i, c.statusHeld.getD i 0)) ∨ z = (0x140, 0) := by
    rcases List.mem_append.mp hz with word | index
    · obtain ⟨i, -, rfl⟩ := List.mem_map.mp word
      exact .inl ⟨i, rfl⟩
    · split at index
      · exact .inr (List.mem_singleton.mp index)
      · cases index
  rcases shape hx with ⟨i, rfl⟩ | rfl <;> rcases shape hy with ⟨j, rfl⟩ | rfl
  · by_cases same : i = j
    · exact .inl (by rw [same])
    · right; dsimp only; omega
  · right; dsimp only; omega
  · right; dsimp only; omega
  · exact .inl rfl

theorem noticeWrites_apart (index : Nat) (a b : Word) : Apart (noticeWrites index a b) := by
  simp only [Apart, noticeWrites, noticeEntryAddr, writeIndexCell, List.pairwise_cons, List.mem_cons, List.not_mem_nil,
    or_false]
  refine ⟨?_, ?_, nofun, .nil⟩
  · rintro y (rfl | rfl) <;> dsimp only <;> omega
  · rintro y rfl
    dsimp only
    omega

/-- The part as a write of CPM is granted, the reads that waited on it told (R14). -/
@[irreducible] def State.cpmGranted (s : State) (r : Req) (id : Nat) : Chip := (s.toChip.beginGrant r).endWait (.cpm id)

theorem State.cpmGranted_around (s : State) (r : Req) (id : Nat) :
    (s.toChip.beginGrant r).AroundWaits (s.cpmGranted r id) := by
  unfold State.cpmGranted
  exact Chip.endWait_around _ _

theorem State.cpmGranted_cpm (s : State) (r : Req) (id : Nat) : (s.cpmGranted r id).cpm = s.cpm :=
  (s.cpmGranted_around r id).cpm

/-- What a write of CPM leaves alone, its own registers aside: the reads that waited on it go on. -/
theorem State.cpmGranted_same (s : State) (r : Req) (id : Nat) (c : Cpm) :
    let p := { s.cpmGranted r id with cpm := c }
    Chip.SameTape s.toChip p ∧ p.dlc = s.dlc ∧ p.lbp.posted = s.lbp.posted ∧ p.lbp.responses = s.lbp.responses ∧
      ∀ e, (∀ rd, s.toChip.read e = some rd → rd.state ≠ .waiting) → p.read e = s.toChip.read e :=
  by
  have around := s.cpmGranted_around r id
  intro p
  refine ⟨?_, ?_, ?_, ?_, ?_⟩
  · exact around.tape
  · exact around.dlc
  · exact around.posted
  · exact around.responses
  · exact around.reads

section

variable {s : State} {r : Req} {stamp : Nat} {rest : List Offer}
  (front : s.mp.queues[(6 : Fin 7)] = ⟨r, stamp⟩ :: rest) (grant : s.mp.mayGrant r = true)

include front grant

theorem exec_resultWrite {id : Nat} {result : Result} {closes : Option Nat} (kind : r = .result id result closes) :
    exec .resultWrite s = .next { s with
      toChip := (s.cpmGranted r id).closeRequest closes
      mem := Memory.writeWords s.mem (placeWords resultCell result.words) } := by
  subst kind
  change execResultWrite s = _
  unfold execResultWrite State.cpmGranted
  rw [Mp.cpmFront_eq front]
  exact if_pos grant

theorem exec_statusWrite {id : Nat} (kind : r = .status id) :
    exec .statusWrite s = .next { s with
      toChip := (s.cpmGranted r id).emptyDirty
      mem := Memory.writeWords s.mem s.cpm.statusWrites } := by
  subst kind
  change execStatusWrite s = _
  unfold execStatusWrite State.cpmGranted
  rw [Mp.cpmFront_eq front]
  exact if_pos grant

theorem exec_noticeWrite {id index : Nat} {a b : Word} (kind : r = .notice id index a b) :
    exec .noticeWrite s = .next { s with
      toChip := (s.cpmGranted r id).publish index
      mem := Memory.writeWords s.mem (noticeWrites index a b) } := by
  subst kind
  change execNoticeWrite s = _
  unfold execNoticeWrite State.cpmGranted
  rw [Mp.cpmFront_eq front]
  exact if_pos grant

end

/-- The pending request after a result that closes one (R29). -/
def closedRequest (closes : Option Nat) (request : Option PendingRequest) : Option PendingRequest :=
  match closes, request with
  | some id, some q => if q.id = id then none else some q
  | _, q => q

theorem Chip.closeRequest_eq (closes : Option Nat) (p : Chip) :
    p.closeRequest closes = { p with cpm := { p.cpm with request := closedRequest closes p.cpm.request } } := by
  obtain ⟨event, lbp, mp, cpm, slots, ce, cu, dlc, rc, ecu⟩ := p
  unfold Chip.closeRequest closedRequest
  cases closes with
  | none => rfl
  | some id =>
    dsimp only
    cases pending : cpm.request with
    | none =>
      dsimp only
      rw [← pending]
    | some q =>
      dsimp only
      split
      · rfl
      · rw [← pending]

theorem closedRequest_some (closes : Option Nat) (q : PendingRequest) :
    (closes = some q.id → closedRequest closes (some q) = none) ∧
      (closes ≠ some q.id → closedRequest closes (some q) = some q) := by
  constructor
  · rintro rfl
    exact if_pos rfl
  · intro other
    cases closes with
    | none => rfl
    | some id => exact if_neg fun same => other (congrArg some same.symm)

/-- Settles O52: each write of CPM is its front request; what it writes lies apart, and it changes CPM alone. -/
theorem cpmWritesReachMemory : Obligations.CpmWritesReachMemory := by
  unfold Obligations.CpmWritesReachMemory
  intro s r stamp rest front grant wf same
  refine ⟨fun id result closes kind => ?_, fun id kind => ?_, fun id index a b kind => ?_⟩
  · refine ⟨_, exec_resultWrite front grant kind, ?_, ?_, ?_⟩
    · dsimp only [same]
      rw [Chip.closeRequest_eq]
      exact s.cpmGranted_same r id _
    · dsimp only
      exact stored_placeWords s.mem resultCell result.words wf
    · dsimp only
      rw [Chip.closeRequest_eq]
      dsimp only
      rw [State.cpmGranted_cpm]
      refine ⟨rfl, ?_, ?_⟩
      · rintro rfl
        rfl
      · intro q pending
        rw [pending]
        exact closedRequest_some closes q
  · refine ⟨_, exec_statusWrite front grant kind, s.cpmGranted_same r id _, ?_, ?_⟩
    · dsimp only
      exact stored_of_apart_or_same _ _ wf fun x hx y hy => s.cpm.statusWrites_apart hx hy
    · dsimp only [Chip.emptyDirty]
      rw [State.cpmGranted_cpm]
  · refine ⟨_, exec_noticeWrite front grant kind, s.cpmGranted_same r id _, ?_, ?_⟩
    · dsimp only
      exact stored_writeWords _ _ wf (noticeWrites_apart index a b)
    · dsimp only [Chip.publish]
      rw [State.cpmGranted_cpm]
      rfl

end Sys2Proof.Machine


/-! PROOFS. Watched cells whose writes change CPM's registers alone: the input status and the notice read index (O32),
the mode words applied (O18) and held (O19). -/

namespace Sys2Proof.Machine

/-! ## CPM's registers beside its reports -/

/-- The registers of c with the reports of r. -/
def Cpm.withReports (c r : Cpm) : Cpm :=
  { c with
    statusHeld := r.statusHeld, dirty := r.dirty, statusOffered := r.statusOffered, writeIndex := r.writeIndex
    overflow := r.overflow, nextWrite := r.nextWrite }

theorem Cpm.sameButReports_iff {a b : Cpm} : Cpm.SameButReports a b ↔ b = a.withReports b := .rfl

/-- An update that neither reads nor writes the reports keeps what else is the same. -/
theorem Cpm.SameButReports.map {a b : Cpm} (h : Cpm.SameButReports a b) {f : Cpm → Cpm}
    (commutes : ∀ c r, f (c.withReports r) = (f c).withReports r) : Cpm.SameButReports (f a) (f b) := by
  rw [Cpm.sameButReports_iff] at h ⊢
  calc f b = f (a.withReports b) := congrArg f h
    _ = (f a).withReports b := commutes a b
    _ = (f a).withReports ((f b).withReports b) := rfl
    _ = (f a).withReports (f b) := by rw [← commutes b b]; rfl

/-! ## Writes that record a value -/

/-- b is a with CPM's registers as c has them, and reports on their way. -/
structure Chip.Records (a b : Chip) (c : Cpm) : Prop where
  lbp : b.lbp = a.lbp
  cpm : Cpm.SameButReports c b.cpm
  tape : Chip.SameTape a b
  dlc : b.dlc = a.dlc

theorem Chip.records_self (p : Chip) : p.Records p p.cpm := ⟨rfl, .refl _, .refl p, rfl⟩

theorem Chip.Records.set {a b : Chip} {c : Cpm} (h : a.Records b c) {f : Cpm → Cpm}
    (commutes : ∀ c r, f (c.withReports r) = (f c).withReports r) : a.Records { b with cpm := f b.cpm } (f c) :=
  ⟨h.lbp, h.cpm.map commutes, h.tape, h.dlc⟩

/-- A write that records a value changes the shadows and CPM's registers, and raises what its effect raises. -/
theorem State.grantHead_records {s : State} {w : PostedWrite} {act : WriteAct} (effect : PostedWrite → Chip → Chip)
    (heads : s.Heads w act) {c : Cpm} (records : (s.placed w).Records (effect w (s.placed w)) c) :
    ∃ t, s.grantHead act effect = .next t ∧ Cpm.SameButReports c t.cpm ∧
      (∀ n, s.toChip.Raises (effect w (s.placed w)) n → s.toChip.Raises t.toChip n) ∧
      Chip.SameTape s.toChip t.toChip ∧ t.dlc = s.dlc ∧ t.lbp.responses = s.lbp.responses := by
  have ends := Chip.endHead_ends w (effect w (s.placed w))
  refine ⟨_, State.grantHead_ends effect heads, ?_⟩
  dsimp only
  generalize effect w (s.placed w) = p at records ends
  exact ⟨records.cpm.trans ends.cpm, fun n raised => ends.raises raised, records.tape.trans ends.tape,
    ends.dlc.trans records.dlc, by rw [ends.responses, records.lbp]; rfl⟩

/-! ## Input status and notice read index (R34, R38) -/

theorem incomingOf_eq (v : Word) : incomingOf v =
    if v.getLsbD 31 = false then .unknown
    else if v.toNat % 4 = 0 then .known .free
    else if v.toNat % 4 = 1 then .known .one
    else .known .none := by
  unfold incomingOf
  cases v.getLsbD 31 with
  | false => rfl
  | true =>
    rw [if_pos rfl, if_neg (by decide)]
    split
    · rename_i zero
      rw [zero]
      rfl
    · split
      · rename_i one
        rw [one]
        rfl
      · rename_i notZero notOne
        unfold Grade.ofField
        split <;> first | contradiction | rfl

/-- What an input status word leaves in the incoming grade (R34). -/
theorem Chip.writeInput_eq {p : Chip} (ready : p.cpm.partState = .ready) (initiator : Fin 8) (v : Word) :
    p.writeInput initiator v = { p with cpm := { p.cpm with
      incoming := if initiator.val ≠ p.cpm.map.digitalIn then p.cpm.incoming else incomingOf v } } := by
  unfold Chip.writeInput
  rw [ready]
  by_cases digital : initiator.val = p.cpm.map.digitalIn
  · rw [if_neg (not_not.mpr digital)]
    exact if_pos digital
  · rw [if_pos digital]
    exact if_neg digital

/-- The indices from the shadow forward to the published one (R38). -/
theorem Cpm.mayRead_iff {c : Cpm} (read : c.readIndex < 64) (v : Nat) :
    c.mayRead v = true ↔ ∃ k ≤ (c.publishedIndex + 64 - c.readIndex) % 64, v = (c.readIndex + k) % 64 := by
  unfold Cpm.mayRead
  rw [Bool.and_eq_true, decide_eq_true_eq, decide_eq_true_eq]
  have entries : Config.ringEntries = 64 := rfl
  rw [entries]
  generalize (c.publishedIndex + 64 - c.readIndex) % 64 = ahead
  constructor
  · rintro ⟨inside, near⟩
    refine ⟨_, near, ?_⟩
    omega
  · rintro ⟨k, near, rfl⟩
    omega

/-- Settles O32: each write records one value in CPM's registers, or nothing. -/
theorem inputStatusAndReadIndex : Obligations.InputStatusAndReadIndex := by
  unfold Obligations.InputStatusAndReadIndex
  constructor
  · intro s w heads ready v
    have records : (s.placed w).Records ((s.placed w).writeInput w.initiator v) { s.shadowed w with
        incoming := if w.initiator.val ≠ s.cpm.map.digitalIn then s.cpm.incoming else incomingOf v } := by
      rw [Chip.writeInput_eq (show (s.placed w).cpm.partState = .ready from ready)]
      exact (s.placed w).records_self.set (f := fun c => { c with incoming := _ }) fun _ _ => rfl
    obtain ⟨t, next, cpm, -, rest⟩ :=
      State.grantHead_records (fun w p => p.writeInput w.initiator (w.wordAt inputStatusCell)) heads records
    have incoming : t.cpm.incoming =
        if w.initiator.val ≠ s.cpm.map.digitalIn then s.cpm.incoming else incomingOf v := by
      rw [cpm]
    refine ⟨t, next, incoming.trans ?_, ?_, rest⟩
    · rw [incomingOf_eq]
    · rw [incoming]
      exact cpm
  · intro s w heads read published v ahead
    have decides := Cpm.mayRead_iff (c := (s.placed w).cpm) read v
    constructor
    · intro near
      have records : (s.placed w).Records ((s.placed w).writeReadIndex v)
          { s.shadowed w with readIndex := v, notice := s.cpm.publishedIndex != v } := by
        unfold Chip.writeReadIndex
        rw [if_pos (decides.mpr near)]
        exact (s.placed w).records_self.set
          (f := fun c => { c with readIndex := v, notice := s.cpm.publishedIndex != v }) fun _ _ => rfl
      obtain ⟨t, next, cpm, -, rest⟩ :=
        State.grantHead_records (fun w p => p.writeReadIndex (w.wordAt readIndexCell).toNat) heads records
      exact ⟨t, next, cpm, rest⟩
    · intro far
      have records : (s.placed w).Records ((s.placed w).writeReadIndex v) (s.shadowed w) := by
        unfold Chip.writeReadIndex
        rw [if_neg fun near => by
          obtain ⟨k, le, eq⟩ := decides.mp near
          exact far k le eq]
        exact (s.placed w).records_self
      obtain ⟨t, next, cpm, -, rest⟩ :=
        State.grantHead_records (fun w p => p.writeReadIndex (w.wordAt readIndexCell).toNat) heads records
      exact ⟨t, next, cpm, rest⟩

/-! ## Mode words (R23, R24, R27) -/

section

variable (apply hold : Chip → Chip) (mark : WrittenSet → WrittenSet) {p : Chip}

theorem Chip.takeMode_idle (ready : p.cpm.partState = .ready) (idle : p.rc.state = .idle) :
    p.takeMode apply hold mark = apply p := by
  unfold Chip.takeMode
  rw [ready, idle]

theorem Chip.takeMode_running (ready : p.cpm.partState = .ready) (running : p.rc.state ≠ .idle) :
    p.takeMode apply hold mark = hold p := by
  unfold Chip.takeMode
  rw [ready]
  dsimp only
  split
  · contradiction
  · rfl

/-- The application with its mark, while UNCONFIGURED (R26). -/
def Chip.applyMarked (p : Chip) : Chip :=
  { apply p with cpm := { (apply p).cpm with writtenSet := mark (apply p).cpm.writtenSet } }

theorem Chip.takeMode_unconfigured (unconfigured : p.cpm.partState = .unconfigured) :
    p.takeMode apply hold mark =
      if (mark (apply p).cpm.writtenSet).full then (p.applyMarked apply mark).enterReady
      else p.applyMarked apply mark := by
  unfold Chip.takeMode
  rw [unconfigured]
  rfl

end

theorem Chip.noteClamp_reports (mode marks : Nat) (p : Chip) : p.Reports (p.noteClamp mode marks) := by
  unfold Chip.noteClamp
  split
  · exact .refl p
  · exact Chip.raise_reports _ p

theorem Chip.noteClamp_raises {mode marks : Nat} {p : Chip} (ready : p.cpm.partState = .ready) (room : p.RingRoom)
    (clamped : marks ≠ 0) : p.Raises (p.noteClamp mode marks) (.clamped mode marks) := by
  unfold Chip.noteClamp
  rw [if_neg clamped]
  exact Chip.raise_raises _ p ready room

/-- The part with a mode word's clamp noted. -/
def State.clampNoted (s : State) (w : PostedWrite) (mode marks : Nat) : Chip := (s.placed w).noteClamp mode marks

section

variable {s : State} {w : PostedWrite} {act : WriteAct} {mode marks : Nat}

theorem State.clampNoted_reports : (s.placed w).Reports (s.clampNoted w mode marks) := Chip.noteClamp_reports _ _ _

theorem State.clampNoted_partState : (s.clampNoted w mode marks).cpm.partState = s.cpm.partState :=
  State.clampNoted_reports.partState

theorem State.clampNoted_rc : (s.clampNoted w mode marks).rc = s.rc := State.clampNoted_reports.rc

/-- A mode word whose effect sets registers of CPM after the clamp notice (R24). -/
theorem State.grantHead_sets (effect : PostedWrite → Chip → Chip) (heads : s.Heads w act) (set : Cpm → Cpm)
    (commutes : ∀ c r, set (c.withReports r) = (set c).withReports r)
    (sets : effect w (s.placed w) =
      { s.clampNoted w mode marks with cpm := set (s.clampNoted w mode marks).cpm }) :
    ∃ t, s.grantHead act effect = .next t ∧
      Cpm.SameButReports (set { s.cpm with cells := (s.shadowed w).cells }) t.cpm ∧
      (s.cpm.partState = .ready → s.toChip.RingRoom → marks ≠ 0 → s.toChip.Raises t.toChip (.clamped mode marks)) ∧
      Chip.SameTape s.toChip t.toChip ∧ t.dlc = s.dlc ∧ t.lbp.responses = s.lbp.responses := by
  have noted := State.clampNoted_reports (s := s) (w := w) (mode := mode) (marks := marks)
  have records : (s.placed w).Records (effect w (s.placed w)) (set { s.cpm with cells := (s.shadowed w).cells }) := by
    rw [sets]
    exact Chip.Records.set ⟨noted.lbp, noted.cpm, noted.sameTape, noted.dlc⟩ commutes
  obtain ⟨t, next, cpm, raises, rest⟩ := State.grantHead_records effect heads records
  refine ⟨t, next, cpm, fun ready room clamped => raises _ ?_, rest⟩
  rw [sets]
  exact Chip.noteClamp_raises (p := s.placed w) ready room clamped

/-- A mode word applied at its copy (R23), its mark set while UNCONFIGURED (R26). -/
theorem State.grantHead_applies (effect : PostedWrite → Chip → Chip) (heads : s.Heads w act)
    {mark : WrittenSet → WrittenSet} (now : s.AppliesNow (mark s.cpm.writtenSet)) (set : Cpm → Cpm) (hold : Chip → Chip)
    (commutes : ∀ c r, set (c.withReports r) = (set c).withReports r) (keeps : ∀ c, (set c).writtenSet = c.writtenSet)
    (takes : effect w (s.placed w) =
      (s.clampNoted w mode marks).takeMode (fun p => { p with cpm := set p.cpm }) hold mark) :
    ∃ t, s.grantHead act effect = .next t ∧
      Cpm.SameButReports { set { s.cpm with cells := (s.shadowed w).cells } with
        writtenSet := s.markedAs (mark s.cpm.writtenSet) } t.cpm ∧
      (s.cpm.partState = .ready → s.toChip.RingRoom → marks ≠ 0 → s.toChip.Raises t.toChip (.clamped mode marks)) ∧
      Chip.SameTape s.toChip t.toChip ∧ t.dlc = s.dlc ∧ t.lbp.responses = s.lbp.responses := by
  have written : (s.clampNoted w mode marks).cpm.writtenSet = s.cpm.writtenSet := by
    rw [State.clampNoted_reports.cpm]
    rfl
  refine State.grantHead_sets effect heads
    (fun c => { set c with writtenSet := s.markedAs (mark s.cpm.writtenSet) })
    (fun c r => by rw [commutes]; rfl) (takes.trans ?_)
  rcases now with ⟨ready, idle⟩ | ⟨unconfigured, some⟩
  · rw [Chip.takeMode_idle _ _ _ (State.clampNoted_partState.trans ready)
      (by rw [State.clampNoted_rc]; exact idle)]
    have same : s.markedAs (mark s.cpm.writtenSet) = (set (s.clampNoted w mode marks).cpm).writtenSet := by
      rw [keeps, written]
      exact if_neg (by rw [ready]; decide)
    rw [same]
  · have same : s.markedAs (mark s.cpm.writtenSet) = mark (set (s.clampNoted w mode marks).cpm).writtenSet := by
      rw [keeps, written]
      exact if_pos unconfigured
    rw [Chip.takeMode_unconfigured _ _ _ (State.clampNoted_partState.trans unconfigured), if_neg, same]
    · rfl
    · dsimp only
      rw [keeps, written, some]
      decide

/-- A mode word held while a run is not IDLE (R23, R27). -/
theorem State.grantHead_holds (effect : PostedWrite → Chip → Chip) (heads : s.Heads w act)
    (ready : s.cpm.partState = .ready) (running : s.rc.state ≠ .idle) (apply : Chip → Chip)
    {mark : WrittenSet → WrittenSet} (set : Cpm → Cpm)
    (commutes : ∀ c r, set (c.withReports r) = (set c).withReports r)
    (takes : effect w (s.placed w) =
      (s.clampNoted w mode marks).takeMode apply (fun p => { p with cpm := set p.cpm }) mark) :
    ∃ t, s.grantHead act effect = .next t ∧
      Cpm.SameButReports (set { s.cpm with cells := (s.shadowed w).cells }) t.cpm ∧
      Chip.SameTape s.toChip t.toChip ∧ t.dlc = s.dlc ∧ t.lbp.responses = s.lbp.responses := by
  obtain ⟨t, next, cpm, -, rest⟩ := State.grantHead_sets effect heads set commutes
    (takes.trans (Chip.takeMode_running _ _ _ (State.clampNoted_partState.trans ready)
      (by rw [State.clampNoted_rc]; exact running)))
  exact ⟨t, next, cpm, rest⟩

end

theorem State.placed_shadowed (s : State) (w : PostedWrite) : (s.placed w).cpm = s.shadowed w := rfl

theorem State.placed_writeSignal (s : State) (w : PostedWrite) : (s.placed w).writeSignal =
    (s.clampNoted w 1 ((s.shadowed w).clampMarks 1 signalRanges)).takeMode (Chip.applySignal (s.shadowed w).readSignal)
      (fun p => { p with cpm := { p.cpm with pendingSignal := some (s.shadowed w).readSignal } })
      (fun x => { x with signal := true }) := by
  rw [← State.placed_shadowed]
  rfl

theorem State.placed_writeLink (s : State) (w : PostedWrite) : (s.placed w).writeLink =
    (s.clampNoted w 2 ((s.shadowed w).clampMarks 2 linkRanges)).takeMode (Chip.applyLink (s.shadowed w).readLink)
      (fun p => { p with cpm := { p.cpm with pendingLink := some (s.shadowed w).readLink } })
      (fun x => { x with link := true }) := by
  rw [← State.placed_shadowed]
  rfl

theorem State.placed_writeEdit (s : State) (w : PostedWrite) : (s.placed w).writeEdit =
    (s.clampNoted w 3 ((s.shadowed w).clampMarks 3 editRanges)).takeMode (Chip.applyEdit (s.shadowed w).readEdit)
      (fun p => { p with cpm := { p.cpm with pendingEdit := some (s.shadowed w).readEdit } })
      (fun x => { x with edit := true }) := by
  rw [← State.placed_shadowed]
  rfl

/-- A MODE_MAP value that no condition of R25 rejects is taken like the others. -/
theorem State.placed_writeMap {s : State} {w : PostedWrite}
    (accepted : mapRejectMarks (s.shadowed w).readMap.audioBase (s.shadowed w).readMap.privateBase = 0) :
    (s.placed w).writeMap w =
      (s.clampNoted w 0 ((s.shadowed w).clampMarks 0 mapRanges)).takeMode (Chip.applyMap (s.shadowed w).readMap)
        (fun p => { p with cpm := { p.cpm with pendingMap := some (s.shadowed w).readMap } })
        (fun x => { x with map := true }) := by
  rw [← State.placed_shadowed] at accepted ⊢
  exact if_neg (not_not.mpr accepted)

/-- Settles O18: each mode word's value is read from the shadows, clamped, and applied. -/
theorem modeWordsApply : Obligations.ModeWordsApply := by
  unfold Obligations.ModeWordsApply
  intro s w c
  refine ⟨fun heads now => ?_, fun heads now => ?_, fun heads now => ?_⟩
  · obtain ⟨t, next, cpm, rest⟩ := State.grantHead_applies (mode := 1) (marks := c.clampMarks 1 signalRanges)
      (fun _ p => p.writeSignal) heads (mark := fun x => { x with signal := true }) now
      (fun x => { x with signal := c.readSignal }) _ (fun _ _ => rfl) (fun _ => rfl) (s.placed_writeSignal w)
    have value : t.cpm.signal = c.readSignal := by rw [cpm]
    exact ⟨t, next, value, by rw [value]; exact cpm, rest⟩
  · obtain ⟨t, next, cpm, rest⟩ := State.grantHead_applies (mode := 2) (marks := c.clampMarks 2 linkRanges)
      (fun _ p => p.writeLink) heads (mark := fun x => { x with link := true }) now
      (fun x => { x with link := c.readLink }) _ (fun _ _ => rfl) (fun _ => rfl) (s.placed_writeLink w)
    have value : t.cpm.link = c.readLink := by rw [cpm]
    exact ⟨t, next, value, by rw [value]; exact cpm, rest⟩
  · obtain ⟨t, next, cpm, rest⟩ := State.grantHead_applies (mode := 3) (marks := c.clampMarks 3 editRanges)
      (fun _ p => p.writeEdit) heads (mark := fun x => { x with edit := true }) now
      (fun x => { x with edit := c.readEdit }) _ (fun _ _ => rfl) (fun _ => rfl) (s.placed_writeEdit w)
    have value : t.cpm.edit = c.readEdit := by rw [cpm]
    exact ⟨t, next, value, by rw [value]; exact cpm, rest⟩

/-- Settles O19: during a run each mode word is held, and only its pending value changes. -/
theorem modeWordsHeldDuringRun : Obligations.ModeWordsHeldDuringRun := by
  unfold Obligations.ModeWordsHeldDuringRun
  intro s w ready running c
  refine ⟨fun heads accepted => ?_, fun heads => ?_, fun heads => ?_, fun heads => ?_⟩
  · exact State.grantHead_holds Chip.writeMap heads ready running (Chip.applyMap c.readMap)
      (fun x => { x with pendingMap := some c.readMap }) (fun _ _ => rfl)
      (State.placed_writeMap accepted)
  · exact State.grantHead_holds (fun _ p => p.writeSignal) heads ready running _
      (fun x => { x with pendingSignal := some c.readSignal }) (fun _ _ => rfl) (s.placed_writeSignal w)
  · exact State.grantHead_holds (fun _ p => p.writeLink) heads ready running _
      (fun x => { x with pendingLink := some c.readLink }) (fun _ _ => rfl) (s.placed_writeLink w)
  · exact State.grantHead_holds (fun _ p => p.writeEdit) heads ready running _
      (fun x => { x with pendingEdit := some c.readEdit }) (fun _ _ => rfl) (s.placed_writeEdit w)

end Sys2Proof.Machine


/-! PROOFS. Requests taken and answered (R29, R32): the refusals of the run starts (O23). -/

namespace Sys2Proof.Machine

/-! ## A request taken, and its answer (R29, R32) -/

section

variable {a p q : Chip} {c : Cpm}

theorem Chip.Records.reports (h : a.Records p c) (k : p.Reports q) : a.Records q c :=
  ⟨k.lbp.trans h.lbp, h.cpm.trans k.cpm, h.tape.trans k.sameTape, k.dlc.trans h.dlc⟩

theorem Chip.offerResult_reports (r : Result) (closes : Option Nat) (p : Chip) : p.Reports (p.offerResult r closes) :=
  (Chip.offer_reports _ p).cpmUpdate rfl (Nat.le_succ _)

theorem Chip.offerResult_offers (r : Result) (closes : Option Nat) (p : Chip) :
    (p.offerResult r closes).Offers (.result p.cpm.nextWrite r closes) := Chip.offers_offer _ p

end

/-- The pending request marked as answered. -/
def Chip.markReported (q : PendingRequest) (p : Chip) : Chip :=
  { p with cpm := { p.cpm with request := some { q with reported := true } } }

theorem Chip.report_eq {p : Chip} {q : PendingRequest} (pending : p.cpm.request = some q) (o : ReqOutcome) (d : Nat) :
    p.report o d = (p.noteStatus.offerResult ⟨q.tag, o, d⟩ (some q.id)).markReported q := by
  have same : p.noteStatus.cpm.request = p.cpm.request := by rw [(Chip.noteStatus_reports p).cpm]
  unfold Chip.report
  dsimp only
  rw [same, pending]
  rfl

/-- What a final report leaves. -/
theorem Chip.report_spec {p : Chip} {q : PendingRequest} (pending : p.cpm.request = some q) (o : ReqOutcome) (d : Nat) :
    p.Records (p.report o d) { p.cpm with request := some { q with reported := true } } ∧
      p.cpm.nextWrite ≤ (p.report o d).cpm.nextWrite ∧ (∀ r, p.Offers r → (p.report o d).Offers r) ∧
      ∃ id, p.cpm.nextWrite ≤ id ∧ (p.report o d).Offers (.result id ⟨q.tag, o, d⟩ (some q.id)) := by
  have noted := Chip.noteStatus_reports p
  have offered := Chip.offerResult_reports ⟨q.tag, o, d⟩ (some q.id) p.noteStatus
  have result := Chip.offerResult_offers ⟨q.tag, o, d⟩ (some q.id) p.noteStatus
  rw [Chip.report_eq pending]
  have reports := noted.trans offered
  have later := noted.nextWrite
  generalize p.noteStatus.offerResult ⟨q.tag, o, d⟩ (some q.id) = x at reports result
  have records : p.Records x p.cpm := ⟨reports.lbp, reports.cpm, reports.sameTape, reports.dlc⟩
  exact ⟨records.set (f := fun c => { c with request := some { q with reported := true } }) fun _ _ => rfl,
    reports.nextWrite, reports.offers, _, later, result⟩

/-- The part with a request word taken and its PENDING result offered. -/
def State.asked (s : State) (w : PostedWrite) (kind : RequestKind) : Chip := (s.placed w).takePending kind w.tag

section

variable (s : State) (w : PostedWrite) (kind : RequestKind)

theorem State.asked_cpm : (s.asked w kind).cpm = { s.shadowed w with
    request := some ⟨s.cpm.nextRequest, some kind, w.tag, false⟩, nextRequest := s.cpm.nextRequest + 1
    nextWrite := s.cpm.nextWrite + 1 } := rfl

theorem State.asked_rc : (s.asked w kind).rc = s.rc := rfl

theorem State.asked_dlc : (s.asked w kind).dlc = s.dlc := rfl

theorem State.asked_ecu : (s.asked w kind).ecu = s.ecu := rfl

theorem State.asked_arg (k : Nat) : (s.asked w kind).cpm.arg k = (s.shadowed w).arg k := by
  rw [State.asked_cpm]
  rfl

/-- CPM's registers once a request has been taken. -/
def State.takenCpm (k : Option RequestKind) (reported : Bool) : Cpm := { s.shadowed w with
  request := some ⟨s.cpm.nextRequest, k, w.tag, reported⟩, nextRequest := s.cpm.nextRequest + 1 }

theorem State.asked_records : (s.placed w).Records (s.asked w kind) (s.takenCpm w (some kind) false) :=
  ⟨rfl, rfl, .refl _, rfl⟩

variable {s w kind}

/-- A request of a known kind, with no request pending, is taken and dispatched. -/
theorem State.requestWord_taken (asks : s.Asks w kind) (act : Chip → Chip) :
    (s.placed w).requestWord kind w.tag act = act (s.asked w kind) := by
  obtain ⟨-, ready, none⟩ := asks
  unfold Chip.requestWord
  rw [show (s.placed w).cpm.partState = .ready from ready, show (s.placed w).cpm.request = Option.none from none]
  rfl

theorem State.grantRequest_taken (asks : s.Asks w kind) (act : Nat → Chip → Chip) :
    s.grantRequest kind act = .next { s with
      toChip := (act w.tag (s.asked w kind)).endHead w
      mem := Memory.writeWords s.mem (placeWords w.addr w.data) } := by
  rw [← State.requestWord_taken asks (act w.tag)]
  exact State.grantHead_ends (fun w p => p.requestWord kind w.tag (act w.tag)) asks.1

end

/-- The report that ends a request, once the head has left. -/
theorem State.report_answers {s : State} {w : PostedWrite} {p : Chip} {k : Option RequestKind}
    (pending : p.cpm.request = some ⟨s.cpm.nextRequest, k, w.tag, false⟩)
    (later : s.cpm.nextWrite ≤ p.cpm.nextWrite) (o : ReqOutcome) (d : Nat) :
    s.toChip.Answers ((p.report o d).endHead w) w.tag o d ∧
      ((p.report o d).endHead w).cpm.request = some ⟨s.cpm.nextRequest, k, w.tag, true⟩ := by
  obtain ⟨reported, -, -, id, le, offered⟩ := Chip.report_spec pending o d
  have ends := Chip.endHead_ends w (p.report o d)
  have request : ((p.report o d).endHead w).cpm.request = some ⟨s.cpm.nextRequest, k, w.tag, true⟩ := by
    rw [ends.cpm, reported.cpm]
  exact ⟨⟨_, id, request, rfl, rfl, rfl, later.trans le, ends.offers _ offered⟩, request⟩

/-- A request taken and at once answered leaves the rest as it was. -/
theorem State.answered {s : State} {w : PostedWrite} {p : Chip} {k : Option RequestKind}
    (records : (s.placed w).Records p (s.takenCpm w k false)) (later : s.cpm.nextWrite ≤ p.cpm.nextWrite)
    (o : ReqOutcome) (d : Nat) (mem : Memory) :
    s.JustAnswers { s with toChip := (p.report o d).endHead w, mem := mem } w o d := by
  have pending : p.cpm.request = some ⟨s.cpm.nextRequest, k, w.tag, false⟩ := by
    rw [records.cpm]
    rfl
  obtain ⟨answers, request⟩ := State.report_answers pending later o d
  obtain ⟨reported, -, -, -⟩ := Chip.report_spec pending o d
  have ends := Chip.endHead_ends w (p.report o d)
  have marked := records.cpm.map (f := fun c => { c with request := some ⟨s.cpm.nextRequest, k, w.tag, true⟩ })
    fun _ _ => rfl
  have cpm : Cpm.SameButReports (s.takenCpm w k true) ((p.report o d).endHead w).cpm :=
    (marked.trans reported.cpm).trans ends.cpm
  have tape := (records.tape.trans reported.tape).trans ends.tape
  have dlc := ends.dlc.trans (reported.dlc.trans records.dlc)
  have responses := ends.responses.trans (congrArg Lbp.responses (reported.lbp.trans records.lbp))
  generalize (p.report o d).endHead w = q at answers cpm request tape dlc responses
  refine ⟨answers, ?_, tape, dlc, responses⟩
  dsimp only
  rw [request]
  exact cpm

/-- A request of a known kind whose owner refuses it at once. -/
theorem State.grantRequest_answers {s : State} {w : PostedWrite} {kind : RequestKind} (asks : s.Asks w kind)
    (act : Nat → Chip → Chip) {o : ReqOutcome} {d : Nat}
    (refuses : act w.tag (s.asked w kind) = (s.asked w kind).report o d) :
    ∃ t, s.grantRequest kind act = .next t ∧ s.JustAnswers t w o d := by
  refine ⟨_, State.grantRequest_taken asks act, ?_⟩
  rw [refuses]
  exact State.answered (s.asked_records w kind) (Nat.le_succ _) o d _

/-! ## The checks of a run start (R31, R106, R138, R167) -/

/-- No number of the range tested leaves 0 to 16,777,212. -/
def RangeInside (range : Option (Int × Int)) : Prop := ∀ lo hi, range = some (lo, hi) → 0 ≤ lo ∧ hi ≤ 16777212

theorem forwardRange_inside (t0 n : Nat) :
    RangeInside (forwardRange t0 n) ↔ t0 ≤ 16777212 ∧ (n ≠ 0 → t0 + n ≤ 16777213) := by
  unfold RangeInside forwardRange
  constructor
  · intro inside
    obtain ⟨-, high⟩ := inside _ _ rfl
    split at high <;> omega
  · rintro inside lo hi same
    cases same
    split <;> omega

theorem reverseRange_inside (t0 n : Nat) :
    RangeInside (reverseRange t0 n) ↔ t0 ≤ 16777212 ∧ (n ≠ 0 → n ≤ t0 + 1) := by
  unfold RangeInside reverseRange
  constructor
  · intro inside
    obtain ⟨low, high⟩ := inside _ _ rfl
    split at low <;> omega
  · rintro inside lo hi same
    cases same
    split <;> omega

section

variable {p : Chip} {range : Option (Int × Int)} (act : Chip → Chip)

theorem Chip.startChecked_running (running : p.rc.state ≠ .idle) : p.startChecked range act = p.report .busy 0 := by
  unfold Chip.startChecked
  exact if_pos running

/-- The start's checks once no run is in progress. -/
theorem Chip.startChecked_idle (idle : p.rc.state = .idle) :
    (¬RangeInside range → p.startChecked range act = p.report .range 0) ∧
      (RangeInside range → p.startChecked range act =
        if p.dlc.linkState ≠ .up then p.report .noLink p.dlc.linkState.code else act p) := by
  have limit : (Config.maxSegment : Int) = 16777212 := rfl
  unfold Chip.startChecked
  dsimp only
  rw [if_neg (not_not.mpr idle)]
  cases range with
  | none => exact ⟨fun outside => absurd nofun outside, fun _ => if_neg nofun⟩
  | some ends =>
    obtain ⟨lo, hi⟩ := ends
    have inside_iff : RangeInside (some (lo, hi)) ↔ 0 ≤ lo ∧ hi ≤ 16777212 :=
      ⟨fun inside => inside lo hi rfl, fun bounds _ _ same => by cases same; exact bounds⟩
    dsimp only
    rw [inside_iff, limit]
    constructor
    · intro outside
      exact if_pos (by rw [Bool.or_eq_true, decide_eq_true_eq, decide_eq_true_eq]; omega)
    · intro inside
      exact if_neg (by rw [Bool.or_eq_true, decide_eq_true_eq, decide_eq_true_eq]; omega)

variable (idle : p.rc.state = .idle)

include idle

theorem Chip.startChecked_outside (outside : ¬RangeInside range) : p.startChecked range act = p.report .range 0 :=
  (Chip.startChecked_idle act idle).1 outside

theorem Chip.startChecked_unlinked (inside : RangeInside range) (link : p.dlc.linkState ≠ .up) :
    p.startChecked range act = p.report .noLink p.dlc.linkState.code :=
  ((Chip.startChecked_idle act idle).2 inside).trans (if_pos link)

theorem Chip.startChecked_passed (inside : RangeInside range) (link : p.dlc.linkState = .up) :
    p.startChecked range act = act p :=
  ((Chip.startChecked_idle act idle).2 inside).trans (if_neg (not_not.mpr link))

end

/-- What a run start dispatches. -/
def runStarter : RequestKind → Nat → Chip → Chip
  | .play => Chip.startPlay
  | .record => Chip.startRecord
  | .edit => Chip.startEditRun
  | _ => Chip.startRevert

/-- The range a run start tests (R106, R138, R167). -/
def Chip.testedRange (p : Chip) : RequestKind → Option (Int × Int)
  | .play =>
    if p.cpm.arg 2 == 1 then reverseRange (p.cpm.arg 0) (p.cpm.arg 1) else forwardRange (p.cpm.arg 0) (p.cpm.arg 1)
  | .record => forwardRange (p.cpm.arg 0) (p.cpm.arg 1)
  | .edit => forwardRange (p.cpm.arg 0) (p.cpm.arg 1)
  | _ => revertRange p.ecu.stack

/-- Each run start makes the checks of R31 and R106 first, on its own range. -/
theorem runStarter_checked {c : Instr} {k : RequestKind}
    (start : (c, k) ∈ [(Instr.play, RequestKind.play), (.record, .record), (.edit, .edit), (.revert, .revert)]) :
    (∀ s, exec c s = s.grantRequest k (runStarter k)) ∧
      ∀ tag p, ∃ act, runStarter k tag p = p.startChecked (p.testedRange k) act := by
  simp only [List.mem_cons, Prod.mk.injEq, List.not_mem_nil, or_false] at start
  rcases start with ⟨rfl, rfl⟩ | ⟨rfl, rfl⟩ | ⟨rfl, rfl⟩ | ⟨rfl, rfl⟩
  · refine ⟨fun _ => rfl, fun tag p => ?_⟩
    dsimp only [runStarter]
    unfold Chip.startPlay
    exact ⟨_, rfl⟩
  · refine ⟨fun _ => rfl, fun tag p => ?_⟩
    dsimp only [runStarter]
    unfold Chip.startRecord
    exact ⟨_, rfl⟩
  · refine ⟨fun _ => rfl, fun tag p => ?_⟩
    dsimp only [runStarter]
    unfold Chip.startEditRun
    exact ⟨_, rfl⟩
  · refine ⟨fun _ => rfl, fun tag p => ?_⟩
    dsimp only [runStarter]
    unfold Chip.startRevert
    exact ⟨_, rfl⟩

/-- The range of PLAY, RECORD and EDIT in the words of their arguments (R106, R138). -/
theorem Chip.testedRange_inside (p : Chip) {k : RequestKind} (start : k = .play ∨ k = .record ∨ k = .edit) :
    RangeInside (p.testedRange k) ↔ p.cpm.arg 0 ≤ 16777212 ∧ (p.cpm.arg 1 ≠ 0 →
      if k = .play ∧ p.cpm.arg 2 = 1 then p.cpm.arg 1 ≤ p.cpm.arg 0 + 1
      else p.cpm.arg 0 + p.cpm.arg 1 ≤ 16777213) := by
  rcases start with rfl | rfl | rfl
  · unfold Chip.testedRange
    by_cases back : p.cpm.arg 2 = 1
    · simp only [back, and_self, if_true, BEq.rfl]
      exact reverseRange_inside _ _
    · simp only [back, and_false, if_false, beq_iff_eq]
      exact forwardRange_inside _ _
  · simp only [reduceCtorEq, false_and, if_false]
    exact forwardRange_inside _ _
  · simp only [reduceCtorEq, false_and, if_false]
    exact forwardRange_inside _ _

/-- The segment numbers of the top run stand on the stack (R161). -/
theorem topRun_segments {stack : List StackEntry} {t : TopRun} (top : topRun stack = some t) :
    (∃ tag n p, .run tag t.first n p ∈ stack) ∧ ∀ x ∈ t.segments, ∃ u, .seg x u ∈ stack := by
  unfold topRun at top
  split at top
  · rename_i tag first count partialMark last
    cases top
    refine ⟨⟨tag, count, partialMark, List.mem_of_getLast? last⟩, fun x member => ?_⟩
    obtain ⟨e, entry, seg⟩ := List.mem_filterMap.mp member
    split at seg
    · cases seg
      exact ⟨_, List.mem_of_mem_dropLast (List.mem_of_mem_drop entry)⟩
    · cases seg
  · cases top

theorem TopRun.highest_le {t : TopRun} {limit : Nat} (first : t.first ≤ limit)
    (segments : ∀ x ∈ t.segments, x ≤ limit) : t.highest ≤ limit :=
  List.foldlRecOn (motive := fun m : Nat => m ≤ limit) _ _ first fun _ below x member =>
    Nat.max_le.mpr ⟨below, segments x member⟩

/-- With every segment number on the stack in range, the range of a REVERT is inside (R167). -/
theorem revertRange_inside {stack : List StackEntry} (segments : ∀ t u, .seg t u ∈ stack → t ≤ 16777212)
    (runs : ∀ tag first n p, .run tag first n p ∈ stack → first ≤ 16777212) : RangeInside (revertRange stack) := by
  intro lo hi range
  unfold revertRange at range
  split at range
  · rename_i t top
    obtain ⟨⟨tag, n, mark, run⟩, segs⟩ := topRun_segments top
    split at range
    · cases range
    · cases range
      have highest := TopRun.highest_le (runs tag t.first n mark run) fun x member => by
        obtain ⟨u, seg⟩ := segs x member
        exact segments x u seg
      omega
  · cases range

/-- The checks of EDIT, for the words of its cell and the clip it names (R138). -/
theorem EditArgs.refusal_eq (a : EditArgs) (clips : Vector Clip 4) : a.refusal clips =
    (if a.n = 0 then some (.range, 1)
    else if a.fWord ≠ 0 ∧ (a.fWord < 4 ∨ 10 < a.fWord) then some (.range, 2)
    else if a.pout < a.pin + 2 ^ a.f then some (.range, 3)
    else if a.pin < 192 * a.t0 ∨ 192 * (a.t0 + a.n) ≤ a.pin then some (.range, 4)
    else if 192 * (a.t0 + a.n) < a.pout + 2 ^ a.f then some (.range, 5)
    else if 1 < a.material ∨ (a.material = 1 ∧ 3 < a.k) then some (.range, 6)
    else if a.material = 1 ∧ (clips[Fin.ofNat 4 a.k]).state = .spent then some (.copy, 1)
    else if a.material = 1 ∧ (clips[Fin.ofNat 4 a.k]).state = .empty then some (.badState, 1)
    else if a.material = 1 ∧ 192 * (clips[Fin.ofNat 4 a.k]).length < a.pout + 2 ^ a.f - a.pin then some (.range, 7)
    else none) := by
  have spans : a.pout ≤ a.pin ∨ a.pout - a.pin < 2 ^ a.f ↔ a.pout < a.pin + 2 ^ a.f := by
    have := Nat.two_pow_pos a.f
    omega
  have clip : a.clipRefusal clips =
      (if a.material = 1 ∧ (clips[Fin.ofNat 4 a.k]).state = .spent then some (.copy, 1)
      else if a.material = 1 ∧ (clips[Fin.ofNat 4 a.k]).state = .empty then some (.badState, 1)
      else if a.material = 1 ∧ 192 * (clips[Fin.ofNat 4 a.k]).length < a.pout + 2 ^ a.f - a.pin then some (.range, 7)
      else none) := by
    unfold EditArgs.clipRefusal EditArgs.clip
    by_cases material : a.material = 1
    · simp only [material, if_true, true_and]
    · simp only [material, if_false, false_and]
  unfold EditArgs.refusal
  rw [clip]
  simp only [spans]

section

variable {p : Chip} (tag : Nat) (idle : p.rc.state = .idle) (link : p.dlc.linkState = .up)

include idle link

theorem Chip.startPlay_direction (inside : RangeInside (p.testedRange .play)) (direction : 1 < p.cpm.arg 2) :
    p.startPlay tag = p.report .range 0 := by
  unfold Chip.startPlay
  exact (Chip.startChecked_passed _ idle inside link).trans (if_pos direction)

theorem Chip.startEditRun_refused (inside : RangeInside (p.testedRange .edit)) {o : ReqOutcome} {d : Nat}
    (refused : p.editArgs.refusal p.ecu.clips = some (o, d)) : p.startEditRun tag = p.report o d := by
  unfold Chip.startEditRun
  refine (Chip.startChecked_passed _ idle inside link).trans ?_
  rw [refused]

theorem Chip.startRevert_empty (empty : p.ecu.stack = []) : p.startRevert tag = p.report .noUndo 0 := by
  have noRun : topRun p.ecu.stack = none := by
    rw [empty]
    rfl
  have inside : RangeInside (revertRange p.ecu.stack) := by
    unfold revertRange
    rw [noRun]
    exact nofun
  unfold Chip.startRevert
  refine (Chip.startChecked_passed _ idle inside link).trans ?_
  rw [noRun]

end

/-- Settles O23: the start's checks, in order, on the part with the request taken. -/
theorem runStartsRefused : Obligations.RunStartsRefused := by
  unfold Obligations.RunStartsRefused
  intro s w c k start asks a backward inside
  obtain ⟨answer, checks⟩ := runStarter_checked start
  obtain ⟨act, checked⟩ := checks w.tag (s.asked w k)
  have refuses {o : ReqOutcome} {d : Nat} (h : runStarter k w.tag (s.asked w k) = (s.asked w k).report o d) :
      ∃ t, exec c s = .next t ∧ s.JustAnswers t w o d := by
    rw [answer s]
    exact State.grantRequest_answers asks _ h
  have range (other : k ≠ .revert) : RangeInside ((s.asked w k).testedRange k) ↔ inside := by
    have kinds : k = .play ∨ k = .record ∨ k = .edit := by
      simp only [List.mem_cons, Prod.mk.injEq, List.not_mem_nil, or_false] at start
      rcases start with ⟨-, rfl⟩ | ⟨-, rfl⟩ | ⟨-, rfl⟩ | ⟨-, rfl⟩
      · exact .inl rfl
      · exact .inr (.inl rfl)
      · exact .inr (.inr rfl)
      · exact absurd rfl other
    rw [Chip.testedRange_inside _ kinds]
    simp only [State.asked_arg]
    rfl
  rw [← s.asked_rc w k, ← s.asked_dlc w k]
  refine ⟨fun running => ?_, fun idle other outside => ?_, fun idle other within link => ?_,
    fun idle kind within link direction => ?_, fun idle kind within link => ?_, fun idle kind link segments runs => ?_,
    fun idle kind link empty => ?_⟩
  · exact refuses (checked.trans (Chip.startChecked_running _ running))
  · exact refuses (checked.trans (Chip.startChecked_outside _ idle fun h => outside ((range other).mp h)))
  · exact refuses (checked.trans (Chip.startChecked_unlinked _ idle ((range other).mpr within) link))
  · subst kind
    exact refuses (Chip.startPlay_direction w.tag idle link ((range nofun).mpr within)
      (by rw [State.asked_arg]; exact direction))
  · subst kind
    intro start stop pin pout f clip refusal o d refused
    have args : (s.asked w .edit).editArgs.refusal (s.asked w .edit).ecu.clips = some (o, d) := by
      rw [EditArgs.refusal_eq]
      exact refused
    exact refuses (Chip.startEditRun_refused w.tag idle link ((range nofun).mpr within) args)
  · subst kind
    exact refuses (checked.trans (Chip.startChecked_unlinked _ idle (revertRange_inside segments runs) link))
  · subst kind
    exact refuses (Chip.startRevert_empty w.tag idle link empty)

end Sys2Proof.Machine


/-! PROOFS. The clip requests: CAPTURE and DROPCLIP (O28). -/

namespace Sys2Proof.Machine

/-! ## The segments of a capture (R61, R153) -/

/-- Up to 128 segments in a row lie in slots of their own (R46). -/
theorem slotOf_run_nodup (first : Nat) {count : Nat} (few : count ≤ 128) :
    ((List.range count).map fun g => slotOf (first + g)).Nodup := by
  refine (List.nodup_range).map_on fun x hx y hy same => ?_
  have x_lt := List.mem_range.mp hx
  have y_lt := List.mem_range.mp hy
  have mods : (first + x) % 128 = (first + y) % 128 := congrArg Fin.val same
  omega

/-- Slots that differ, each changed once. -/
theorem foldl_modSlot_slot (f : Slot → Slot) (l : List (Fin 128)) (nodup : l.Nodup) (p : Chip) (i : Fin 128) :
    (l.foldl (fun p j => p.modSlot j f) p).slot i = if i ∈ l then f (p.slot i) else p.slot i := by
  induction l generalizing p with
  | nil => rfl
  | cons j l ih =>
    obtain ⟨fresh, rest⟩ := List.nodup_cons.mp nodup
    rw [List.foldl_cons, ih rest]
    by_cases here : i = j
    · subst here
      rw [if_neg fresh, if_pos List.mem_cons_self]
      exact Chip.slot_modSlot_same i f p
    · rw [Chip.slot_modSlot_other f p here]
      simp only [List.mem_cons, here, false_or]

theorem foldl_modSlot_eq (f : Slot → Slot) (l : List (Fin 128)) (p : Chip) :
    l.foldl (fun p j => p.modSlot j f) p = { p with slots := (l.foldl (fun p j => p.modSlot j f) p).slots } :=
  List.foldlRecOn (motive := fun q : Chip => q = { p with slots := q.slots }) l _ rfl fun q same j _ => by
    rw [same]
    rfl

/-- A slot pinned by one more capture (R61). -/
def Slot.pinned (x : Slot) : Slot := { x with pins := x.pins + 1 }

/-- The part with the segments of a capture pinned. -/
def Chip.pinRun (first count : Nat) (p : Chip) : Chip :=
  ((List.range count).map fun g => slotOf (first + g)).foldl (fun p j => p.modSlot j Slot.pinned) p

theorem Chip.pinRun_eq (first count : Nat) (p : Chip) :
    p.pinRun first count = { p with slots := (p.pinRun first count).slots } := foldl_modSlot_eq _ _ p

theorem Chip.pinRun_slot {first count : Nat} (few : count ≤ 128) (p : Chip) :
    (∀ g, g < count → (p.pinRun first count).slot (slotOf (first + g)) = (p.slot (slotOf (first + g))).pinned) ∧
      ∀ i, (∀ g, g < count → slotOf (first + g) ≠ i) → (p.pinRun first count).slot i = p.slot i := by
  have slots := foldl_modSlot_slot Slot.pinned _ (slotOf_run_nodup first few) p
  constructor
  · intro g lt
    exact (slots _).trans (if_pos (List.mem_map.mpr ⟨g, List.mem_range.mpr lt, rfl⟩))
  · intro i other
    refine (slots i).trans (if_neg fun member => ?_)
    obtain ⟨g, lt, same⟩ := List.mem_map.mp member
    exact other g (List.mem_range.mp lt) same

theorem clips_set_other (v : Vector Clip 4) (c : Clip) {k x : Fin 4} (other : x ≠ k) : (v.set k c)[x] = v[x] :=
  Vector.getElem_set_ne k.isLt x.isLt fun same => other (Fin.ext same.symm)

/-- The record of a new capture (R154). -/
def Chip.newCapture (first count : Nat) (k : Fin 4) (p : Chip) : Capture :=
  ⟨p.ecu.nextCapture, k, first, count, p.clipGrade first count, p.cpm.map.privateBase, 0, 0, .reading, []⟩

/-- ECU with a capture begun (R154). -/
def Chip.capturing (first count : Nat) (k : Fin 4) (p : Chip) : Ecu :=
  { p.ecu with
    clips := p.ecu.clips.set k { p.ecu.clips[k] with state := .filling, length := count }
    capture := some (p.newCapture first count k), nextCapture := p.ecu.nextCapture + 1 }

theorem Chip.beginCapture_eq (first count : Nat) (k : Fin 4) (p : Chip) : p.beginCapture first count k =
    Chip.offer .capture { p with slots := (p.pinRun first count).slots, ecu := p.capturing first count k } := by
  have pinned : (List.range count).foldl
      (fun p g => p.modSlot (slotOf (first + g)) fun s => { s with pins := s.pins + 1 }) p = p.pinRun first count := by
    unfold Chip.pinRun
    rw [List.foldl_map]
    rfl
  unfold Chip.beginCapture
  dsimp only
  rw [pinned, Chip.pinRun_eq]
  rfl

/-! ## The checks of a CAPTURE (R153) -/

theorem Chip.isReady_iff (p : Chip) (segment : Nat) : p.isReady segment = true ↔
    (p.slot (slotOf segment)).holds segment = true ∧ (p.slot (slotOf segment)).play = .ready := by
  unfold Chip.isReady
  rw [Bool.and_eq_true, beq_iff_eq]

theorem Chip.captureGrade_none_iff (p : Chip) (segment : Nat) :
    (p.captureGrade segment).isNone = true ↔ (p.slot (slotOf segment)).recovered.grade = .none := by
  unfold Chip.captureGrade
  cases (p.slot (slotOf segment)).recovered.grade <;> decide

section

variable {p : Chip} {first count k : Nat}

theorem Chip.captureRefusal_clip (out : 3 < k) : p.captureRefusal first count k = some (.range, 1) := by
  unfold Chip.captureRefusal
  exact if_pos out

theorem Chip.captureRefusal_count (clip : k ≤ 3) (out : count = 0 ∨ 64 < count) :
    p.captureRefusal first count k = some (.range, 2) := by
  unfold Chip.captureRefusal
  rw [if_neg (Nat.not_lt.mpr clip), if_pos out]

variable (few : 1 ≤ count) (many : count ≤ 64)

include few many

theorem Chip.captureRefusal_segment (clip : k ≤ 3) (out : 16777213 < first + count) :
    p.captureRefusal first count k = some (.range, 3) := by
  have limit : Config.maxSegment = 16777212 := rfl
  unfold Chip.captureRefusal
  rw [if_neg (Nat.not_lt.mpr clip), if_neg (by omega), if_pos (by omega)]

variable {clip : Fin 4} (named : k = clip.val) (inside : first + count ≤ 16777213)

include named inside

/-- The checks of the clip and of the segments, once the operands are in range (R153). -/
theorem Chip.captureRefusal_eq : p.captureRefusal first count k =
    if (p.ecu.clips[clip]).state ≠ .empty then some (.badState, detailWith 1 (p.ecu.clips[clip]).state.code)
    else
      match (List.range count).find? fun g => !(p.isReady (first + g)) with
      | some g => some (.badState, detailWith 2 g)
      | none =>
        match (List.range count).find? fun g => (p.captureGrade (first + g)).isNone with
        | some g => some (.copy, g)
        | none => none := by
  have limit : Config.maxSegment = 16777212 := rfl
  have bound := clip.isLt
  obtain rfl : Fin.ofNat 4 k = clip := Fin.ext (Nat.mod_eq_of_lt (named ▸ bound) |>.trans named)
  unfold Chip.captureRefusal
  rw [if_neg (by omega), if_neg (by omega), if_neg (by omega)] <;> rfl

theorem Chip.captureRefusal_state (other : (p.ecu.clips[clip]).state ≠ .empty) :
    p.captureRefusal first count k = some (.badState, 1 + 256 * (p.ecu.clips[clip]).state.code) := by
  rw [Chip.captureRefusal_eq few many named inside, if_pos other]
  rfl

variable (empty : (p.ecu.clips[clip]).state = .empty)

include empty

theorem Chip.captureRefusal_notReady {g : Nat} (lt : g < count) (before : ∀ h, h < g → p.isReady (first + h) = true)
    (here : ¬p.isReady (first + g) = true) : p.captureRefusal first count k = some (.badState, 2 + 256 * g) := by
  have found : (List.range count).find? (fun g => !(p.isReady (first + g))) = some g :=
    List.find?_range_eq_some.mpr
      ⟨by simpa using here, List.mem_range.mpr lt, fun h below => by simpa using before h below⟩
  rw [Chip.captureRefusal_eq few many named inside, if_neg (not_not.mpr empty), found]
  rfl

variable (ready : ∀ h, h < count → p.isReady (first + h) = true)

include ready

theorem Chip.captureRefusal_grade {g : Nat} (lt : g < count)
    (before : ∀ h, h < g → ¬(p.captureGrade (first + h)).isNone = true)
    (here : (p.captureGrade (first + g)).isNone = true) : p.captureRefusal first count k = some (.copy, g) := by
  have none : (List.range count).find? (fun g => !(p.isReady (first + g))) = Option.none :=
    List.find?_range_eq_none.mpr fun h below => by simpa using ready h below
  have found : (List.range count).find? (fun g => (p.captureGrade (first + g)).isNone) = some g :=
    List.find?_range_eq_some.mpr ⟨here, List.mem_range.mpr lt, fun h below => by simp [before h below]⟩
  rw [Chip.captureRefusal_eq few many named inside, if_neg (not_not.mpr empty), none, found]

theorem Chip.captureRefusal_none (copies : ∀ h, h < count → ¬(p.captureGrade (first + h)).isNone = true) :
    p.captureRefusal first count k = none := by
  have none : (List.range count).find? (fun g => !(p.isReady (first + g))) = Option.none :=
    List.find?_range_eq_none.mpr fun h below => by simpa using ready h below
  have found : (List.range count).find? (fun g => (p.captureGrade (first + g)).isNone) = Option.none :=
    List.find?_range_eq_none.mpr fun h below => by simp [copies h below]
  rw [Chip.captureRefusal_eq few many named inside, if_neg (not_not.mpr empty), none, found]

end

/-- The greatest grade the generation function gives segments of which none is NONE (R154, R181). -/
theorem foldl_gen_max (grade : Nat → Grade) (l : List Nat) (copies : ∀ g ∈ l, grade g ≠ .none) (start : Grade)
    (known : start = .free ∨ start = .none) :
    l.foldl (fun m g => m.max ((grade g).gen.getD .none)) start =
      if start = .none ∨ l.any (fun g => grade g == .one) = true then .none else .free := by
  induction l generalizing start with
  | nil => rcases known with rfl | rfl <;> rfl
  | cons g l ih =>
    have rest := ih fun x member => copies x (List.mem_cons_of_mem _ member)
    rw [List.foldl_cons, List.any_cons]
    cases here : grade g with
    | free =>
      have same : start.max ((Grade.free.gen).getD .none) = start := by rcases known with rfl | rfl <;> decide
      rw [same, rest start known]
      rfl
    | one =>
      have top : start.max ((Grade.one.gen).getD .none) = .none := by rcases known with rfl | rfl <;> decide
      rw [top, rest .none (.inr rfl), if_pos (.inl rfl), if_pos (.inr rfl)]
    | none => exact absurd here (copies g List.mem_cons_self)

theorem Chip.clipGrade_eq {p : Chip} {first count : Nat}
    (copies : ∀ g, g < count → (p.slot (slotOf (first + g))).recovered.grade ≠ .none) : p.clipGrade first count =
      if (List.range count).any (fun g => (p.slot (slotOf (first + g))).recovered.grade == .one) then .none
      else .free := by
  refine (foldl_gen_max (fun g => (p.slot (slotOf (first + g))).recovered.grade) (List.range count)
    (fun g member => copies g (List.mem_range.mp member)) .free (.inl rfl)).trans ?_
  simp only [reduceCtorEq, false_or]

/-! ## CAPTURE and DROPCLIP (R153, R154, R157) -/

theorem Chip.captureClip_refused {p : Chip} {o : ReqOutcome} {d : Nat}
    (refused : p.captureRefusal (p.cpm.arg 0) (p.cpm.arg 1) (p.cpm.arg 2) = some (o, d)) :
    p.captureClip = p.report o d := by
  unfold Chip.captureClip
  dsimp only
  rw [refused]

theorem Chip.captureClip_begins {p : Chip}
    (passes : p.captureRefusal (p.cpm.arg 0) (p.cpm.arg 1) (p.cpm.arg 2) = none) :
    p.captureClip = p.beginCapture (p.cpm.arg 0) (p.cpm.arg 1) (Fin.ofNat 4 (p.cpm.arg 2)) := by
  unfold Chip.captureClip
  dsimp only
  rw [passes]

/-- A CAPTURE that fails a check is refused, and nothing else happens (R153). -/
theorem State.capture_refused {s : State} {w : PostedWrite} (asks : s.Asks w .capture) {o : ReqOutcome} {d : Nat}
    (refused : (s.asked w .capture).captureRefusal ((s.shadowed w).arg 0) ((s.shadowed w).arg 1)
      ((s.shadowed w).arg 2) = some (o, d)) :
    ∃ t, exec .capture s = .next t ∧ s.JustAnswers t w o d := by
  refine State.grantRequest_answers asks (fun _ p => p.captureClip) (Chip.captureClip_refused ?_)
  rw [State.asked_arg, State.asked_arg, State.asked_arg]
  exact refused

section

variable {p : Chip}

theorem Chip.dropClip_out (out : 3 < p.cpm.arg 0) : p.dropClip = p.report .range 1 := by
  unfold Chip.dropClip
  exact if_pos out

theorem Chip.dropClip_eq {k : Fin 4} (named : p.cpm.arg 0 = k.val) : p.dropClip =
    if (p.ecu.clips[k]).inUse then p.report .busy 1
    else (p.setClip k Clip.reset).report .done (p.ecu.clips[k]).state.code := by
  have bound := k.isLt
  obtain rfl : Fin.ofNat 4 (p.cpm.arg 0) = k := Fin.ext (Nat.mod_eq_of_lt (named ▸ bound) |>.trans named)
  unfold Chip.dropClip
  exact if_neg (by omega)

end

/-- Settles O28: the checks of R153 in their order, and what a CAPTURE that passes and a DROPCLIP leave. -/
theorem clipRequestsActOnTheirClip : Obligations.ClipRequestsActOnTheirClip := by
  unfold Obligations.ClipRequestsActOnTheirClip
  refine ⟨fun s w k asks => ?_, fun s w asks => ?_, fun s w asks => ?_⟩
  · intro a first count named few many inside empty segments
    have ready (g : Nat) (lt : g < count) : (s.asked w .capture).isReady (first + g) = true := by
      obtain ⟨holds, play, -⟩ := segments g lt
      exact (Chip.isReady_iff _ _).mpr ⟨holds, play⟩
    have copies (g : Nat) (lt : g < count) : (s.toChip.slot (slotOf (first + g))).recovered.grade ≠ .none := by
      obtain ⟨-, -, src, refused, baked, marker, rate, writer, grade, some, recovered⟩ := segments g lt
      rw [recovered]
      exact some
    have passes : (s.asked w .capture).captureRefusal first count (a.arg 2) = none :=
      Chip.captureRefusal_none few many named inside empty ready fun g lt none =>
        copies g lt ((Chip.captureGrade_none_iff _ _).mp none)
    have begins : (s.asked w .capture).captureClip = (s.asked w .capture).beginCapture first count k := by
      have same : Fin.ofNat 4 (a.arg 2) = k := named ▸ Fin.ext (Nat.mod_eq_of_lt k.isLt)
      rw [Chip.captureClip_begins (by rw [State.asked_arg, State.asked_arg, State.asked_arg]; exact passes),
        State.asked_arg, State.asked_arg, State.asked_arg, same]
    have grade : (s.asked w .capture).clipGrade first count = _ := Chip.clipGrade_eq copies
    obtain ⟨pinned, others⟩ := Chip.pinRun_slot (first := first) (show count ≤ 128 by omega) (s.asked w .capture)
    have begun := begins.trans (Chip.beginCapture_eq first count k (s.asked w .capture))
    refine ⟨_, (s.asked w .capture).newCapture first count k, ⟨s.cpm.nextRequest, some .capture, w.tag, false⟩,
      State.grantRequest_taken asks fun _ p => p.captureClip, ?_⟩
    dsimp only
    rw [begun]
    have offered := Chip.offers_offer .capture { s.asked w .capture with
      slots := ((s.asked w .capture).pinRun first count).slots
      ecu := (s.asked w .capture).capturing first count k }
    have ends := Chip.endHead_ends w (Chip.offer .capture { s.asked w .capture with
      slots := ((s.asked w .capture).pinRun first count).slots
      ecu := (s.asked w .capture).capturing first count k })
    generalize Chip.endHead w (Chip.offer .capture { s.asked w .capture with
      slots := ((s.asked w .capture).pinRun first count).slots
      ecu := (s.asked w .capture).capturing first count k }) = q at ends
    obtain ⟨-, ce, cu, rc, ecu⟩ := ends.tape
    refine ⟨?_, ?_, ?_, rfl, rfl, rfl, rfl, rfl, rfl, rfl, grade,
      ends.offers _ offered, ?_, ?_, ?_, rfl, rfl, ?_, ce, cu, rc, ends.dlc, ends.counter⟩
    · rw [ecu]
      exact Vector.getElem_set_self _
    · intro x other
      rw [ecu]
      exact clips_set_other _ _ other
    · rw [ecu]
      rfl
    · exact fun g lt => (ends.slot _).trans (pinned g lt)
    · exact fun i other => (ends.slot i).trans (others i other)
    · rw [ends.cpm]
      rfl
    · rw [ecu]
      rfl
  · intro a first count isReady copies
    have readies (g : Nat) : (s.asked w .capture).isReady (first + g) = true ↔ isReady g := Chip.isReady_iff _ _
    have nones (g : Nat) : ¬((s.asked w .capture).captureGrade (first + g)).isNone = true ↔ copies g :=
      not_congr (Chip.captureGrade_none_iff _ _)
    refine ⟨fun out => ?_, fun clip out => ?_, fun clip few many out => ?_, fun k named few many inside =>
      ⟨fun other => ?_, fun empty g lt before here => ?_, fun empty ready g lt before here => ?_⟩⟩
    · exact State.capture_refused asks (Chip.captureRefusal_clip out)
    · exact State.capture_refused asks (Chip.captureRefusal_count clip out)
    · exact State.capture_refused asks (Chip.captureRefusal_segment few many clip out)
    · exact State.capture_refused asks (Chip.captureRefusal_state few many named inside other)
    · exact State.capture_refused asks (Chip.captureRefusal_notReady few many named inside empty lt
        (fun h below => (readies h).mpr (before h below)) fun ready => here ((readies g).mp ready))
    · exact State.capture_refused asks (Chip.captureRefusal_grade few many named inside empty
        (fun h below => (readies h).mpr (ready h below)) lt (fun h below => (nones h).mpr (before h below))
        (not_not.mp fun some => here ((nones g).mp some)))
  · intro a
    refine ⟨fun out => ?_, fun k named => ?_⟩
    · exact State.grantRequest_answers asks (fun _ p => p.dropClip) 
        (Chip.dropClip_out (by rw [State.asked_arg]; exact out))
    have drops := Chip.dropClip_eq (p := s.asked w .dropClip) (k := k) (by rw [State.asked_arg]; exact named)
    rw [State.asked_ecu] at drops
    constructor
    · intro inUse
      exact State.grantRequest_answers asks (fun _ p => p.dropClip) (drops.trans (if_pos inUse))
    · intro free
      have done := drops.trans (if_neg (by rw [free]; decide))
      refine ⟨_, State.grantRequest_taken asks fun _ p => p.dropClip, ?_⟩
      dsimp only
      rw [done]
      generalize dropped : (s.asked w .dropClip).setClip k Clip.reset = p
      have pending : p.cpm.request = some ⟨s.cpm.nextRequest, some .dropClip, w.tag, false⟩ := by
        rw [← dropped]
        rfl
      have later : s.cpm.nextWrite ≤ p.cpm.nextWrite := by
        rw [← dropped]
        exact Nat.le_succ _
      obtain ⟨answers, -⟩ := State.report_answers pending later .done (s.ecu.clips[k]).state.code
      obtain ⟨reported, -⟩ := Chip.report_spec pending .done (s.ecu.clips[k]).state.code
      have ends := Chip.endHead_ends w (p.report .done (s.ecu.clips[k]).state.code)
      obtain ⟨slots, ce, cu, rc, ecu⟩ := reported.tape.trans ends.tape
      have dlc := ends.dlc.trans reported.dlc
      have cpm := reported.cpm.trans ends.cpm
      generalize (p.report .done (s.ecu.clips[k]).state.code).endHead w = q at *
      subst dropped
      refine ⟨?_, ?_, ?_, answers, slots, ce, cu, rc, dlc, ?_⟩
      · rw [ecu]
        rfl
      · rw [ecu]
        exact Vector.getElem_set_self _
      · intro x other
        rw [ecu]
        exact clips_set_other _ _ other
      · intro c
        unfold Chip.counter
        rw [cpm]
        rfl

end Sys2Proof.Machine


/-! PROOFS. What inner work on the tape side leaves alone: the request and the results on their way, captures and clips,
and the claims of the slots it is not about. -/

namespace Sys2Proof.Machine

/-! ## Slots that go on -/

/-- Slot record y comes after x: the claim is the same one with its pins and its consumed mark, or the slot has been
released, or claimed anew. -/
def SlotGoesOn (x y : Slot) : Prop :=
  x.serial ≤ y.serial ∧ (x.serial < y.serial ∨ y.claimed = false ∨
    (y.claimed = x.claimed ∧ y.segment = x.segment ∧ y.pins = x.pins ∧ (x.consumed = true → y.consumed = true)))

theorem SlotGoesOn.refl (x : Slot) : SlotGoesOn x x := ⟨Nat.le_refl _, .inr (.inr ⟨rfl, rfl, rfl, id⟩)⟩

theorem SlotGoesOn.trans {x y z : Slot} (h : SlotGoesOn x y) (k : SlotGoesOn y z) : SlotGoesOn x z := by
  obtain ⟨le, anew | free | ⟨claimed, segment, pins, consumed⟩⟩ := h
  · exact ⟨le.trans k.1, .inl (Nat.lt_of_lt_of_le anew k.1)⟩
  · obtain ⟨le', anew' | free' | ⟨claimed', -, -, -⟩⟩ := k
    · exact ⟨le.trans le', .inl (Nat.lt_of_le_of_lt le anew')⟩
    · exact ⟨le.trans le', .inr (.inl free')⟩
    · exact ⟨le.trans le', .inr (.inl (claimed'.trans free))⟩
  · obtain ⟨le', anew' | free' | ⟨claimed', segment', pins', consumed'⟩⟩ := k
    · exact ⟨le.trans le', .inl (Nat.lt_of_le_of_lt le anew')⟩
    · exact ⟨le.trans le', .inr (.inl free')⟩
    · exact ⟨le.trans le', .inr (.inr ⟨claimed'.trans claimed, segment'.trans segment, pins'.trans pins,
        consumed' ∘ consumed⟩)⟩

/-- A record with the same claim, pins and consumed mark. -/
theorem SlotGoesOn.sameClaim {x y : Slot} (serial : y.serial = x.serial := by rfl)
    (claimed : y.claimed = x.claimed := by rfl) (segment : y.segment = x.segment := by rfl)
    (pins : y.pins = x.pins := by rfl) (consumed : y.consumed = x.consumed := by rfl) : SlotGoesOn x y :=
  ⟨Nat.le_of_eq serial.symm, .inr (.inr ⟨claimed, segment, pins, fun marked => consumed.trans marked⟩)⟩

theorem SlotGoesOn.released {x y : Slot} (serial : y.serial = x.serial) (free : y.claimed = false) : SlotGoesOn x y :=
  ⟨Nat.le_of_eq serial.symm, .inr (.inl free)⟩

theorem SlotGoesOn.anew {x y : Slot} (later : x.serial < y.serial) : SlotGoesOn x y := ⟨Nat.le_of_lt later, .inl later⟩

/-! ## The relations -/

/-- b comes from a by inner work, outside the slots of S: CPM's registers stay but for counters and reports, and of the
counters only the underruns advance; results and notices stay on their way; no capture is offered, and the capture, the
clips and the run's parameters stay. -/
structure Chip.Toils (S : Fin 128 → Prop) (a b : Chip) : Prop where
  cpm : Cpm.SameButCounters a.cpm b.cpm
  counters : ∀ k, k ≠ .underrun → b.counter k = a.counter k
  nextWrite : a.cpm.nextWrite ≤ b.cpm.nextWrite
  results : ∀ r, r.cls = 6 → a.Offers r → b.Offers r
  noCapture : b.Offers .capture → a.Offers .capture
  capture : b.ecu.capture = a.ecu.capture
  clips : b.ecu.clips = a.ecu.clips
  slots : ∀ j, ¬S j → SlotGoesOn (a.slot j) (b.slot j)
  state : b.rc.state = a.rc.state
  params : b.rc.run.map RunRecord.params = a.rc.run.map RunRecord.params

/-- Inner work that advances no counter and leaves LBP and the link as they are, the offered fetch aside. -/
structure Chip.Frees (S : Fin 128 → Prop) (a b : Chip) : Prop extends a.Toils S b where
  sameCpm : Cpm.SameButReports a.cpm b.cpm
  lbp : b.lbp = a.lbp
  dlc : b.dlc = { a.dlc with fetch := b.dlc.fetch }

theorem Cpm.SameButCounters.trans {a b c : Cpm} (h : Cpm.SameButCounters a b) (k : Cpm.SameButCounters b c) :
    Cpm.SameButCounters a c := by
  unfold Cpm.SameButCounters Cpm.SameButReports at h k ⊢
  rw [k]
  conv_lhs => rw [h]

namespace Chip.Toils

variable {S : Fin 128 → Prop} {a p q : Chip}

theorem refl (S : Fin 128 → Prop) (p : Chip) : p.Toils S p where
  cpm := rfl
  counters := fun _ _ => rfl
  nextWrite := Nat.le_refl _
  results := fun _ _ => id
  noCapture := id
  capture := rfl
  clips := rfl
  slots := fun _ _ => .refl _
  state := rfl
  params := rfl

theorem trans (h : a.Toils S p) (k : p.Toils S q) : a.Toils S q where
  cpm := h.cpm.trans k.cpm
  counters := fun x ne => (k.counters x ne).trans (h.counters x ne)
  nextWrite := h.nextWrite.trans k.nextWrite
  results := fun r cls x => k.results r cls (h.results r cls x)
  noCapture := h.noCapture ∘ k.noCapture
  capture := k.capture.trans h.capture
  clips := k.clips.trans h.clips
  slots := fun j out => (h.slots j out).trans (k.slots j out)
  state := k.state.trans h.state
  params := k.params.trans h.params

/-- An update of none of it. -/
theorem update (h : a.Toils S p) (cpm : q.cpm = p.cpm := by rfl) (mp : q.mp = p.mp := by rfl)
    (capture : q.ecu.capture = p.ecu.capture := by rfl) (clips : q.ecu.clips = p.ecu.clips := by rfl)
    (slots : q.slots = p.slots := by rfl) (state : q.rc.state = p.rc.state := by rfl)
    (run : q.rc.run = p.rc.run := by rfl) : a.Toils S q :=
  h.trans { refl S p with
    cpm := by rw [cpm]; rfl
    counters := fun k _ => by unfold Chip.counter; rw [cpm]
    nextWrite := by rw [cpm]
    results := fun r _ x => by unfold Chip.Offers; rw [mp]; exact x
    noCapture := fun x => by unfold Chip.Offers; rw [← mp]; exact x
    capture := capture
    clips := clips
    slots := fun j _ => by unfold Chip.slot; rw [slots]; exact .refl _
    state := state
    params := by rw [run] }

theorem foldl {α : Type} {f : Chip → α → Chip} (hf : ∀ q x, a.Toils S q → a.Toils S (f q x)) (l : List α)
    (h : a.Toils S p) : a.Toils S (l.foldl f p) :=
  List.foldlRecOn l f h fun q hq x _ => hf q x hq

end Chip.Toils

namespace Chip.Frees

variable {S : Fin 128 → Prop} {a p q : Chip}

theorem refl (S : Fin 128 → Prop) (p : Chip) : p.Frees S p := ⟨.refl S p, .refl _, rfl, rfl⟩

theorem trans (h : a.Frees S p) (k : p.Frees S q) : a.Frees S q where
  toToils := h.toToils.trans k.toToils
  sameCpm := h.sameCpm.trans k.sameCpm
  lbp := k.lbp.trans h.lbp
  dlc := by rw [k.dlc, h.dlc]

/-- An update of none of it. -/
theorem update (h : a.Frees S p) (cpm : q.cpm = p.cpm := by rfl) (mp : q.mp = p.mp := by rfl)
    (lbp : q.lbp = p.lbp := by rfl) (dlc : q.dlc = { p.dlc with fetch := q.dlc.fetch } := by rfl)
    (capture : q.ecu.capture = p.ecu.capture := by rfl) (clips : q.ecu.clips = p.ecu.clips := by rfl)
    (slots : q.slots = p.slots := by rfl) (state : q.rc.state = p.rc.state := by rfl)
    (run : q.rc.run = p.rc.run := by rfl) : a.Frees S q :=
  h.trans ⟨(Chip.Toils.refl S p).update cpm mp capture clips slots state run, by rw [cpm]; exact .refl _, lbp, dlc⟩

theorem foldl {α : Type} {f : Chip → α → Chip} (hf : ∀ q x, a.Frees S q → a.Frees S (f q x)) (l : List α)
    (h : a.Frees S p) : a.Frees S (l.foldl f p) :=
  List.foldlRecOn l f h fun q hq x _ => hf q x hq

/-- Reports that offer no capture are such work. -/
theorem reports (h : a.Frees S p) (k : p.Reports q) (noCapture : q.Offers .capture → p.Offers .capture) :
    a.Frees S q :=
  h.trans ⟨{ cpm := k.cpm.sameButCounters rfl
             counters := fun x _ => k.counter x
             nextWrite := k.nextWrite
             results := fun r _ => k.offers r
             noCapture := noCapture
             capture := by rw [k.ecu]
             clips := by rw [k.ecu]
             slots := fun j _ => by rw [k.slot]; exact .refl _
             state := by rw [k.rc]
             params := by rw [k.rc] }, k.cpm, k.lbp, by rw [k.dlc]⟩

end Chip.Frees

section

variable {S : Fin 128 → Prop} {a p : Chip}

/-! ## Requests of MP and reports -/

theorem Chip.offer_frees {r : Req} (other : Req.capture ≠ r) (h : a.Frees S p) : a.Frees S (p.offer r) :=
  h.reports (Chip.offer_reports r p) (Chip.offers_of_offer other)

theorem Chip.offers_of_withdraw {r x : Req} (h : (p.withdraw r).Offers x) : p.Offers x := by
  obtain ⟨o, member, rfl⟩ := h
  have queues : (p.withdraw r).mp.queues = (p.mp.remove r).queues := by
    unfold Chip.withdraw Mp.withdraw
    dsimp only
    split <;> rfl
  rw [queues] at member
  unfold Mp.remove at member
  simp only [Fin.getElem_fin, Vector.getElem_set] at member
  refine ⟨o, ?_, rfl⟩
  split at member
  · rename_i same
    have cls : r.cls = o.req.cls := Fin.ext same
    have kept := List.mem_of_mem_eraseP member
    simpa [cls] using kept
  · exact member

theorem Chip.withdraw_frees {r : Req} (other : r.cls ≠ 6) (h : a.Frees S p) : a.Frees S (p.withdraw r) :=
  h.trans { Chip.Frees.refl S p with
    results := fun _ cls => Chip.offers_withdraw fun same => other (same ▸ cls)
    noCapture := Chip.offers_of_withdraw }

theorem Chip.raise_frees (n : Notice) (h : a.Frees S p) : a.Frees S (p.raise n) :=
  h.reports (Chip.raise_reports n p) (Chip.offers_of_raise n (by decide))

theorem Chip.noteStatus_frees (h : a.Frees S p) : a.Frees S p.noteStatus :=
  h.reports (Chip.noteStatus_reports p) (Chip.offers_of_noteStatus (by decide))

theorem Chip.dirtyRunWords_frees (h : a.Frees S p) : a.Frees S p.dirtyRunWords := by
  refine h.reports (Chip.dirtyRunWords_reports p) fun offered => ?_
  unfold Chip.dirtyRunWords at offered
  split at offered
  · exact offered
  · exact Chip.offers_of_noteStatus (by decide) (Chip.offers_of_markDirty _ (by decide) offered)

theorem Chip.offerResult_frees (r : Result) (closes : Option Nat) (h : a.Frees S p) :
    a.Frees S (p.offerResult r closes) := by
  refine h.reports (Chip.offerResult_reports r closes p) fun offered => ?_
  have other : Req.capture ≠ .result p.cpm.nextWrite r closes := nofun
  exact Chip.offers_of_offer other offered

/-! ## Slots and the run -/

theorem Chip.setSlot_frees {i : Fin 128} {x : Slot} (goes : S i ∨ SlotGoesOn (p.slot i) x) (h : a.Frees S p) :
    a.Frees S (p.setSlot i x) :=
  h.trans { Chip.Frees.refl S p with
    slots := fun j out => by
      by_cases same : j = i
      · subst same
        rw [Chip.slot_setSlot_same]
        exact goes.resolve_left out
      · rw [Chip.slot_setSlot_other x p same]
        exact .refl _ }

theorem Chip.modSlot_frees {i : Fin 128} {f : Slot → Slot} (goes : S i ∨ ∀ x, SlotGoesOn x (f x)) (h : a.Frees S p) :
    a.Frees S (p.modSlot i f) := Chip.setSlot_frees (goes.imp_right fun keeps => keeps _) h

theorem Chip.modRun_frees {f : RunRecord → RunRecord} (params : ∀ r, (f r).params = r.params) (h : a.Frees S p) :
    a.Frees S (p.modRun f) :=
  h.trans { Chip.Frees.refl S p with
    params := by
      unfold Chip.modRun
      dsimp only
      rw [Option.map_map]
      exact congrArg (Option.map · p.rc.run) (funext params) }

theorem Chip.moveWindow_frees (h : a.Frees S p) : a.Frees S p.moveWindow := Chip.modRun_frees (fun _ => rfl) h

theorem Chip.settle_frees (h : a.Frees S p) : a.Frees S p.settle := Chip.modRun_frees (fun _ => rfl) h

theorem Chip.bump_toils (n : Nat) (h : a.Toils S p) : a.Toils S (p.bump .underrun n) :=
  h.trans { Chip.Toils.refl S p with
    cpm := rfl
    counters := fun _ ne => Chip.counter_bump_other n p ne }

/-! ## CE's items (R77, R79) -/

theorem Chip.setJob_frees (j : Option CeJob) (h : a.Frees S p) : a.Frees S (p.setJob j) := h.update

theorem Chip.queueItem_frees (it : CeItem) (h : a.Frees S p) : a.Frees S (p.queueItem it) := h.update

theorem Chip.noteAux_frees (j : DecodeJob) (h : a.Frees S p) : a.Frees S (p.noteAux j) := by
  have mism : a.Frees S (if mismatchedBlocks j.segment j.aux = 0 then p
      else p.raise (.tMismatch j.segment (mismatchedBlocks j.segment j.aux))) := by
    split
    · exact h
    · exact Chip.raise_frees _ h
  unfold Chip.noteAux
  dsimp only
  split
  · exact Chip.raise_frees _ mism
  · exact mism

theorem Chip.offerCode_frees (h : a.Frees S p) : a.Frees S (p.offer .codeEngine) := Chip.offer_frees nofun h

theorem Chip.withdrawCode_frees (h : a.Frees S p) : a.Frees S (p.withdraw .codeEngine) :=
  Chip.withdraw_frees (by decide) h

theorem Chip.decodeAdvance_frees (j : DecodeJob) (h : a.Frees S p) : a.Frees S (p.decodeAdvance j) := by
  unfold Chip.decodeAdvance
  dsimp only
  split
  · exact Chip.offerCode_frees (Chip.setJob_frees _ h)
  · split
    · exact Chip.setJob_frees _ (Chip.noteAux_frees j h)
    · exact Chip.offerCode_frees (Chip.setJob_frees _ (Chip.noteAux_frees j h))

theorem Chip.voidDecode_frees (i : Fin 128) (h : a.Frees S p) : a.Frees S (p.voidDecode i) := by
  have left : a.Frees S (p.unqueue (CeItem.decodes i)) := h.update
  unfold Chip.voidDecode
  dsimp only
  split
  · split
    · split
      · exact Chip.setJob_frees _ left
      · exact Chip.decodeAdvance_frees _ (Chip.withdrawCode_frees left)
      · exact Chip.setJob_frees _ (Chip.withdrawCode_frees left)
    · exact left
  · exact left

theorem Chip.voidCode_frees (i : Fin 128) (h : a.Frees S p) : a.Frees S (p.voidCode i) := by
  have left : a.Frees S (p.unqueue (CeItem.codes i)) := h.update
  unfold Chip.voidCode
  dsimp only
  split
  · split
    · split
      · split
        · exact Chip.setJob_frees _ left
        · exact Chip.setJob_frees _ left
      · exact Chip.setJob_frees _ (Chip.withdrawCode_frees left)
    · exact left
  · exact left

/-! ## The undo stack, saves and loads (R161 to R169) -/

theorem Chip.offerMirror_frees (place : Nat) (ws : List Word) (h : a.Frees S p) :
    a.Frees S (p.offerMirror place ws) := Chip.offer_frees nofun h

theorem Chip.freeImage_frees (u : Fin 256) (h : a.Frees S p) : a.Frees S (p.freeImage u) := h.update

theorem Chip.pushEntry_frees (e : StackEntry) (h : a.Frees S p) : a.Frees S (p.pushEntry e) :=
  (Chip.offerMirror_frees _ _ h).update

theorem Chip.freeNamed_frees (e : StackEntry) (h : a.Frees S p) : a.Frees S (p.freeNamed e) := by
  unfold Chip.freeNamed
  split
  · exact Chip.freeImage_frees _ h
  · exact h

theorem Chip.popEntry_frees (h : a.Frees S p) : a.Frees S p.popEntry := by
  unfold Chip.popEntry
  split
  · exact h
  · exact Chip.freeNamed_frees _ (Chip.offerMirror_frees _ _ h).update

theorem Chip.dropEntry_frees (h : a.Frees S p) : a.Frees S p.dropEntry := by
  unfold Chip.dropEntry
  split
  · exact h
  · exact Chip.freeNamed_frees _ (Chip.offerMirror_frees _ _ h).update

theorem Chip.dropRun_frees (h : a.Frees S p) : a.Frees S p.dropRun :=
  Chip.Frees.foldl (fun _ _ => Chip.dropEntry_frees) _ h

theorem secure_frees (met : Ecu → Bool) (n : Nat) (h : a.Frees S p) : a.Frees S (secure met n p) := by
  induction n generalizing p with
  | zero => exact h
  | succ n ih =>
    unfold secure
    split
    · exact h
    · exact ih (Chip.dropRun_frees h)

theorem Chip.saveProceed_frees (h : a.Frees S p) : a.Frees S p.saveProceed := by
  unfold Chip.saveProceed
  split
  · split
    · split
      · split
        · exact h
        · exact h.update
      · split
        · exact Chip.offer_frees nofun h.update
        · exact h
    · exact h
  · exact h

theorem Chip.voidSaving_frees (j : SaveJob) (h : a.Frees S p) : a.Frees S (p.voidSaving j) := by
  have freed := Chip.freeImage_frees j.save.image h
  unfold Chip.voidSaving
  dsimp only
  split
  · exact Chip.saveProceed_frees freed.update
  · exact Chip.withdraw_frees (by decide) freed.update

theorem Chip.dropSaves_frees (i : Fin 128) (h : a.Frees S p) : a.Frees S (p.dropSaves i) := by
  have freed : a.Frees S ((p.ecu.saves.filter fun x => x.slot == i).foldl (fun p x => p.freeImage x.image) p) :=
    Chip.Frees.foldl (fun _ _ => Chip.freeImage_frees _) _ h
  unfold Chip.dropSaves
  dsimp only
  split
  · split
    · exact Chip.voidSaving_frees _ freed.update
    · exact freed.update
  · exact freed.update

theorem Slot.saveVoided_goesOn (x : Slot) : SlotGoesOn x x.saveVoided := by
  unfold Slot.saveVoided
  split
  · exact .sameClaim
  · exact .refl x

theorem Chip.voidSave_frees (i : Fin 128) (h : a.Frees S p) : a.Frees S (p.voidSave i) := by
  rw [Chip.voidSave_eq]
  exact Chip.modSlot_frees (.inr Slot.saveVoided_goesOn) (Chip.dropSaves_frees i h)

theorem Chip.beginLoad_frees (l : Load) (h : a.Frees S p) : a.Frees S (p.beginLoad l) :=
  Chip.offer_frees nofun h.update

theorem Chip.voidLoad_frees (i : Fin 128) (h : a.Frees S p) : a.Frees S (p.voidLoad i) := by
  unfold Chip.voidLoad
  split
  · exact Chip.withdraw_frees (r := .load i) (by show (5 : Fin 7) ≠ 6; decide) h.update
  · exact h

theorem Chip.withdrawFetch_frees (h : a.Frees S p) : a.Frees S p.withdrawFetch := by
  unfold Chip.withdrawFetch
  split
  · exact Chip.withdraw_frees (by decide) h.update
  · exact h

theorem Chip.withdrawFetchOf_frees (i : Fin 128) (h : a.Frees S p) : a.Frees S (p.withdrawFetchOf i) := by
  unfold Chip.withdrawFetchOf
  split
  · split
    · exact Chip.withdrawFetch_frees h
    · exact h
  · exact h

/-! ## The slot table (R49, R50, R57, R59, R62) -/

theorem Chip.releaseSlot_frees (i : Fin 128) (h : a.Frees S p) : a.Frees S (p.releaseSlot i) := by
  unfold Chip.releaseSlot
  exact Chip.modSlot_frees (.inr fun x => .released rfl rfl) (Chip.withdrawFetchOf_frees i (Chip.voidLoad_frees i
    (Chip.voidSave_frees i (Chip.voidCode_frees i (Chip.voidDecode_frees i h)))))

theorem Chip.release_frees (i : Fin 128) (h : a.Frees S p) : a.Frees S (p.release i) :=
  Chip.moveWindow_frees (Chip.releaseSlot_frees i h)

theorem Chip.releaseTest_frees (i : Fin 128) (h : a.Frees S p) : a.Frees S (p.releaseTest i) := by
  unfold Chip.releaseTest
  split
  · exact Chip.release_frees i h
  · exact h

theorem Chip.releaseAll_frees (h : a.Frees S p) : a.Frees S p.releaseAll := by
  unfold Chip.releaseAll
  refine Chip.Frees.foldl (fun q i hq => ?_) _ (Chip.Frees.foldl (fun q i hq => ?_) _ h)
  · split
    · exact Chip.modSlot_frees (.inr fun _ => .sameClaim) hq
    · exact hq
  · split
    · exact Chip.releaseSlot_frees i hq
    · exact hq

theorem Chip.discardWrite_frees (i : Fin 128) (h : a.Frees S p) : a.Frees S (p.discardWrite i) := by
  unfold Chip.discardWrite
  exact Chip.modSlot_frees (.inr fun _ => .sameClaim) (Chip.withdrawFetchOf_frees i (Chip.voidLoad_frees i
    (Chip.voidSave_frees i (Chip.voidCode_frees i h))))

theorem Chip.queueDecode_frees (i : Fin 128) (h : a.Frees S p) : a.Frees S (p.queueDecode i) :=
  Chip.queueItem_frees _ (Chip.setSlot_frees (.inr .sameClaim) h)

theorem Chip.queueTest_frees (i : Fin 128) (h : a.Frees S p) : a.Frees S (p.queueTest i) := by
  unfold Chip.queueTest
  dsimp only
  split
  · exact h
  · split
    · exact Chip.queueItem_frees _ h
    · exact h

theorem Chip.consume_frees (segment : Nat) (h : a.Frees S p) : a.Frees S (p.consume segment) := by
  unfold Chip.consume
  dsimp only
  split
  · exact Chip.releaseTest_frees _ (Chip.modSlot_frees
      (.inr fun x => ⟨Nat.le_refl _, .inr (.inr ⟨rfl, rfl, rfl, fun _ => rfl⟩)⟩) h)
  · exact h

/-- The evaluations of reads end in CU (R137). -/
theorem Chip.endReadEvals_frees (h : a.Frees S p) : a.Frees S p.endReadEvals := by
  unfold Chip.endReadEvals
  refine Chip.Frees.foldl (fun q e hq => ?_) _ h
  have dropped : a.Frees S (q.dropEval e.id) := hq.update
  dsimp only
  split
  · exact Chip.withdraw_frees (r := .neighbour e.id) (by show (0 : Fin 7) ≠ 6; decide) dropped
  · exact dropped

/-- An unpin works on its own slot (R61). -/
theorem Chip.unpin_frees {i : Fin 128} (on : S i) (h : a.Frees S p) : a.Frees S (p.unpin i) :=
  Chip.releaseTest_frees i (Chip.modSlot_frees (.inl on) h)

/-! ## Claims, the cursor, the fetch (R48, R89, R90) -/

/-- Inner work that leaves LBP and the link alone is inner work. -/
theorem Chip.Toils.frees {q : Chip} (h : a.Toils S p) (k : p.Frees S p → p.Frees S q) : a.Toils S q :=
  h.trans (k (.refl S p)).toToils

theorem Chip.handOmit_toils (segment : Nat) (h : a.Toils S p) : a.Toils S (p.handOmit segment) := by
  unfold Chip.handOmit
  split
  · exact h.update
  · exact h

theorem Chip.closeByDue_toils (i : Fin 128) (h : a.Toils S p) : a.Toils S (p.closeByDue i) :=
  (Chip.bump_toils 1 (h.frees (Chip.modSlot_frees (.inr fun _ => .sameClaim)))).frees (Chip.queueTest_frees i)

theorem Chip.claimPassed_toils (r : RunRecord) (i : Fin 128) (h : a.Toils S p) : a.Toils S (p.claimPassed r i) := by
  unfold Chip.claimPassed
  dsimp only
  split
  · exact h
  · exact Chip.closeByDue_toils i h
  · split
    · exact h
    · exact (Chip.handOmit_toils _ h).frees fun f =>
        Chip.settle_frees (Chip.discardWrite_frees i (Chip.raise_frees _ f))
  · split
    · exact h
    · exact (Chip.handOmit_toils _ (h.frees (Chip.discardWrite_frees i))).frees fun f =>
        Chip.release_frees i (Chip.settle_frees f)

theorem Chip.beginLoadOf_frees (i : Fin 128) (h : a.Frees S p) : a.Frees S (p.beginLoadOf i) := by
  unfold Chip.beginLoadOf
  dsimp only
  split
  · exact Chip.beginLoad_frees _ h
  · exact h

theorem Chip.claimSlot_toils (r : RunRecord) (q : Nat) (i : Fin 128) (h : a.Toils S p) :
    a.Toils S (p.claimSlot r q i) := by
  have claimed : a.Toils S (p.setSlot i (p.claimedSlot r q (p.slot i))) :=
    h.frees (Chip.setSlot_frees (.inr (.anew (Nat.lt_succ_self _))))
  have decoding := claimed.frees (Chip.queueDecode_frees i)
  unfold Chip.claimSlot
  dsimp only
  split <;> split
  · exact Chip.claimPassed_toils r i decoding
  · exact Chip.claimPassed_toils r i claimed
  · exact decoding.frees (Chip.beginLoadOf_frees i)
  · exact claimed.frees (Chip.beginLoadOf_frees i)

theorem Chip.claim_toils (q : Nat) (h : a.Toils S p) : a.Toils S (p.claim q) := by
  unfold Chip.claim
  split
  · exact h
  · dsimp only
    split
    · exact h
    · exact Chip.claimSlot_toils _ _ _ h

theorem Chip.cursorStep_toils {q : Chip} (moved : p.cursorStep = some q) (h : a.Toils S p) : a.Toils S q := by
  unfold Chip.cursorStep at moved
  split at moved
  · cases moved
  · split at moved
    · cases moved
      unfold Chip.passCursor
      dsimp only
      split
      · exact h.update.frees (Chip.release_frees _)
      · exact h.update
    · cases moved

theorem progressLoop_toils (n : Nat) (h : a.Toils S p) : a.Toils S (progressLoop n p) := by
  induction n generalizing p with
  | zero => exact h
  | succ n ih =>
    unfold progressLoop
    split
    · rename_i moved
      exact ih (Chip.cursorStep_toils moved h)
    · split
      · exact ih (Chip.claim_toils _ h)
      · exact h

theorem Chip.progress_toils (h : a.Toils S p) : a.Toils S p.progress := by
  unfold Chip.progress
  split
  · exact h
  · exact progressLoop_toils _ h

theorem Chip.offerFetch_frees (h : a.Frees S p) : a.Frees S p.offerFetch := by
  unfold Chip.offerFetch
  split
  · exact h
  · split
    · exact Chip.offer_frees nofun h.update
    · exact h

/-! ## The drain and the abort (R115, R116, R121) -/

theorem Chip.countOmit_frees (h : a.Frees S p) : a.Frees S p.countOmit := Chip.modRun_frees (fun _ => rfl) h

theorem Chip.giveUpPlay_frees (i : Fin 128) (h : a.Frees S p) : a.Frees S (p.giveUpPlay i) := by
  unfold Chip.giveUpPlay
  split
  · exact Chip.queueDecode_frees i h
  · exact h

theorem Chip.drainWrite_toils (i : Fin 128) (h : a.Toils S p) : a.Toils S (p.drainWrite i) := by
  have omitted : a.Toils S ((p.discardWrite i).handOmit (p.slot i).segment).countOmit :=
    (Chip.handOmit_toils _ (h.frees (Chip.discardWrite_frees i))).frees Chip.countOmit_frees
  unfold Chip.drainWrite
  dsimp only
  split
  · exact omitted
  · exact omitted
  · exact omitted
  · exact omitted
  · exact h
  · exact h
  · exact h

theorem Chip.testReleases_frees (l : List (Fin 128)) (h : a.Frees S p) : a.Frees S (p.testReleases l) :=
  Chip.Frees.foldl (fun _ i => Chip.releaseTest_frees i) l h

theorem Chip.abortRelease_frees (i : Fin 128) (h : a.Frees S p) : a.Frees S (p.abortRelease i) := by
  unfold Chip.abortRelease
  dsimp only
  split
  · exact Chip.release_frees i h
  · exact Chip.releaseTest_frees i h

end

end Sys2Proof.Machine


/-! PROOFS. What the work of a request leaves alone (R29, R32): the results on their way and the request itself,
captures, the claims of slots, and clips no run uses; captures dropped (R156) and slots released (R62). -/

namespace Sys2Proof.Machine

/-! ## The relations -/

/-- The request b is a, or a with its final result offered. -/
def RequestGoesOn (a b : Option PendingRequest) : Prop := b = a ∨ ∃ q, a = some q ∧ b = some { q with reported := true }

theorem RequestGoesOn.trans {a b c : Option PendingRequest} (h : RequestGoesOn a b) (k : RequestGoesOn b c) :
    RequestGoesOn a c := by
  rcases h with rfl | ⟨q, rfl, rfl⟩
  · exact k
  · rcases k with rfl | ⟨x, same, rfl⟩
    · exact .inr ⟨q, rfl, rfl⟩
    · cases same
      exact .inr ⟨q, rfl, rfl⟩

/-- The clip is EMPTY and the run in the record does not use it. -/
def Chip.Spares (k : Fin 4) (p : Chip) : Prop :=
  p.ecu.clips[k] = Clip.reset ∧ ∀ x a b n, p.rc.run.map RunRecord.params ≠ some (.edit x (some k) a b n)

/-- Results stay on their way, no request is taken, the one in progress is at most answered, and of the counters only
the underruns advance. -/
structure Chip.Attends (a b : Chip) : Prop where
  counters : ∀ k, k ≠ .underrun → b.counter k = a.counter k
  nextWrite : a.cpm.nextWrite ≤ b.cpm.nextWrite
  nextRequest : b.cpm.nextRequest = a.cpm.nextRequest
  request : RequestGoesOn a.cpm.request b.cpm.request
  results : ∀ r, r.cls = 6 → a.Offers r → b.Offers r

/-- Besides, no capture begins, every claim goes on, and a clip that is EMPTY and not in use stays so. -/
structure Chip.Serves (a b : Chip) : Prop extends a.Attends b where
  capture : a.ecu.capture = none → b.ecu.capture = none
  noCapture : b.Offers .capture → a.Offers .capture
  slots : ∀ j, SlotGoesOn (a.slot j) (b.slot j)
  spares : ∀ k, a.Spares k → b.Spares k

/-- No slot is excepted. -/
def noSlot : Fin 128 → Prop := fun _ => False

section

variable {S : Fin 128 → Prop} {a p q : Chip}

theorem Chip.Attends.refl (p : Chip) : p.Attends p := ⟨fun _ _ => rfl, Nat.le_refl _, rfl, .inl rfl, fun _ _ => id⟩

theorem Chip.Attends.trans (h : a.Attends p) (k : p.Attends q) : a.Attends q where
  counters := fun x ne => (k.counters x ne).trans (h.counters x ne)
  nextWrite := h.nextWrite.trans k.nextWrite
  nextRequest := k.nextRequest.trans h.nextRequest
  request := h.request.trans k.request
  results := fun r cls x => k.results r cls (h.results r cls x)

theorem Chip.Serves.refl (p : Chip) : p.Serves p := ⟨.refl p, id, id, fun _ => .refl _, fun _ => id⟩

theorem Chip.Serves.trans (h : a.Serves p) (k : p.Serves q) : a.Serves q where
  toAttends := h.toAttends.trans k.toAttends
  capture := k.capture ∘ h.capture
  noCapture := h.noCapture ∘ k.noCapture
  slots := fun j => (h.slots j).trans (k.slots j)
  spares := fun x => k.spares x ∘ h.spares x

theorem Chip.Toils.attends (h : a.Toils S p) : a.Attends p where
  counters := h.counters
  nextWrite := h.nextWrite
  nextRequest := by rw [h.cpm]
  request := .inl (by rw [h.cpm])
  results := h.results

theorem Chip.Toils.serves (h : a.Toils noSlot p) : a.Serves p where
  toAttends := h.attends
  capture := fun none => h.capture.trans none
  noCapture := h.noCapture
  slots := fun j => h.slots j id
  spares := fun k ⟨empty, unused⟩ => by
    unfold Chip.Spares
    rw [h.clips, h.params]
    exact ⟨empty, unused⟩

theorem Chip.Serves.toils (h : a.Serves p) (k : p.Toils noSlot p → p.Toils noSlot q) : a.Serves q :=
  h.trans (k (.refl _ p)).serves

theorem Chip.Serves.frees (h : a.Serves p) (k : p.Frees noSlot p → p.Frees noSlot q) : a.Serves q :=
  h.trans (k (.refl _ p)).serves

/-! ## Final reports -/

theorem Chip.report_serves (o : ReqOutcome) (d : Nat) (h : a.Serves p) : a.Serves (p.report o d) := by
  cases pending : p.cpm.request with
  | none =>
    have same : p.noteStatus.cpm.request = none := by
      rw [(Chip.noteStatus_reports p).cpm]
      exact pending
    have noted : p.report o d = p.noteStatus := by
      unfold Chip.report
      dsimp only
      rw [same]
    rw [noted]
    exact h.frees Chip.noteStatus_frees
  | some x =>
    rw [Chip.report_eq pending]
    have offered := h.frees fun f =>
      Chip.offerResult_frees ⟨x.tag, o, d⟩ (some x.id) (Chip.noteStatus_frees f)
    have same : (p.noteStatus.offerResult ⟨x.tag, o, d⟩ (some x.id)).cpm.request = some x := by
      rw [((Chip.noteStatus_reports p).trans (Chip.offerResult_reports _ _ _)).cpm]
      exact pending
    exact offered.trans { Chip.Serves.refl _ with request := .inr ⟨x, same, rfl⟩ }

theorem Chip.answerStop_serves (cause : EndCause) (omitted : Nat) (h : a.Serves p) :
    a.Serves (p.answerStop cause omitted) := by
  unfold Chip.answerStop
  split
  · split
    · exact Chip.report_serves _ _ h
    · exact h
  · exact h

/-! ## Reads released (R13, R20, R137) -/

theorem Chip.completeZeros_toils (e : Fin 8) (h : a.Toils S p) : a.Toils S (p.completeZeros e) := by
  cases tracked : p.read e with
  | none =>
    unfold Chip.completeZeros
    rw [tracked]
    exact h
  | some r =>
    rw [Chip.completeZeros_eq tracked, Chip.completeRead_eq tracked]
    exact h.update

theorem Chip.releaseReads_toils (h : a.Toils S p) : a.Toils S p.releaseReads := by
  unfold Chip.releaseReads
  refine Chip.Toils.foldl (fun q e hq => ?_) _ h
  split
  · exact hq
  · split
    · exact Chip.completeZeros_toils _ hq
    · exact hq

/-! ## Captures abandoned (R156) -/

/-- The capture's request off MP, and the capture off ECU: the part of `Chip.dropCapture` before the unpins. -/
def Chip.quitCapture (c : Capture) (p : Chip) : Chip :=
  let p := match c.stage with
    | .concealing => p
    | _ => p.withdraw .capture
  { p with ecu := { p.ecu with capture := none } }

/-- The slots of a capture's segments not yet copied. -/
def Capture.pinned (c : Capture) : List (Fin 128) :=
  (List.range (c.count - c.segment)).map fun g => slotOf (c.first + c.segment + g)

theorem Chip.dropCapture_eq (c : Capture) (p : Chip) :
    p.dropCapture c = (c.pinned.foldl (fun p i => p.unpin i) (p.quitCapture c)).setClip c.clip Clip.reset := by
  unfold Capture.pinned
  rw [List.foldl_map]
  rfl

theorem Chip.quitCapture_eq (c : Capture) (p : Chip) : p.quitCapture c =
    { (if c.stage = .concealing then p else p.withdraw .capture) with ecu := { p.ecu with capture := none } } := by
  unfold Chip.quitCapture
  cases c.stage <;> rfl

/-- A withdrawal leaves none of its requests where one waited at most. -/
theorem Chip.withdraw_gone {r : Req} {p : Chip} (one : (p.mp.queues[r.cls]).countP (fun o => o.req == r) ≤ 1) :
    ¬(p.withdraw r).Offers r := by
  have rest (l : List Offer) (few : l.countP (fun o => o.req == r) ≤ 1) :
      ∀ o ∈ l.eraseP (fun o => o.req == r), o.req ≠ r := by
    induction l with
    | nil => nofun
    | cons x l ih =>
      by_cases here : x.req = r
      · rw [List.countP_cons_of_pos (by simpa using here)] at few
        rw [List.eraseP_cons_of_pos (by simpa using here)]
        intro o member same
        have none := List.countP_eq_zero.mp (show l.countP (fun o => o.req == r) = 0 by omega) o member
        exact none (by simpa using same)
      · rw [List.countP_cons_of_neg (by simpa using here)] at few
        rw [List.eraseP_cons_of_neg (by simpa using here)]
        intro o member
        rcases List.mem_cons.mp member with rfl | later
        · exact here
        · exact ih few o later
  rintro ⟨o, member, same⟩
  have queues : (p.withdraw r).mp.queues = (p.mp.remove r).queues := by
    unfold Chip.withdraw Mp.withdraw
    dsimp only
    split <;> rfl
  rw [queues] at member
  have erased : (p.mp.remove r).queues[r.cls] = (p.mp.queues[r.cls]).eraseP fun o => o.req == r := by
    simp [Mp.remove]
  rw [erased] at member
  exact rest _ one o member same

/-- No request of the capture is left to MP. -/
theorem Chip.quitCapture_gone {c : Capture} {p : Chip}
    (one : (p.mp.queues[(5 : Fin 7)]).countP (fun o => o.req == .capture) = if c.stage = .concealing then 0 else 1) :
    ¬(p.quitCapture c).Offers .capture := by
  rw [Chip.quitCapture_eq]
  split
  · rename_i concealing
    rw [if_pos concealing] at one
    rintro ⟨o, member, same⟩
    exact List.countP_eq_zero.mp one o member (by simpa using same)
  · rename_i offered
    rw [if_neg offered] at one
    exact Chip.withdraw_gone (r := .capture) (Nat.le_of_eq one)

/-- What the end of a capture leaves alone. -/
theorem Chip.quitCapture_frees (c : Capture) (p : Chip) :
    { p with ecu := { p.ecu with capture := none } }.Frees S (p.quitCapture c) := by
  rw [Chip.quitCapture_eq]
  split
  · exact .refl S _
  · exact Chip.withdraw_frees (r := .capture) (by decide) (.refl S { p with ecu := { p.ecu with capture := none } })

/-- The unpins of a dropped capture. -/
theorem Chip.unpins_frees (l : List (Fin 128)) (on : ∀ i ∈ l, S i) (h : a.Frees S p) :
    a.Frees S (l.foldl (fun p i => p.unpin i) p) :=
  List.foldlRecOn l _ h fun _ hq i member => Chip.unpin_frees (on i member) hq

/-- What a dropped capture leaves alone: all but the capture, its clip and its slots. -/
theorem Chip.dropCapture_frees (c : Capture) (p : Chip) :
    ({ p with ecu := { p.ecu with capture := none, clips := p.ecu.clips.set c.clip Clip.reset } } : Chip).Frees
      (· ∈ c.pinned) (p.dropCapture c) := by
  have unpinned := Chip.unpins_frees c.pinned (fun _ => id) (Chip.quitCapture_frees (S := (· ∈ c.pinned)) c p)
  rw [Chip.dropCapture_eq]
  generalize c.pinned.foldl (fun p i => p.unpin i) (p.quitCapture c) = q at unpinned
  exact { unpinned with
    clips := by
      have clips : q.ecu.clips = p.ecu.clips := unpinned.clips
      unfold Chip.setClip
      dsimp only
      rw [clips] }

theorem Chip.dropCapture_attends (c : Capture) (p : Chip) : p.Attends (p.dropCapture c) := by
  have dropped := (Chip.dropCapture_frees c p).attends
  exact ⟨dropped.counters, dropped.nextWrite, dropped.nextRequest, dropped.request, dropped.results⟩

theorem Chip.dropCapture_capture (c : Capture) (p : Chip) : (p.dropCapture c).ecu.capture = none :=
  (Chip.dropCapture_frees c p).capture

theorem Chip.dropCapture_noCapture (c : Capture) (p : Chip) (offered : (p.dropCapture c).Offers .capture) :
    p.Offers .capture := (Chip.dropCapture_frees c p).noCapture offered

/-- No request of the dropped capture is left to MP. -/
theorem Chip.dropCapture_gone {c : Capture} {p : Chip}
    (one : (p.mp.queues[(5 : Fin 7)]).countP (fun o => o.req == .capture) = if c.stage = .concealing then 0 else 1) :
    ¬(p.dropCapture c).Offers .capture := by
  intro offered
  refine Chip.quitCapture_gone one ?_
  have unpinned := Chip.unpins_frees c.pinned (fun _ => id) (.refl (· ∈ c.pinned) (p.quitCapture c))
  rw [Chip.dropCapture_eq] at offered
  exact unpinned.noCapture offered

/-- The dropped capture's clip is EMPTY. -/
theorem Chip.dropCapture_clip (c : Capture) (p : Chip) : (p.dropCapture c).ecu.clips[c.clip] = Clip.reset := by
  rw [(Chip.dropCapture_frees c p).clips]
  exact Vector.getElem_set_self _

theorem Chip.endCaptureForMap_attends (p : Chip) :
    p.Attends p.endCaptureForMap ∧ p.endCaptureForMap.ecu.capture = none ∧
      (p.endCaptureForMap.Offers .capture → p.Offers .capture) := by
  unfold Chip.endCaptureForMap
  split
  · rename_i c _
    have told := Chip.report_serves .aborted c.segment (.refl (p.dropCapture c))
    exact ⟨(Chip.dropCapture_attends c p).trans told.toAttends, told.capture (Chip.dropCapture_capture c p),
      fun offered => Chip.dropCapture_noCapture c p (told.noCapture offered)⟩
  · rename_i none
    exact ⟨.refl p, none, id⟩

/-! ## Every slot released (R62) -/

/-- A fold over slots that settles each slot at its turn, and unsettles none. -/
theorem foldl_settles {f : Chip → Fin 128 → Chip} {P : Slot → Prop} (own : ∀ q i, P ((f q i).slot i))
    (keeps : ∀ q i j, P (q.slot j) → P ((f q i).slot j)) (l : List (Fin 128)) (p : Chip) {j : Fin 128}
    (settled : j ∈ l ∨ P (p.slot j)) : P ((l.foldl f p).slot j) := by
  induction l generalizing p with
  | nil => exact settled.resolve_left (List.not_mem_nil)
  | cons i l ih =>
    refine ih (f p i) ?_
    rcases settled with member | already
    · rcases List.mem_cons.mp member with rfl | later
      · exact .inr (own p j)
      · exact .inl later
    · exact .inr (keeps p i j already)

/-- A slot released if it is claimed. -/
def Chip.releaseClaim (p : Chip) (i : Fin 128) : Chip := if (p.slot i).claimed then p.releaseSlot i else p

/-- An overrun record discarded. -/
def Chip.clearOverrun (p : Chip) (i : Fin 128) : Chip :=
  match (p.slot i).overrun with
  | some _ => p.modSlot i fun s => { s with overrun := none }
  | none => p

theorem Chip.releaseAll_eq (p : Chip) :
    p.releaseAll = allSlots.foldl Chip.clearOverrun (allSlots.foldl Chip.releaseClaim p) := rfl

theorem Chip.releaseClaim_free (q : Chip) (i : Fin 128) : ((q.releaseClaim i).slot i).claimed = false := by
  unfold Chip.releaseClaim
  split
  · exact congrArg Slot.claimed (Chip.slot_modSlot_same i _ _)
  · rename_i unclaimed
    exact Bool.eq_false_iff.mpr unclaimed

theorem Chip.releaseClaim_keeps (q : Chip) (i j : Fin 128) (free : (q.slot j).claimed = false) :
    ((q.releaseClaim i).slot j).claimed = false := by
  by_cases here : j = i
  · subst here
    exact Chip.releaseClaim_free q j
  · unfold Chip.releaseClaim
    split
    · rw [(Chip.releaseSlot_works (S := (· = i)) rfl (.refl _ .underrun q)).slots j here]
      exact free
    · exact free

theorem Chip.clearOverrun_clear (q : Chip) (i : Fin 128) : ((q.clearOverrun i).slot i).overrun = none := by
  unfold Chip.clearOverrun
  split
  · exact congrArg Slot.overrun (Chip.slot_modSlot_same i _ _)
  · assumption

/-- What holds of a record whatever its overrun record still holds of it. -/
theorem Chip.clearOverrun_keeps {P : Slot → Prop} (still : ∀ x, P x → P { x with overrun := none }) (q : Chip)
    (i j : Fin 128) (holds : P (q.slot j)) : P ((q.clearOverrun i).slot j) := by
  unfold Chip.clearOverrun
  split
  · by_cases here : j = i
    · subst here
      rw [Chip.slot_modSlot_same]
      exact still _ holds
    · rw [Chip.slot_modSlot_other _ _ here]
      exact holds
  · exact holds

/-- Every slot is free, and no overrun record is left (R62). -/
theorem Chip.releaseAll_slots (p : Chip) (j : Fin 128) :
    (p.releaseAll.slot j).claimed = false ∧ (p.releaseAll.slot j).overrun = none := by
  have all : j ∈ allSlots := List.mem_finRange j
  rw [Chip.releaseAll_eq]
  constructor
  · exact List.foldlRecOn (motive := fun q : Chip => (q.slot j).claimed = false) allSlots _
      (foldl_settles (P := fun x => x.claimed = false) Chip.releaseClaim_free Chip.releaseClaim_keeps allSlots p
        (.inl all))
      fun q free i _ => Chip.clearOverrun_keeps (P := fun x => x.claimed = false) (fun _ => id) q i j free
  · exact foldl_settles (P := fun x => x.overrun = none) Chip.clearOverrun_clear
      (Chip.clearOverrun_keeps (P := fun x => x.overrun = none) fun _ _ => rfl) allSlots _ (.inl all)

end

end Sys2Proof.Machine


/-! PROOFS. A MODE_MAP application: what every block drops (R20, R28), and MODE_MAP_WRITE (O20). -/

namespace Sys2Proof.Machine

/-! ## Reads released (R13, R20, R137) -/

/-- A read that is held, or has words in CU, completed with zeros. -/
def Chip.releaseRead (p : Chip) (e : Fin 8) : Chip :=
  match p.read e with
  | none => p
  | some r =>
    if r.state = .heldOnSlot ∨ r.state = .heldOnNeighbour ∨ r.state = .concealing then p.completeZeros e else p

theorem Chip.releaseReads_eq (p : Chip) : p.releaseReads = allEntries.foldl Chip.releaseRead p := rfl

/-- Either the entry is left alone, or its read is answered with zeros. -/
theorem Chip.releaseRead_cases (p : Chip) (e : Fin 8) :
    (p.releaseRead e = p ∧ ∀ r, p.read e = some r →
      ¬(r.state = .heldOnSlot ∨ r.state = .heldOnNeighbour ∨ r.state = .concealing)) ∨
    ∃ r m, p.read e = some r ∧ p.releaseRead e = ({ p with lbp := { p.lbp with
      responses := p.lbp.responses ++ [.data r.initiator r.tag (List.replicate r.len 0)]
      outRecord := m } } : Chip).setRead e none := by
  unfold Chip.releaseRead
  cases tracked : p.read e with
  | none => exact .inl ⟨rfl, nofun⟩
  | some r =>
    dsimp only
    split
    · exact .inr ⟨r, _, rfl, (Chip.completeZeros_eq tracked).trans (Chip.completeRead_eq tracked _ _)⟩
    · rename_i other
      refine .inl ⟨rfl, fun x same => ?_⟩
      cases same
      exact other

theorem Chip.releaseRead_rest (p : Chip) (e : Fin 8) : p.releaseRead e = { p with lbp := (p.releaseRead e).lbp } := by
  rcases p.releaseRead_cases e with ⟨same, -⟩ | ⟨r, m, -, eq⟩
  · rw [same]
  · rw [eq]
    rfl

theorem Chip.releaseRead_other (p : Chip) {e x : Fin 8} (other : x ≠ e) : (p.releaseRead e).read x = p.read x := by
  rcases p.releaseRead_cases e with ⟨same, -⟩ | ⟨r, m, -, eq⟩
  · rw [same]
  · rw [eq]
    exact Chip.read_setRead_other _ _ other

theorem Chip.releaseRead_responses (p : Chip) (e : Fin 8) {x : Response} (given : x ∈ p.lbp.responses) :
    x ∈ (p.releaseRead e).lbp.responses := by
  rcases p.releaseRead_cases e with ⟨same, -⟩ | ⟨r, m, -, eq⟩
  · rw [same]
    exact given
  · rw [eq]
    exact List.mem_append_left _ given

section

variable (l : List (Fin 8)) (p : Chip)

theorem Chip.foldl_releaseRead_rest :
    l.foldl Chip.releaseRead p = { p with lbp := (l.foldl Chip.releaseRead p).lbp } :=
  List.foldlRecOn (motive := fun q : Chip => q = { p with lbp := q.lbp }) l _ rfl fun q rest e _ => by
    rw [Chip.releaseRead_rest, rest]

theorem Chip.foldl_releaseRead_other {x : Fin 8} (out : x ∉ l) : (l.foldl Chip.releaseRead p).read x = p.read x :=
  List.foldlRecOn (motive := fun q : Chip => q.read x = p.read x) l _ rfl fun q same e member =>
    (Chip.releaseRead_other q (by rintro rfl; exact out member)).trans same

theorem Chip.foldl_releaseRead_responses {x : Response} (given : x ∈ p.lbp.responses) :
    x ∈ (l.foldl Chip.releaseRead p).lbp.responses :=
  List.foldlRecOn (motive := fun q : Chip => x ∈ q.lbp.responses) l _ given fun q had e _ =>
    Chip.releaseRead_responses q e had

end

/-- Every read held, or with words in CU, completes with zeros. -/
theorem Chip.releaseReads_releases (p : Chip) : p.Releases p.releaseReads := by
  intro e r tracked held
  obtain ⟨before, after, entries, fresh, done⟩ := allEntries_around e
  have turn : (before.foldl Chip.releaseRead p).read e = some r :=
    (Chip.foldl_releaseRead_other before p fresh).trans tracked
  rw [Chip.releaseReads_eq, entries, List.foldl_append, List.foldl_cons]
  generalize before.foldl Chip.releaseRead p = q at turn
  rcases q.releaseRead_cases e with ⟨-, kept⟩ | ⟨x, m, found, eq⟩
  · exact absurd held (kept r turn)
  · cases turn.symm.trans found
    constructor
    · rw [Chip.foldl_releaseRead_other after _ done, eq]
      exact Chip.read_setRead_same e none _
    · refine Chip.foldl_releaseRead_responses after _ ?_
      rw [eq]
      exact List.mem_append_right _ (List.mem_singleton.mpr rfl)

/-- Reads released after work that leaves LBP alone. -/
theorem Chip.Releases.after {a b c : Chip} (h : b.Releases c) (lbp : b.lbp = a.lbp) : a.Releases c := by
  intro e r tracked
  exact h e r (by unfold Chip.read; rw [lbp]; exact tracked)

/-! ## The capture abandoned (R156) -/

section

variable (o : ReqOutcome) (d : Nat) (p : Chip)

/-- A final report moves CPM's request and reports alone. -/
theorem Chip.report_records :
    p.Records (p.report o d) { p.cpm with request := (p.report o d).cpm.request } := by
  cases pending : p.cpm.request with
  | some q =>
    obtain ⟨records, -⟩ := Chip.report_spec pending o d
    have request : (p.report o d).cpm.request = some { q with reported := true } := by rw [records.cpm]
    rw [request]
    exact records
  | none =>
    have noted := Chip.noteStatus_reports p
    have same : p.noteStatus.cpm.request = none := by
      rw [noted.cpm]
      exact pending
    have eq : p.report o d = p.noteStatus := by
      unfold Chip.report
      dsimp only
      rw [same]
    rw [eq, same, ← pending]
    exact ⟨noted.lbp, noted.cpm, noted.sameTape, noted.dlc⟩

end

/-- What the abandoning of a capture leaves alone: LBP, the link but for the fetch, the run's state, CPM but for the
request. -/
structure Chip.Abandons (a b : Chip) : Prop extends a.Attends b where
  lbp : b.lbp = a.lbp
  dlc : b.dlc = { a.dlc with fetch := b.dlc.fetch }
  state : b.rc.state = a.rc.state
  cpm : Cpm.SameButReports { a.cpm with request := b.cpm.request } b.cpm
  capture : b.ecu.capture = none
  noCapture : b.Offers .capture → a.Offers .capture

/-- With no capture in progress nothing is abandoned. -/
theorem Chip.endCaptureForMap_none {p : Chip} (none : p.ecu.capture = none) : p.endCaptureForMap = p := by
  unfold Chip.endCaptureForMap
  rw [none]

theorem Chip.endCaptureForMap_some {p : Chip} {c : Capture} (capturing : p.ecu.capture = some c) :
    p.endCaptureForMap = (p.dropCapture c).report .aborted c.segment := by
  unfold Chip.endCaptureForMap
  rw [capturing]

theorem Chip.endCaptureForMap_abandons (p : Chip) : p.Abandons p.endCaptureForMap := by
  obtain ⟨attends, capture, noCapture⟩ := Chip.endCaptureForMap_attends p
  cases capturing : p.ecu.capture with
  | none =>
    rw [Chip.endCaptureForMap_none capturing] at *
    exact { attends with
      lbp := rfl
      dlc := rfl
      state := rfl
      cpm := .refl _
      capture := capture
      noCapture := noCapture }
  | some c =>
    rw [Chip.endCaptureForMap_some capturing] at *
    have dropped := Chip.dropCapture_frees c p
    have told := Chip.report_records .aborted c.segment (p.dropCapture c)
    obtain ⟨-, -, -, rc, -⟩ := told.tape
    exact { attends with
      lbp := told.lbp.trans dropped.lbp
      dlc := by
        rw [told.dlc]
        exact dropped.dlc
      state := by
        rw [rc]
        exact dropped.state
      cpm := (dropped.sameCpm.map (f := fun x => { x with request := _ }) fun _ _ => rfl).trans told.cpm
      capture := capture
      noCapture := noCapture }

/-- A capture abandoned: no request of it is left to MP, and a pending request is ABORTED with the segments copied. -/
theorem Chip.endCaptureForMap_capture {p : Chip} {c : Capture} (capturing : p.ecu.capture = some c) :
    ((p.mp.queues[(5 : Fin 7)]).countP (fun o => o.req == .capture) = (if c.stage = .concealing then 0 else 1) →
      ¬p.endCaptureForMap.Offers .capture) ∧
    (p.cpm.request = none → p.endCaptureForMap.cpm.request = none) ∧
    ∀ q, p.cpm.request = some q → p.endCaptureForMap.cpm.request = some { q with reported := true } ∧
      ∃ id, p.cpm.nextWrite ≤ id ∧ p.endCaptureForMap.Offers (.result id ⟨q.tag, .aborted, c.segment⟩ (some q.id)) := by
  have dropped := Chip.dropCapture_frees c p
  have told := Chip.report_serves .aborted c.segment (.refl (p.dropCapture c))
  have same : (p.dropCapture c).cpm.request = p.cpm.request := by rw [dropped.sameCpm]
  rw [Chip.endCaptureForMap_some capturing]
  refine ⟨fun one offered => ?_, fun none => ?_, fun q pending => ?_⟩
  · exact Chip.dropCapture_gone one (told.noCapture offered)
  · rcases told.request with kept | ⟨q, pending, -⟩
    · exact kept.trans (same.trans none)
    · rw [same, none] at pending
      cases pending
  · obtain ⟨reported, -, -, id, later, offered⟩ := Chip.report_spec (same.trans pending) .aborted c.segment
    exact ⟨by rw [reported.cpm], id, dropped.nextWrite.trans later, offered⟩

/-! ## What a MODE_MAP application leaves (R20, R28) -/

/-- The part with its capture abandoned, every slot released, and the reads of CU with them (R20, R62, R137). -/
@[irreducible] def Chip.mapCleared (p : Chip) : Chip := ((p.endCaptureForMap.releaseAll).endReadEvals).releaseReads

theorem Chip.applyMap_eq (m : ModeMap) (p : Chip) : p.applyMap m = (p.mapCleared.setMap m).dirtyRunWords := by
  unfold Chip.applyMap Chip.mapCleared
  rfl

theorem Chip.endReadEvals_slots (p : Chip) : p.endReadEvals.slots = p.slots := by
  unfold Chip.endReadEvals
  refine List.foldlRecOn (motive := fun q : Chip => q.slots = p.slots) _ _ rfl fun q same e _ => ?_
  dsimp only
  split
  · exact same
  · exact same

theorem Chip.mapCleared_released (p : Chip) : p.mapCleared =
    { (p.endCaptureForMap.releaseAll).endReadEvals with lbp := p.mapCleared.lbp } := by
  unfold Chip.mapCleared
  exact Chip.foldl_releaseRead_rest allEntries _

section

variable (m : ModeMap) (p : Chip)

/-- The work between the capture's end and the reads. -/
theorem Chip.mapCleared_frees : p.endCaptureForMap.Frees noSlot (p.endCaptureForMap.releaseAll).endReadEvals :=
  Chip.endReadEvals_frees (Chip.releaseAll_frees (.refl _ _))

theorem Chip.mapCleared_toils : p.endCaptureForMap.Toils noSlot p.mapCleared := by
  unfold Chip.mapCleared
  exact Chip.releaseReads_toils (Chip.mapCleared_frees p).toToils

theorem Chip.mapCleared_attends : p.Attends p.mapCleared :=
  (Chip.endCaptureForMap_abandons p).toAttends.trans (Chip.mapCleared_toils p).attends

theorem Chip.mapCleared_abandons :
    p.mapCleared.dlc = { p.dlc with fetch := p.mapCleared.dlc.fetch } ∧ p.mapCleared.rc.state = p.rc.state ∧
      Cpm.SameButReports { p.cpm with request := p.mapCleared.cpm.request } p.mapCleared.cpm ∧
      p.mapCleared.cpm.request = p.endCaptureForMap.cpm.request ∧ p.mapCleared.ecu.capture = none ∧
      (p.mapCleared.Offers .capture → p.endCaptureForMap.Offers .capture) := by
  have ended := Chip.endCaptureForMap_abandons p
  have freed := Chip.mapCleared_frees p
  have request : (p.endCaptureForMap.releaseAll).endReadEvals.cpm.request = p.endCaptureForMap.cpm.request := by
    rw [freed.sameCpm]
  rw [Chip.mapCleared_released]
  generalize (p.endCaptureForMap.releaseAll).endReadEvals = q at freed request
  dsimp only
  refine ⟨?_, freed.state.trans ended.state, ?_, request, freed.capture.trans ended.capture, freed.noCapture⟩
  · rw [freed.dlc, ended.dlc]
  · rw [request]
    exact ended.cpm.trans freed.sameCpm

theorem Chip.mapCleared_releases : p.Releases p.mapCleared := by
  unfold Chip.mapCleared
  exact (Chip.releaseReads_releases _).after
    ((Chip.mapCleared_frees p).lbp.trans (Chip.endCaptureForMap_abandons p).lbp)

theorem Chip.mapCleared_slots (j : Fin 128) :
    (p.mapCleared.slot j).claimed = false ∧ (p.mapCleared.slot j).overrun = none := by
  have slots : p.mapCleared.slots = p.endCaptureForMap.releaseAll.slots := by
    rw [Chip.mapCleared_released]
    dsimp only
    exact Chip.endReadEvals_slots _
  unfold Chip.slot
  rw [slots]
  exact Chip.releaseAll_slots p.endCaptureForMap j

/-- What the old map placed is dropped (R20, R28, R39, R160, R161). -/
theorem Chip.setMap_dropped {q : Chip}
    (slots : ∀ j, (q.slot j).claimed = false ∧ (q.slot j).overrun = none) : (q.setMap m).MapDropped := by
  refine ⟨slots, fun k => ?_, rfl, fun u => ?_, rfl, rfl, rfl, rfl, rfl, rfl⟩
  · exact Vector.getElem_replicate _
  · have reset : (q.setMap m).ecu.images[u] = ImageRecord.reset := Vector.getElem_replicate _
    rw [reset]
    rfl

/-- Reports keep what a MODE_MAP application leaves. -/
theorem Chip.MapDropped.after {a b : Chip} (h : a.MapDropped) (slots : b.slots = a.slots) (ecu : b.ecu = a.ecu)
    (rc : b.rc = a.rc) (outRecord : b.lbp.outRecord = a.lbp.outRecord)
    (strayNoticed : b.lbp.strayNoticed = a.lbp.strayNoticed) (incoming : b.cpm.incoming = a.cpm.incoming)
    (consumeCount : b.cpm.consumeCount = a.cpm.consumeCount) (readyPrefix : b.cpm.readyPrefix = a.cpm.readyPrefix) :
    b.MapDropped := by
  unfold Chip.MapDropped Chip.slot at *
  rw [slots, ecu, rc, outRecord, strayNoticed, incoming, consumeCount, readyPrefix]
  exact h

/-- The registers of CPM after a MODE_MAP application (R20, R28). -/
def Cpm.mapped (m : ModeMap) (c : Cpm) : Cpm :=
  { c with map := m, incoming := .unknown, consumeCount := 0, readyPrefix := 0, readyAhead := [] }

theorem Chip.setMap_reports : (p.mapCleared.setMap m).Reports (p.applyMap m) := by
  rw [Chip.applyMap_eq]
  exact Chip.dirtyRunWords_reports _

theorem Chip.applyMap_dropped : (p.applyMap m).MapDropped := by
  have told := Chip.setMap_reports m p
  refine (Chip.setMap_dropped m p.mapCleared_slots).after told.slots told.ecu told.rc ?_ ?_ ?_ ?_ ?_
  · rw [told.lbp]
  · rw [told.lbp]
  · rw [told.cpm]
  · rw [told.cpm]
  · rw [told.cpm]

theorem Chip.applyMap_cpm :
    Cpm.SameButReports ({ p.cpm with request := (p.applyMap m).cpm.request }.mapped m) (p.applyMap m).cpm := by
  have told := Chip.setMap_reports m p
  obtain ⟨-, -, cpm, -⟩ := Chip.mapCleared_abandons p
  have request : (p.applyMap m).cpm.request = p.mapCleared.cpm.request := by
    rw [told.cpm]
    rfl
  rw [request]
  exact (cpm.map (f := Cpm.mapped m) fun _ _ => rfl).trans told.cpm

theorem Chip.applyMap_rc : (p.applyMap m).rc = ⟨p.rc.state, none⟩ := by
  obtain ⟨-, state, -⟩ := Chip.mapCleared_abandons p
  rw [(Chip.setMap_reports m p).rc]
  exact congrArg (Rc.mk · none) state

theorem Chip.applyMap_dlc : (p.applyMap m).dlc = { p.dlc with fetch := (p.applyMap m).dlc.fetch } := by
  obtain ⟨dlc, -⟩ := Chip.mapCleared_abandons p
  rw [(Chip.setMap_reports m p).dlc]
  exact dlc

theorem Chip.applyMap_releases : p.Releases (p.applyMap m) := by
  intro e r tracked held
  have told := Chip.setMap_reports m p
  obtain ⟨free, answered⟩ := Chip.mapCleared_releases p e r tracked held
  refine ⟨(told.read e).trans free, ?_⟩
  rw [told.lbp]
  exact answered

theorem Chip.applyMap_capture : (p.applyMap m).ecu.capture = none ∧
    ((p.applyMap m).Offers .capture → p.endCaptureForMap.Offers .capture) ∧
    (p.applyMap m).cpm.request = p.endCaptureForMap.cpm.request ∧
    ∀ r, r.cls = 6 → p.endCaptureForMap.Offers r → (p.applyMap m).Offers r := by
  have told := Chip.setMap_reports m p
  obtain ⟨-, -, -, request, capture, noCapture⟩ := Chip.mapCleared_abandons p
  have freed := Chip.dirtyRunWords_frees (.refl noSlot (p.mapCleared.setMap m))
  rw [← Chip.applyMap_eq] at freed
  refine ⟨?_, fun offered => noCapture (freed.noCapture offered), ?_, fun r cls offered => ?_⟩
  · rw [told.ecu]
    exact capture
  · rw [told.cpm]
    exact request
  · exact freed.results r cls ((Chip.mapCleared_toils p).results r cls offered)

end

/-! ## MODE_MAP_WRITE (R24, R25) -/

theorem mapRejectMarks_eq (audio priv : Nat) : mapRejectMarks audio priv =
    (if audio % 0x40000 = 0 then 0 else 1) + (if priv % 0x200000 = 0 then 0 else 2) +
      (if audio < priv + 0x200000 ∧ priv < audio + 0x30000 then 4 else 0) +
      (if audio < 0x1000 ∨ priv < 0x1000 then 8 else 0) := by
  have misplaced (x : Nat) : bitOf (x != 0) = if x = 0 then 0 else 1 := by
    unfold bitOf
    by_cases zero : x = 0
    · rw [zero]
      rfl
    · rw [if_neg zero, if_pos (by simpa using zero)]
  have meet : bitOf (rangesMeet audio audioViewSize priv privateSize) =
      if audio < priv + 0x200000 ∧ priv < audio + 0x30000 then 1 else 0 := by
    unfold bitOf rangesMeet
    simp only [Bool.and_eq_true, decide_eq_true_eq]
    rfl
  have low : bitOf (rangesMeet audio audioViewSize 0 controlPageEnd || rangesMeet priv privateSize 0 controlPageEnd) =
      if audio < 0x1000 ∨ priv < 0x1000 then 1 else 0 := by
    have page : controlPageEnd = 0x1000 := rfl
    have view : audioViewSize = 0x30000 := rfl
    have region : privateSize = 0x200000 := rfl
    unfold bitOf rangesMeet
    rw [page, view, region]
    simp only [Bool.or_eq_true, Bool.and_eq_true, decide_eq_true_eq]
    refine if_congr ?_ rfl rfl
    omega
  unfold mapRejectMarks
  rw [misplaced, misplaced, meet, low]
  split <;> split <;> split <;> split <;> rfl

/-- A rejected MODE_MAP value raises its notice, and nothing else (R25). -/
theorem State.placed_writeMap_rejected {s : State} {w : PostedWrite} {marks : Nat}
    (found : mapRejectMarks (s.shadowed w).readMap.audioBase (s.shadowed w).readMap.privateBase = marks)
    (rejected : marks ≠ 0) :
    (s.placed w).writeMap w = (s.placed w).raise (.mapRejected w.initiator.val marks) := by
  rw [← State.placed_shadowed] at found
  unfold Chip.writeMap
  dsimp only
  rw [found, if_pos rejected]

/-- A mode value applied at its copy, the mark set while UNCONFIGURED (R23, R26). -/
theorem State.takeMode_now {s : State} {w : PostedWrite} {mode marks : Nat} (apply hold : Chip → Chip)
    {mark : WrittenSet → WrittenSet} (now : s.AppliesNow (mark s.cpm.writtenSet))
    (keeps : (apply (s.clampNoted w mode marks)).cpm.writtenSet = s.cpm.writtenSet) :
    (s.clampNoted w mode marks).takeMode apply hold mark = { apply (s.clampNoted w mode marks) with
      cpm := { (apply (s.clampNoted w mode marks)).cpm with writtenSet := s.markedAs (mark s.cpm.writtenSet) } } := by
  rcases now with ⟨ready, idle⟩ | ⟨unconfigured, some⟩
  · rw [Chip.takeMode_idle _ _ _ (State.clampNoted_partState.trans ready) (by rw [State.clampNoted_rc]; exact idle)]
    have same : s.markedAs (mark s.cpm.writtenSet) = (apply (s.clampNoted w mode marks)).cpm.writtenSet := by
      rw [keeps]
      exact if_neg (by rw [ready]; decide)
    rw [same]
  · have same : s.markedAs (mark s.cpm.writtenSet) = mark s.cpm.writtenSet := if_pos unconfigured
    rw [Chip.takeMode_unconfigured _ _ _ (State.clampNoted_partState.trans unconfigured), keeps,
      if_neg (by rw [some]; decide), same]
    unfold Chip.applyMarked
    rw [keeps]

/-- The requests of class 6 that a grant of class 4 leaves. -/
theorem State.placed_queue (s : State) (w : PostedWrite) :
    (s.placed w).mp.queues[(5 : Fin 7)] = s.mp.queues[(5 : Fin 7)] := by
  have grant : (s.placed w).mp = s.mp.grant .postedWrite := rfl
  rw [grant]
  simp [Mp.grant, Mp.remove, Req.cls]

theorem Chip.raise_queue (n : Notice) (p : Chip) :
    (p.raise n).mp.queues[(5 : Fin 7)] = p.mp.queues[(5 : Fin 7)] := by
  unfold Chip.raise
  split
  · rfl
  · split
    · rfl
    · simp [Chip.offer, Mp.offer, Req.cls]

theorem State.clampNoted_queue (s : State) (w : PostedWrite) (mode marks : Nat) :
    (s.clampNoted w mode marks).mp.queues[(5 : Fin 7)] = s.mp.queues[(5 : Fin 7)] := by
  unfold State.clampNoted Chip.noteClamp
  split
  · exact s.placed_queue w
  · exact (Chip.raise_queue _ _).trans (s.placed_queue w)

/-- The part with a MODE_MAP value applied at its copy, the mark of UNCONFIGURED not yet set. -/
@[irreducible] def State.mapApplied (s : State) (w : PostedWrite) : Chip :=
  (s.clampNoted w 0 ((s.shadowed w).clampMarks 0 mapRanges)).applyMap (s.shadowed w).readMap

section

variable (s : State) (w : PostedWrite)

/-- CPM as a MODE_MAP application leaves it (R20, R28). -/
theorem State.mapApplied_cpm : Cpm.SameButReports
    ({ s.cpm with
      cells := (s.shadowed w).cells, request := (s.mapApplied w).cpm.request }.mapped (s.shadowed w).readMap)
    (s.mapApplied w).cpm := by
  have noted := State.clampNoted_reports (s := s) (w := w) (mode := 0)
    (marks := (s.shadowed w).clampMarks 0 mapRanges)
  have applied := Chip.applyMap_cpm (s.shadowed w).readMap (s.clampNoted w 0 ((s.shadowed w).clampMarks 0 mapRanges))
  unfold State.mapApplied
  generalize Chip.applyMap (s.shadowed w).readMap _ = q at applied
  exact (noted.cpm.map (f := fun c => { c with request := q.cpm.request }.mapped (s.shadowed w).readMap)
    fun _ _ => rfl).trans applied

theorem State.mapApplied_writtenSet : (s.mapApplied w).cpm.writtenSet = s.cpm.writtenSet := by
  rw [s.mapApplied_cpm w]
  rfl

theorem State.mapApplied_dropped : (s.mapApplied w).MapDropped := by
  unfold State.mapApplied
  exact Chip.applyMap_dropped _ _

theorem State.mapApplied_rc : (s.mapApplied w).rc = ⟨s.rc.state, none⟩ := by
  unfold State.mapApplied
  rw [Chip.applyMap_rc, State.clampNoted_rc]

theorem State.mapApplied_dlc : (s.mapApplied w).dlc = { s.dlc with fetch := (s.mapApplied w).dlc.fetch } := by
  have noted := State.clampNoted_reports (s := s) (w := w) (mode := 0)
    (marks := (s.shadowed w).clampMarks 0 mapRanges)
  have applied := Chip.applyMap_dlc (s.shadowed w).readMap (s.clampNoted w 0 ((s.shadowed w).clampMarks 0 mapRanges))
  have same : (s.placed w).dlc = s.dlc := rfl
  rw [noted.dlc, same] at applied
  unfold State.mapApplied
  exact applied

theorem State.mapApplied_releases : s.toChip.Releases (s.mapApplied w) := by
  unfold State.mapApplied
  exact (Chip.applyMap_releases _ _).after State.clampNoted_reports.lbp

theorem State.mapApplied_capture : (s.mapApplied w).ecu.capture = none := by
  unfold State.mapApplied
  exact (Chip.applyMap_capture _ _).1

variable {s}

theorem State.mapApplied_idle (none : s.ecu.capture = none) : (s.mapApplied w).cpm.request = s.cpm.request := by
  have noted := State.clampNoted_reports (s := s) (w := w) (mode := 0)
    (marks := (s.shadowed w).clampMarks 0 mapRanges)
  obtain ⟨-, -, request, -⟩ := Chip.applyMap_capture (s.shadowed w).readMap
    (s.clampNoted w 0 ((s.shadowed w).clampMarks 0 mapRanges))
  unfold State.mapApplied
  rw [request, Chip.endCaptureForMap_none (by rw [noted.ecu]; exact none), noted.cpm]
  rfl

/-- A capture abandoned by a MODE_MAP application (R156). -/
theorem State.mapApplied_aborts {c : Capture} (capturing : s.ecu.capture = some c) :
    ((s.mp.queues[(5 : Fin 7)]).countP (fun o => o.req == .capture) = (if c.stage = .concealing then 0 else 1) →
      ¬(s.mapApplied w).Offers .capture) ∧
    (s.cpm.request = none → (s.mapApplied w).cpm.request = none) ∧
    ∀ q, s.cpm.request = some q → (s.mapApplied w).cpm.request = some { q with reported := true } ∧
      ∃ id, s.cpm.nextWrite ≤ id ∧ (s.mapApplied w).Offers (.result id ⟨q.tag, .aborted, c.segment⟩ (some q.id)) := by
  have noted := State.clampNoted_reports (s := s) (w := w) (mode := 0)
    (marks := (s.shadowed w).clampMarks 0 mapRanges)
  have queue := s.clampNoted_queue w 0 ((s.shadowed w).clampMarks 0 mapRanges)
  have same : (s.clampNoted w 0 ((s.shadowed w).clampMarks 0 mapRanges)).cpm.request = s.cpm.request := by
    rw [noted.cpm]
    rfl
  obtain ⟨-, noCapture, request, results⟩ := Chip.applyMap_capture (s.shadowed w).readMap
    (s.clampNoted w 0 ((s.shadowed w).clampMarks 0 mapRanges))
  obtain ⟨gone, none, some⟩ := Chip.endCaptureForMap_capture
    (p := s.clampNoted w 0 ((s.shadowed w).clampMarks 0 mapRanges)) (by rw [noted.ecu]; exact capturing)
  unfold State.mapApplied
  refine ⟨fun one offered => gone (by rw [queue]; exact one) (noCapture offered), fun idle => ?_, fun q pending => ?_⟩
  · rw [request]
    exact none (same.trans idle)
  · obtain ⟨reported, id, later, offered⟩ := some q (same.trans pending)
    exact ⟨request.trans reported, id, noted.nextWrite.trans later, results _ rfl offered⟩

end

theorem State.placed_writeMap_now {s : State} {w : PostedWrite}
    (accepted : mapRejectMarks (s.shadowed w).readMap.audioBase (s.shadowed w).readMap.privateBase = 0)
    (now : s.AppliesNow { s.cpm.writtenSet with map := true }) : (s.placed w).writeMap w = { s.mapApplied w with
      cpm := { (s.mapApplied w).cpm with writtenSet := s.markedAs { s.cpm.writtenSet with map := true } } } := by
  have keeps := s.mapApplied_writtenSet w
  unfold State.mapApplied at keeps ⊢
  rw [State.placed_writeMap accepted]
  exact State.takeMode_now (mark := fun x => { x with map := true }) _ _ now keeps

/-- Settles O20: a rejected value raises its notice alone; one applied drops what the old map placed. -/
theorem modeMapWriteDecides : Obligations.ModeMapWriteDecides := by
  unfold Obligations.ModeMapWriteDecides
  intro s w heads c audio priv marks
  have found : mapRejectMarks c.readMap.audioBase c.readMap.privateBase = marks := mapRejectMarks_eq audio priv
  constructor
  · intro rejected
    have effect := State.placed_writeMap_rejected found rejected
    have raised := Chip.raise_reports (.mapRejected w.initiator.val marks) (s.placed w)
    have records : (s.placed w).Records ((s.placed w).writeMap w) { s.cpm with cells := c.cells } := by
      rw [effect]
      exact (s.placed w).records_self.reports raised
    obtain ⟨t, next, cpm, raises, rest⟩ := State.grantHead_records Chip.writeMap heads records
    refine ⟨t, next, cpm, fun ready room => raises _ ?_, rest⟩
    rw [effect]
    exact Chip.raise_raises _ (s.placed w) ready room
  · intro accepted now
    have cpm := (s.mapApplied_cpm w).map
      (f := fun x => { x with writtenSet := s.markedAs { s.cpm.writtenSet with map := true } }) fun _ _ => rfl
    have dropped := s.mapApplied_dropped w
    have rc := s.mapApplied_rc w
    have dlc := s.mapApplied_dlc w
    have releases := s.mapApplied_releases w
    have capture := s.mapApplied_capture w
    have idle := State.mapApplied_idle (s := s) w
    have aborts (cap : Capture) := State.mapApplied_aborts (s := s) w (c := cap)
    refine ⟨_, State.grantHead_ends Chip.writeMap heads, ?_⟩
    have ends := Chip.endHead_ends w ((s.placed w).writeMap w)
    rw [State.placed_writeMap_now (found.trans accepted) now] at ends ⊢
    dsimp only
    generalize s.mapApplied w = p at *
    generalize Chip.endHead w _ = t at ends ⊢
    obtain ⟨slots, -, -, rcKept, ecu⟩ := ends.tape
    have regs := cpm.trans ends.cpm
    have request : t.cpm.request = p.cpm.request := by
      rw [regs]
      rfl
    refine ⟨?_, ?_, rcKept.trans rc, ?_, ?_, fun none => ⟨request.trans (idle none), ?_⟩,
      fun cap capturing => ⟨⟨?_, fun one offered => ?_, fun _ g _ _ => .inr (.inl ?_)⟩, ?_, ?_⟩⟩
    · rw [request]
      exact regs
    · refine dropped.after slots ecu rcKept ends.outRecord ends.strayNoticed ?_ ?_ ?_
      · rw [ends.cpm]
      · rw [ends.cpm]
      · rw [ends.cpm]
    · intro e r tracked held
      obtain ⟨free, answered⟩ := releases e r tracked held
      refine ⟨(ends.reads e fun x found => ?_).trans free, ?_⟩
      · cases free.symm.trans found
      · rw [ends.responses]
        exact answered
    · rw [ends.dlc]
      exact dlc
    · rw [ecu]
      exact capture
    · rw [ecu]
      exact capture
    · obtain ⟨gone, -⟩ := aborts cap capturing
      exact gone one (ends.noCapture offered)
    · obtain ⟨released, -⟩ := dropped
      obtain ⟨free, -⟩ := released (slotOf (cap.first + g))
      rw [ends.slot]
      exact free
    · obtain ⟨-, none, -⟩ := aborts cap capturing
      exact fun pending => request.trans (none pending)
    · intro q pending
      obtain ⟨-, -, some⟩ := aborts cap capturing
      obtain ⟨reported, id, later, offered⟩ := some q pending
      exact ⟨request.trans reported, id, later, ends.offers _ offered⟩

end Sys2Proof.Machine


/-! PROOFS. READY entered (R26): the status block reported (R35), and the write that sets the fourth mark (O21). -/

namespace Sys2Proof.Machine

/-! ## The status block (R35) -/

/-- Status words held one after the other. -/
theorem foldl_setIfInBounds_getD (f : Nat → Word) (l : List Nat) (v : Vector Word 24) {i : Nat} (lt : i < 24) :
    (l.foldl (fun v k => v.setIfInBounds k (f k)) v).getD i 0 = if i ∈ l then f i else v.getD i 0 := by
  induction l generalizing v with
  | nil => rfl
  | cons k l ih =>
    rw [List.foldl_cons, ih]
    by_cases later : i ∈ l
    · rw [if_pos later, if_pos (List.mem_cons_of_mem _ later)]
    · rw [if_neg later]
      by_cases here : i = k
      · subst here
        rw [if_pos List.mem_cons_self]
        simp [Vector.getD, lt]
      · rw [if_neg (by simp [here, later])]
        simp [Vector.getD, lt, Ne.symm here]

/-- b is a with status words placed in the dirty set: what else CPM reports stays. -/
structure Chip.Dirties (ws : List Nat) (a b : Chip) : Prop where
  overflow : b.cpm.overflow = a.cpm.overflow
  writeIndex : b.cpm.writeIndex = a.cpm.writeIndex
  dirty : ∀ i, i ∈ a.cpm.dirty ∨ i ∈ ws → i ∈ b.cpm.dirty
  offered : a.cpm.statusOffered.isSome = true ∨ ws ≠ [] → b.cpm.statusOffered.isSome = true

theorem Chip.markDirty_dirties (ws : List Nat) (p : Chip) :
    p.Dirties ws (p.markDirty ws) ∧ (p.markDirty ws).cpm.statusHeld = p.cpm.statusHeld := by
  have grows (i : Nat) (member : i ∈ p.cpm.dirty ∨ i ∈ ws) :
      i ∈ p.cpm.dirty ++ ws.filter fun i => !(p.cpm.dirty.contains i) := by
    by_cases had : i ∈ p.cpm.dirty
    · exact List.mem_append_left _ had
    · exact List.mem_append_right _ (List.mem_filter.mpr ⟨member.resolve_left had, by simpa using had⟩)
  unfold Chip.markDirty
  dsimp only
  split
  · rename_i empty
    have none := List.isEmpty_iff.mp empty
    refine ⟨⟨rfl, rfl, fun i member => ?_, fun some => some.resolve_right fun more => ?_⟩, rfl⟩
    · exact absurd (grows i member) (by rw [none]; exact List.not_mem_nil)
    obtain ⟨i, member⟩ := List.exists_mem_of_ne_nil ws more
    exact absurd (grows i (.inr member)) (by rw [none]; exact List.not_mem_nil)
  · split
    · rename_i already
      exact ⟨⟨rfl, rfl, grows, fun _ => by rw [already]; rfl⟩, rfl⟩
    · exact ⟨⟨rfl, rfl, grows, fun _ => rfl⟩, rfl⟩

theorem Chip.statusWord_congr {a b : Chip} (rc : b.rc = a.rc) (dlc : b.dlc = a.dlc)
    (partState : b.cpm.partState = a.cpm.partState) (consumeCount : b.cpm.consumeCount = a.cpm.consumeCount)
    (overflow : b.cpm.overflow = a.cpm.overflow) (counters : b.cpm.counters = a.cpm.counters) (i : Nat) :
    b.statusWord i = a.statusWord i := by
  unfold Chip.statusWord
  rw [rc, dlc, partState, consumeCount, overflow, counters]

/-- In READY every status word is held as the blocks stand, once they have reported (R35). -/
theorem Chip.noteStatus_ready {p : Chip} (ready : p.cpm.partState = .ready) :
    p.Dirties p.changedStatus p.noteStatus ∧
      ∀ i, i < 24 → p.noteStatus.cpm.statusHeld.getD i 0 = p.noteStatus.statusWord i := by
  have noted := Chip.noteStatus_reports p
  have eq : p.noteStatus = Chip.markDirty p.changedStatus { p with cpm := { p.cpm with
      statusHeld := p.changedStatus.foldl (fun v i => v.setIfInBounds i (p.statusWord i)) p.cpm.statusHeld } } := by
    unfold Chip.noteStatus
    rw [ready]
  obtain ⟨dirties, held⟩ := Chip.markDirty_dirties p.changedStatus { p with cpm := { p.cpm with
    statusHeld := p.changedStatus.foldl (fun v i => v.setIfInBounds i (p.statusWord i)) p.cpm.statusHeld } }
  rw [← eq] at dirties held
  refine ⟨⟨dirties.overflow, dirties.writeIndex, dirties.dirty, dirties.offered⟩, fun i lt => ?_⟩
  have same : p.noteStatus.statusWord i = p.statusWord i :=
    Chip.statusWord_congr noted.rc noted.dlc noted.partState (by rw [noted.cpm]) dirties.overflow (by rw [noted.cpm]) i
  rw [held, same]
  refine (foldl_setIfInBounds_getD p.statusWord p.changedStatus p.cpm.statusHeld lt).trans ?_
  split
  · rfl
  · rename_i unchanged
    unfold Chip.changedStatus at unchanged
    rw [List.mem_filter, not_and] at unchanged
    have same := unchanged (List.mem_range.mpr lt)
    exact (by simpa using same : p.statusWord i = p.cpm.statusHeld.getD i 0).symm

/-! ## READY entered (R26, R84) -/

/-- CPM's registers as the part enters READY (R26). -/
def Cpm.readied (c : Cpm) : Cpm :=
  { c with
    partState := .ready, counters := Vector.replicate 16 0, overflow := 0, writeIndex := 0, publishedIndex := 0
    readIndex := 0, notice := false, consumeCount := 0, readyPrefix := 0, readyAhead := [], request := none
    pendingMap := none, pendingSignal := none, pendingLink := none, pendingEdit := none, indexDue := true }

/-- The part in READY with its link OPENING, before the status block is marked. -/
def Chip.readied (p : Chip) : Chip :=
  Chip.openLink false { p with cpm := p.cpm.readied, lbp := { p.lbp with strayNoticed := false } }

theorem Chip.enterReady_eq (p : Chip) :
    ∃ held, p.enterReady = Chip.markDirty statusNumbers { p.readied with
      cpm := { p.readied.cpm with statusHeld := held } } := ⟨_, rfl⟩

/-- What a part that enters READY holds, CPM's reports aside. -/
theorem Chip.enterReady_spec (p : Chip) : Cpm.SameButReports p.cpm.readied p.enterReady.cpm ∧
    p.enterReady.cpm.overflow = 0 ∧ p.enterReady.cpm.writeIndex = 0 ∧ (∀ i, i < 24 → i ∈ p.enterReady.cpm.dirty) ∧
    p.enterReady.cpm.statusOffered.isSome = true ∧ p.enterReady.dlc = p.readied.dlc ∧ p.enterReady.rc = p.rc := by
  obtain ⟨held, eq⟩ := p.enterReady_eq
  obtain ⟨dirties, -⟩ := Chip.markDirty_dirties statusNumbers
    { p.readied with cpm := { p.readied.cpm with statusHeld := held } }
  have told := Chip.markDirty_reports statusNumbers
    { p.readied with cpm := { p.readied.cpm with statusHeld := held } }
  rw [← eq] at dirties told
  generalize p.enterReady = q at *
  exact ⟨told.cpm, dirties.overflow, dirties.writeIndex, fun i lt => dirties.dirty i (.inr (List.mem_range.mpr lt)),
    dirties.offered (.inr (by decide)), told.dlc, told.rc⟩

/-- The head's end in READY reports the status block once more (R35). -/
theorem Chip.endHead_ready (w : PostedWrite) {p : Chip} (ready : p.cpm.partState = .ready) :
    (p.endHead w).cpm.overflow = p.cpm.overflow ∧ (p.endHead w).cpm.writeIndex = p.cpm.writeIndex ∧
      (∀ i, i ∈ p.cpm.dirty → i ∈ (p.endHead w).cpm.dirty) ∧
      (p.cpm.statusOffered.isSome = true → (p.endHead w).cpm.statusOffered.isSome = true) ∧
      ∀ i, i < 24 → (p.endHead w).cpm.statusHeld.getD i 0 = (p.endHead w).statusWord i := by
  have same : (p.leaveQueue w).cpm = p.cpm := by
    rcases Chip.leaveQueue_around w p with around | ⟨q, around, eq⟩
    · exact around.cpm
    · rw [eq]
      exact around.cpm
  obtain ⟨dirties, held⟩ := Chip.noteStatus_ready (p := p.leaveQueue w) (by rw [same]; exact ready)
  unfold Chip.endHead
  rw [← same]
  exact ⟨dirties.overflow, dirties.writeIndex, fun i member => dirties.dirty i (.inl member),
    fun offered => dirties.offered (.inl offered), held⟩

/-! ## The fourth mark (R26) -/

/-- A mode word that sets the fourth mark takes the part into READY. -/
theorem State.takeMode_fourth {s : State} {w : PostedWrite} {mode marks : Nat} (apply hold : Chip → Chip)
    {mark : WrittenSet → WrittenSet} (unconfigured : s.cpm.partState = .unconfigured)
    (fourth : mark s.cpm.writtenSet = ⟨true, true, true, true⟩)
    (keeps : (apply (s.clampNoted w mode marks)).cpm.writtenSet = s.cpm.writtenSet)
    (state : (apply (s.clampNoted w mode marks)).rc.state = s.rc.state) :
    ∃ p : Chip, (s.clampNoted w mode marks).takeMode apply hold mark = p.enterReady ∧
      p.cpm.writtenSet = ⟨true, true, true, true⟩ ∧ p.rc.state = s.rc.state := by
  refine ⟨(s.clampNoted w mode marks).applyMarked apply mark, ?_, ?_, state⟩
  · rw [Chip.takeMode_unconfigured _ _ _ (State.clampNoted_partState.trans unconfigured), keeps, fourth]
    exact if_pos rfl
  · unfold Chip.applyMarked
    dsimp only
    rw [keeps, fourth]

/-- The effect of each mode word as it sets the fourth mark. -/
theorem State.fourthMark_enters {s : State} {w : PostedWrite} {c : Instr} {act : WriteAct}
    {mark : WrittenSet → WrittenSet} (word : (c, act, mark) ∈ [
      (Instr.modeMapWrite, WriteAct.modeMap, fun m : WrittenSet => { m with map := true }),
      (.modeSignalWrite, .modeSignal, fun m => { m with signal := true }),
      (.modeLinkWrite, .modeLink, fun m => { m with link := true }),
      (.modeEditWrite, .modeEdit, fun m => { m with edit := true })])
    (unconfigured : s.cpm.partState = .unconfigured) (fourth : mark s.cpm.writtenSet = ⟨true, true, true, true⟩)
    (accepted : c = .modeMapWrite →
      mapRejectMarks (s.shadowed w).readMap.audioBase (s.shadowed w).readMap.privateBase = 0) :
    ∃ effect, exec c s = s.grantHead act effect ∧ ∃ p : Chip, effect w (s.placed w) = p.enterReady ∧
      p.cpm.writtenSet = ⟨true, true, true, true⟩ ∧ p.rc.state = s.rc.state := by
  have written (mode marks : Nat) : (s.clampNoted w mode marks).cpm.writtenSet = s.cpm.writtenSet := by
    rw [State.clampNoted_reports.cpm]
    rfl
  have state (mode marks : Nat) : (s.clampNoted w mode marks).rc.state = s.rc.state := by rw [State.clampNoted_rc]
  have signal (m : ModeSignal) (q : Chip) : (q.applySignal m).cpm.writtenSet = q.cpm.writtenSet ∧
      (q.applySignal m).rc = q.rc := ⟨rfl, rfl⟩
  have link (m : ModeLink) (q : Chip) : (q.applyLink m).cpm.writtenSet = q.cpm.writtenSet ∧
      (q.applyLink m).rc = q.rc := ⟨rfl, rfl⟩
  have edit (m : ModeEdit) (q : Chip) : (q.applyEdit m).cpm.writtenSet = q.cpm.writtenSet ∧
      (q.applyEdit m).rc = q.rc := ⟨rfl, rfl⟩
  simp only [List.mem_cons, Prod.mk.injEq, List.not_mem_nil, or_false] at word
  rcases word with ⟨rfl, rfl, rfl⟩ | ⟨rfl, rfl, rfl⟩ | ⟨rfl, rfl, rfl⟩ | ⟨rfl, rfl, rfl⟩
  · refine ⟨Chip.writeMap, rfl, ?_⟩
    have keeps := s.mapApplied_writtenSet w
    have rc := congrArg Rc.state (s.mapApplied_rc w)
    unfold State.mapApplied at keeps rc
    rw [State.placed_writeMap (accepted rfl)]
    exact State.takeMode_fourth (mark := fun x => { x with map := true }) _ _ unconfigured fourth keeps rc
  · refine ⟨fun _ p => p.writeSignal, rfl, ?_⟩
    dsimp only
    rw [State.placed_writeSignal]
    obtain ⟨keeps, rc⟩ := signal (s.shadowed w).readSignal (s.clampNoted w _ ((s.shadowed w).clampMarks _ signalRanges))
    exact State.takeMode_fourth (mark := fun x => { x with signal := true }) _ _ unconfigured fourth
      (keeps.trans (written _ _)) ((congrArg Rc.state rc).trans (state _ _))
  · refine ⟨fun _ p => p.writeLink, rfl, ?_⟩
    dsimp only
    rw [State.placed_writeLink]
    obtain ⟨keeps, rc⟩ := link (s.shadowed w).readLink (s.clampNoted w _ ((s.shadowed w).clampMarks _ linkRanges))
    exact State.takeMode_fourth (mark := fun x => { x with link := true }) _ _ unconfigured fourth
      (keeps.trans (written _ _)) ((congrArg Rc.state rc).trans (state _ _))
  · refine ⟨fun _ p => p.writeEdit, rfl, ?_⟩
    dsimp only
    rw [State.placed_writeEdit]
    obtain ⟨keeps, rc⟩ := edit (s.shadowed w).readEdit (s.clampNoted w _ ((s.shadowed w).clampMarks _ editRanges))
    exact State.takeMode_fourth (mark := fun x => { x with edit := true }) _ _ unconfigured fourth
      (keeps.trans (written _ _)) ((congrArg Rc.state rc).trans (state _ _))

/-- Settles O21: the fourth mark enters READY, and the end of the write reports the status block again. -/
theorem fourthMarkEntersReady : Obligations.FourthMarkEntersReady := by
  unfold Obligations.FourthMarkEntersReady
  intro s w c act mark word heads unconfigured fourth accepted
  obtain ⟨effect, answer, p, enters, written, state⟩ := State.fourthMark_enters word unconfigured fourth accepted
  obtain ⟨cpm, overflow, writeIndex, dirty, offered, dlc, rc⟩ := Chip.enterReady_spec p
  have ready : p.enterReady.cpm.partState = .ready := by
    rw [cpm]
    rfl
  obtain ⟨overflow', writeIndex', dirty', offered', held⟩ := Chip.endHead_ready w ready
  have ends := Chip.endHead_ends w p.enterReady
  refine ⟨_, answer.trans (State.grantHead_ends effect heads), ?_⟩
  dsimp only
  rw [enters]
  generalize p.enterReady = q at *
  generalize Chip.endHead w q = t at *
  have regs : Cpm.SameButReports p.cpm.readied t.cpm := cpm.trans ends.cpm
  have link : t.dlc = p.readied.dlc := ends.dlc.trans dlc
  obtain ⟨-, -, -, rcKept, -⟩ := ends.tape
  have counters : t.cpm.counters = Vector.replicate 16 0 := by rw [regs]; rfl
  have retry : t.cpm.link.openRetry = p.cpm.link.openRetry := by rw [regs]; rfl
  refine ⟨?_, ?_, fun k => ?_, overflow'.trans overflow, writeIndex'.trans writeIndex, ?_, ?_, ?_, ?_, ?_, ?_, ?_, ?_,
    ?_, ?_, ?_, fun i lt => ⟨dirty' i (dirty i lt), held i lt⟩, offered' offered, ?_⟩
  · rw [regs]; rfl
  · rw [regs]; exact written
  · unfold Chip.counter
    rw [counters]
    exact Vector.getElem_replicate _
  · rw [regs]; rfl
  · rw [regs]; rfl
  · rw [regs]; rfl
  · rw [regs]; rfl
  · rw [regs]; rfl
  · rw [regs]; rfl
  · rw [regs]; rfl
  · rw [regs]; rfl
  · rw [regs]; rfl
  · rw [regs]; rfl
  · rw [regs]; rfl
  · rw [link, retry, rcKept, rc]
    exact ⟨rfl, rfl, rfl, rfl, rfl, rfl, rfl, rfl, state⟩

end Sys2Proof.Machine


/-! PROOFS. What the dispatch of a request serves: MODE_MAP applications, the end of a run, run starts, drains, aborts
(R107, R115, R120, R121), and the requests that act at once (R87, R150, R157). -/

namespace Sys2Proof.Machine

section

variable {a p q : Chip}

/-! ## Mode values applied (R23, R27, R28) -/

theorem Chip.applyMap_serial (m : ModeMap) (p : Chip) (j : Fin 128) :
    (p.slot j).serial ≤ ((p.applyMap m).slot j).serial := by
  have told := Chip.setMap_reports m p
  have ended := (Chip.endCaptureForMap_cascade (.refl p)).serial j
  obtain ⟨cleared, -⟩ := (Chip.mapCleared_toils p).slots j id
  rw [told.slot]
  exact ended.trans cleared

theorem Chip.applyMap_serves (m : ModeMap) (h : a.Serves p) : a.Serves (p.applyMap m) := by
  have told := Chip.setMap_reports m p
  have cleared := Chip.mapCleared_attends p
  have dropped := Chip.applyMap_dropped m p
  have marked := (Chip.dirtyRunWords_frees (.refl noSlot (p.mapCleared.setMap m))).attends
  obtain ⟨capture, noCapture, -, -⟩ := Chip.applyMap_capture m p
  rw [← Chip.applyMap_eq] at marked
  have set : p.mapCleared.Attends (p.mapCleared.setMap m) :=
    ⟨fun _ _ => rfl, Nat.le_refl _, rfl, .inl rfl, fun _ _ => id⟩
  obtain ⟨slots, clips, -, -, run, -⟩ := dropped
  refine h.trans { (cleared.trans set).trans marked with
    capture := fun _ => capture
    noCapture := fun offered => (Chip.endCaptureForMap_abandons p).noCapture (noCapture offered)
    slots := fun j => ⟨Chip.applyMap_serial m p j, .inr (.inl (slots j).1)⟩
    spares := fun k _ => ⟨clips k, fun x b c n => ?_⟩ }
  rw [run]
  nofun

/-- An update of CPM's mode registers. -/
theorem Chip.Serves.setCpm {c : Cpm} (h : a.Serves p) (counters : c.counters = p.cpm.counters := by rfl)
    (nextWrite : c.nextWrite = p.cpm.nextWrite := by rfl) (nextRequest : c.nextRequest = p.cpm.nextRequest := by rfl)
    (request : c.request = p.cpm.request := by rfl) : a.Serves { p with cpm := c } :=
  h.trans { Chip.Serves.refl p with
    counters := fun k _ => by unfold Chip.counter; rw [counters]
    nextWrite := Nat.le_of_eq nextWrite.symm
    nextRequest := nextRequest
    request := .inl request }

theorem Chip.applyPending_serves (h : a.Serves p) : a.Serves p.applyPending := by
  have held {α : Type} (x : Option α) {apply : α → Chip → Chip}
      (serves : ∀ m q, a.Serves q → a.Serves (apply m q)) {q : Chip} (hq : a.Serves q) :
      a.Serves (q.applyHeld x apply) := by
    unfold Chip.applyHeld
    split
    · exact serves _ q hq
    · exact hq
  unfold Chip.applyPending
  exact held _ (fun m q hq => hq.setCpm) (held _ (fun m q hq => hq.setCpm) (held _ (fun m q hq => hq.setCpm)
    (held _ (fun m q => Chip.applyMap_serves m) h.setCpm)))

/-! ## The end of a run (R120, R159, R166) -/

/-- A change of the clip that the run uses. -/
theorem Chip.setClip_serves {k : Fin 4} {x : Clip} {b : Punch} {c d n : Nat} (h : a.Serves p)
    (used : p.rc.run.map RunRecord.params = some (.edit b (some k) c d n)) : a.Serves (p.setClip k x) :=
  h.trans { Chip.Serves.refl p with
    spares := fun i ⟨empty, unused⟩ => by
      refine ⟨?_, unused⟩
      have other : i ≠ k := by
        rintro rfl
        exact unused b c d n used
      exact (clips_set_other _ _ other).trans empty }

theorem Chip.endClip_serves {r : RunRecord} (run : p.rc.run.map RunRecord.params = some r.params) (h : a.Serves p) :
    a.Serves (p.endClip r) := by
  unfold Chip.endClip
  split
  · rename_i used
    exact Chip.setClip_serves h (run.trans (congrArg some used))
  · exact h

theorem Chip.endSaves_frees {S : Fin 128 → Prop} (r : RunRecord) (h : a.Frees S p) : a.Frees S (p.endSaves r) :=
  (Chip.pushEntry_frees _ (secure_frees _ _ h)).update

theorem Chip.endEcu_serves {r : RunRecord} (cause : EndCause) (run : p.rc.run.map RunRecord.params = some r.params)
    (h : a.Serves p) : a.Serves (p.endEcu r cause) := by
  unfold Chip.endEcu
  split
  · exact (Chip.endClip_serves run h).frees (Chip.endSaves_frees r)
  · split
    · exact h.frees (Chip.Frees.foldl (fun _ _ => Chip.popEntry_frees) _)
    · exact h
  · exact h
  · exact h

/-- An update of the run controller that keeps the run's parameters. -/
theorem Chip.Serves.setRc {rc : Rc} (h : a.Serves p)
    (params : rc.run.map RunRecord.params = p.rc.run.map RunRecord.params) : a.Serves { p with rc := rc } :=
  h.trans { Chip.Serves.refl p with
    spares := fun _ ⟨empty, unused⟩ => ⟨empty, by rw [params]; exact unused⟩ }

theorem Chip.enterIdle_serves (cause : EndCause) (h : a.Serves p) : a.Serves (p.enterIdle cause) := by
  unfold Chip.enterIdle
  split
  · exact h
  · rename_i r found
    have idle : a.Serves { p with rc := ⟨.idle, some { r with endCause := cause, drainTimer := none }⟩ } :=
      h.setRc (by rw [found]; rfl)
    exact Chip.answerStop_serves _ _ (Chip.applyPending_serves ((Chip.endEcu_serves cause rfl idle).frees fun f =>
      Chip.noteStatus_frees (Chip.raise_frees _ f)))

theorem Chip.checkEnd_serves (h : a.Serves p) : a.Serves p.checkEnd := by
  unfold Chip.checkEnd
  split
  · exact h
  · split
    · exact h
    · split
      · exact Chip.enterIdle_serves _ h
      · exact h
    · split
      · exact Chip.enterIdle_serves _ h
      · exact h

theorem Chip.finish_serves (h : a.Serves p) : a.Serves p.finish :=
  (Chip.checkEnd_serves (h.toils Chip.progress_toils)).frees fun f =>
    Chip.noteStatus_frees (Chip.offerFetch_frees f)

/-! ## Run starts (R107, R139) -/

theorem Chip.startEdit_serves {r : RunRecord} (run : p.rc.run = some r) (h : a.Serves p) :
    a.Serves (p.startEdit r) := by
  unfold Chip.startEdit
  split
  · rename_i clip _ _ _ used
    have cleared : a.Serves { p with
        ecu := { p.ecu with segCount := 0, partialMark := false, stoppedMark := false } } := h.frees fun f => f.update
    dsimp only
    split
    · exact Chip.setClip_serves cleared (by rw [run]; exact congrArg some used)
    · exact cleared
  · exact h

/-- The part with a run's record new, before its claims (step 4 of R107). -/
def Chip.withRun (r : RunRecord) (p : Chip) : Chip :=
  { p with
    lbp := { p.lbp with strayNoticed := false, outRecord := .none }
    cpm := { p.cpm with consumeCount := 0, readyPrefix := 0, readyAhead := [] }
    rc := ⟨.active, some r⟩
    dlc := { p.dlc with cursorPos := 0, cursorRow := 0, cursorStopped := false, omits := [] } }

/-- A new run uses no clip that is to stay EMPTY. -/
theorem Chip.withRun_serves {r : RunRecord} (h : a.Serves p)
    (unused : ∀ k, p.ecu.clips[k] = Clip.reset → ∀ x b c n, r.params ≠ .edit x (some k) b c n) :
    a.Serves (p.withRun r) :=
  h.trans { Chip.Serves.refl p with
    spares := fun k ⟨empty, _⟩ => ⟨empty, fun x b c n same => unused k empty x b c n (Option.some.inj same)⟩ }

theorem Chip.placeSlots_frees {S : Fin 128 → Prop} (r : RunRecord) (h : a.Frees S p) : a.Frees S (p.placeSlots r) :=
  Chip.Frees.foldl (fun _ _ hq => Chip.modSlot_frees (.inr fun _ => .sameClaim) hq) _ h

theorem Chip.startRun_serves {r : RunRecord} (h : a.Serves p)
    (unused : ∀ k, p.ecu.clips[k] = Clip.reset → ∀ x b c n, r.params ≠ .edit x (some k) b c n) :
    a.Serves (p.startRun r) := by
  have freed := Chip.releaseReads_toils
    (Chip.endReadEvals_frees (Chip.releaseAll_frees (.refl noSlot p))).toToils
  have begun := Chip.withRun_serves (h.trans freed.serves) (r := r) (by rw [freed.clips]; exact unused)
  have placed := (Chip.startEdit_serves rfl begun).frees (Chip.placeSlots_frees r)
  have claimed := placed.toils (Chip.Toils.foldl (fun _ q => Chip.claim_toils q) (List.range (min 128 r.length)))
  exact Chip.finish_serves (Chip.report_serves _ _ (claimed.frees Chip.dirtyRunWords_frees))

theorem Chip.startChecked_serves {range : Option (Int × Int)} {act : Chip → Chip} (serves : a.Serves (act p))
    (h : a.Serves p) : a.Serves (p.startChecked range act) := by
  by_cases idle : p.rc.state = .idle
  · by_cases inside : RangeInside range
    · by_cases link : p.dlc.linkState = .up
      · rw [Chip.startChecked_passed act idle inside link]
        exact serves
      · rw [Chip.startChecked_unlinked act idle inside link]
        exact Chip.report_serves _ _ h
    · rw [Chip.startChecked_outside act idle inside]
      exact Chip.report_serves _ _ h
  · rw [Chip.startChecked_running act idle]
    exact Chip.report_serves _ _ h

theorem Chip.startPlay_serves (tag : Nat) (h : a.Serves p) : a.Serves (p.startPlay tag) := by
  unfold Chip.startPlay
  refine Chip.startChecked_serves ?_ h
  split
  · exact Chip.report_serves _ _ h
  · exact Chip.startRun_serves h fun _ _ _ _ _ _ => nofun

theorem Chip.startRecord_serves (tag : Nat) (h : a.Serves p) : a.Serves (p.startRecord tag) := by
  unfold Chip.startRecord
  exact Chip.startChecked_serves (Chip.startRun_serves h fun _ _ _ _ _ _ => nofun) h

/-- An EDIT that passes its checks names no EMPTY clip (check 8 of R138). -/
theorem EditArgs.refusal_none {e : EditArgs} {clips : Vector Clip 4} (passes : e.refusal clips = none) {k : Fin 4}
    (named : e.clip = some k) : clips[k] ≠ Clip.reset := by
  intro empty
  have refused : e.clipRefusal clips = some (.badState, 1) := by
    unfold EditArgs.clipRefusal
    rw [named]
    dsimp only
    rw [empty]
    rfl
  unfold EditArgs.refusal at passes
  rw [refused] at passes
  split_ifs at passes

theorem Chip.startEditRun_serves (tag : Nat) (h : a.Serves p) : a.Serves (p.startEditRun tag) := by
  unfold Chip.startEditRun
  refine Chip.startChecked_serves ?_ h
  split
  · exact Chip.report_serves _ _ h
  · rename_i passes
    refine Chip.startRun_serves h fun k empty x b c n used => ?_
    have named : p.editArgs.clip = some k := by
      have same : p.editArgs.params = .edit x (some k) b c n := used
      unfold EditArgs.params at same
      injection same
    exact EditArgs.refusal_none passes named empty

theorem Chip.startRevert_serves (tag : Nat) (h : a.Serves p) : a.Serves (p.startRevert tag) := by
  unfold Chip.startRevert
  refine Chip.startChecked_serves ?_ h
  split
  · exact Chip.report_serves _ _ h
  · split
    · exact Chip.report_serves _ _ h
    · split
      · exact Chip.report_serves _ _ (h.frees Chip.popEntry_frees)
      · exact Chip.startRun_serves h fun _ _ _ _ _ _ => nofun

/-! ## STOP (R115, R116) -/

theorem Chip.startDrain_serves (h : a.Serves p) : a.Serves p.startDrain := by
  have draining : a.Serves { p with rc := { p.rc with state := .draining } } := h.setRc rfl
  have timed := draining.frees (Chip.modRun_frees
    (f := fun r => { r with drainTimer := some p.cpm.link.drainTimeout }) fun _ => rfl)
  unfold Chip.startDrain
  exact ((timed.toils (Chip.Toils.foldl (fun _ i => Chip.drainWrite_toils i) _)).frees
    (Chip.Frees.foldl (fun _ i => Chip.giveUpPlay_frees i) _)).frees (Chip.testReleases_frees _)

theorem Chip.stopRun_serves (h : a.Serves p) : a.Serves p.stopRun := by
  unfold Chip.stopRun
  split
  · exact Chip.finish_serves (Chip.startDrain_serves h)
  · exact Chip.report_serves _ _ h

/-! ## Clips, MARK, LINKCLEAR (R87, R121, R150, R153, R157) -/

theorem Chip.captureClip_attends (h : a.Serves p) : a.Attends p.captureClip := by
  cases decided : p.captureRefusal (p.cpm.arg 0) (p.cpm.arg 1) (p.cpm.arg 2) with
  | some refusal =>
    obtain ⟨o, d⟩ := refusal
    rw [Chip.captureClip_refused decided]
    exact (Chip.report_serves o d h).toAttends
  | none =>
    rw [Chip.captureClip_begins decided, Chip.beginCapture_eq]
    exact h.toAttends.trans ⟨fun _ _ => rfl, Nat.le_refl _, rfl, .inl rfl, fun _ _ x =>
      Chip.offers_mono _ (p := { p with
        slots := (p.pinRun (p.cpm.arg 0) (p.cpm.arg 1)).slots
        ecu := p.capturing (p.cpm.arg 0) (p.cpm.arg 1) (Fin.ofNat 4 (p.cpm.arg 2)) }) x⟩

theorem Chip.dropClip_attends (h : a.Serves p) : a.Attends p.dropClip := by
  unfold Chip.dropClip
  dsimp only
  split
  · exact (Chip.report_serves _ _ h).toAttends
  · split
    · exact (Chip.report_serves _ _ h).toAttends
    · have set : p.Attends (p.setClip (Fin.ofNat 4 (p.cpm.arg 0)) Clip.reset) :=
        ⟨fun _ _ => rfl, Nat.le_refl _, rfl, .inl rfl, fun _ _ => id⟩
      exact (h.toAttends.trans set).trans (Chip.report_serves _ _ (.refl _)).toAttends

theorem Chip.markSegment_serves (h : a.Serves p) : a.Serves p.markSegment := by
  unfold Chip.markSegment
  dsimp only
  split
  · exact Chip.report_serves _ _ h
  · split
    · exact Chip.report_serves _ _ h
    · split
      · exact Chip.report_serves _ _ h
      · split
        · exact Chip.report_serves _ _ h
        · split
          · exact Chip.report_serves _ _ h
          · exact Chip.report_serves _ _ (h.frees (Chip.setSlot_frees (.inr .sameClaim)))

theorem Chip.abort_serves (h : a.Serves p) : a.Serves p.abort := by
  unfold Chip.abort
  split
  · exact h
  · refine Chip.enterIdle_serves _ (h.frees fun f => ?_)
    refine Chip.Frees.foldl (fun _ i => Chip.abortRelease_frees i) _ (Chip.Frees.foldl
      (fun _ i => Chip.giveUpPlay_frees i) _ (Chip.Frees.foldl (fun q i hq => ?_) _ f))
    split
    · exact hq
    · exact Chip.discardWrite_frees i hq

theorem Chip.clearLink_serves (request : Bool) (h : a.Serves p) : a.Serves (p.clearLink request) := by
  have withdrawn : p.abort.Frees noSlot p.abort.withdrawLink := by
    unfold Chip.withdrawLink
    dsimp only
    split
    · exact Chip.withdrawFetch_frees (.refl _ _)
    · exact Chip.withdrawFetch_frees (Chip.withdraw_frees (by decide) (.refl _ _))
  have emptied : a.Serves p.abort.withdrawLink.emptyLink :=
    ((Chip.abort_serves h).trans withdrawn.serves).toils fun t => t.update
  exact emptied.frees (Chip.raise_frees _)

theorem Chip.linkClearRequest_serves (h : a.Serves p) : a.Serves p.linkClearRequest := by
  have opened {q : Chip} (hq : a.Serves q) : a.Serves (q.openLink true) := hq.toils fun t => t.update
  unfold Chip.linkClearRequest
  dsimp only
  split
  · exact Chip.report_serves _ _ (opened (Chip.clearLink_serves true h))
  · exact Chip.report_serves _ _ (opened (Chip.clearLink_serves true h))
  · exact Chip.report_serves _ _ (opened h)
  · exact Chip.report_serves _ _ (opened h)

end

end Sys2Proof.Machine


/-! PROOFS. CONSUME_COUNT_WRITE consumes up to what is ready (R33, R60) (O31). -/

namespace Sys2Proof.Machine

/-! ## The `readyPrefix` (R33) -/

/-- The count moves over filled positions, and stops at one that is not filled, or where the fuel ends. -/
theorem extendPrefix_spec (fuel n : Nat) (filled : List Nat) :
    n ≤ extendPrefix fuel n filled ∧ (∀ k, n ≤ k → k < extendPrefix fuel n filled → k ∈ filled) ∧
      (extendPrefix fuel n filled ∉ filled ∨ extendPrefix fuel n filled = n + fuel) := by
  induction fuel generalizing n with
  | zero => exact ⟨Nat.le_refl n, fun k le lt => absurd lt (Nat.not_lt.mpr le), .inr rfl⟩
  | succ fuel ih =>
    unfold extendPrefix
    split
    · rename_i here
      obtain ⟨le, covered, stop⟩ := ih (n + 1)
      refine ⟨by omega, fun k from_n below => ?_, stop.imp_right fun eq => by omega⟩
      rcases Nat.eq_or_lt_of_le from_n with rfl | later
      · simpa using here
      · exact covered k later below
    · rename_i here
      exact ⟨Nat.le_refl n, fun k le lt => absurd lt (Nat.not_lt.mpr le), .inl (by simpa using here)⟩

/-- With as much fuel as there are filled positions, the count ends at one that is not filled. -/
theorem extendPrefix_stops (n : Nat) (filled : List Nat) : extendPrefix filled.length n filled ∉ filled := by
  obtain ⟨-, covered, stop⟩ := extendPrefix_spec filled.length n filled
  rcases stop with done | eq
  · exact done
  · intro member
    have sub : List.range' n (filled.length + 1) ⊆ filled := fun k inside => by
      obtain ⟨le, lt⟩ := List.mem_range'_1.mp inside
      by_cases last : k = extendPrefix filled.length n filled
      · exact last ▸ member
      · exact covered k le (by omega)
    have few := ((List.nodup_range' (step := 1)).subperm sub).length_le
    rw [List.length_range'] at few
    omega

/-! ## The consume count stays (R33) -/

/-- The consume count and `readyPrefix`. -/
def Cpm.consumption (c : Cpm) : Nat × Nat := (c.consumeCount, c.readyPrefix)

section

variable {S : Fin 128 → Prop} {p q : Chip}

theorem Cpm.SameButReports.consumption {a b : Cpm} (h : Cpm.SameButReports a b) :
    b.consumption = a.consumption ∧ b.pendingMap = a.pendingMap := by
  rw [h]
  exact ⟨rfl, rfl⟩

theorem Chip.Toils.consumption (h : p.Toils S q) :
    q.cpm.consumption = p.cpm.consumption ∧ q.cpm.pendingMap = p.cpm.pendingMap := by
  rw [h.cpm]
  exact ⟨rfl, rfl⟩

theorem Chip.endEcu_cpm (r : RunRecord) (cause : EndCause) (p : Chip) :
    Cpm.SameButReports p.cpm (p.endEcu r cause).cpm := by
  have clip : (p.endClip r).cpm = p.cpm := by
    unfold Chip.endClip
    split
    · rfl
    · rfl
  unfold Chip.endEcu
  split
  · have saved := (Chip.endSaves_frees r (.refl noSlot (p.endClip r))).sameCpm
    rw [clip] at saved
    exact saved
  · split
    · exact (Chip.Frees.foldl (fun _ _ => Chip.popEntry_frees) _ (.refl noSlot p)).sameCpm
    · exact .refl _
  · exact .refl _
  · exact .refl _

theorem Chip.answerStop_consumption (cause : EndCause) (omitted : Nat) (p : Chip) :
    (p.answerStop cause omitted).cpm.consumption = p.cpm.consumption := by
  unfold Chip.answerStop
  split
  · split
    · obtain ⟨same, -⟩ := (Chip.report_records .done (stopDetail cause omitted) p).cpm.consumption
      exact same
    · rfl
  · rfl

theorem Chip.applyPending_consumption (noMap : p.cpm.pendingMap = none) :
    p.applyPending.cpm.consumption = p.cpm.consumption := by
  have held {α : Type} (x : Option α) {apply : α → Chip → Chip}
      (steady : ∀ m q, (apply m q).cpm.consumption = q.cpm.consumption) (q : Chip) :
      (q.applyHeld x apply).cpm.consumption = q.cpm.consumption := by
    unfold Chip.applyHeld
    split
    · exact steady _ q
    · rfl
  unfold Chip.applyPending
  dsimp only
  rw [noMap, held (apply := Chip.applyEdit) _ fun _ _ => rfl, held (apply := Chip.applyLink) _ fun _ _ => rfl,
    held (apply := Chip.applySignal) _ fun _ _ => rfl]
  rfl

/-- With no map pending, the end of a run leaves the consume count. -/
theorem Chip.enterIdle_consumption (cause : EndCause) (noMap : p.cpm.pendingMap = none) :
    (p.enterIdle cause).cpm.consumption = p.cpm.consumption := by
  unfold Chip.enterIdle
  split
  · rfl
  · rename_i r _
    have ended :=
      Chip.endEcu_cpm r cause { p with rc := ⟨.idle, some { r with endCause := cause, drainTimer := none }⟩ }
    have told (x : Chip) := (Chip.raise_reports (.runEnd r.tag cause r.kind (r.pops cause)) x).trans
      (Chip.noteStatus_reports _)
    obtain ⟨same, pending⟩ := (ended.trans (told _).cpm).consumption
    exact (Chip.answerStop_consumption _ _ _).trans ((Chip.applyPending_consumption (pending.trans noMap)).trans same)

theorem Chip.checkEnd_consumption (noMap : p.cpm.pendingMap = none) :
    p.checkEnd.cpm.consumption = p.cpm.consumption := by
  unfold Chip.checkEnd
  split
  · rfl
  · split
    · rfl
    · split
      · exact Chip.enterIdle_consumption _ noMap
      · rfl
    · split
      · exact Chip.enterIdle_consumption _ noMap
      · rfl

theorem Chip.finish_consumption (noMap : p.cpm.pendingMap = none) :
    p.finish.cpm.consumption = p.cpm.consumption := by
  obtain ⟨moved, pending⟩ := (Chip.progress_toils (.refl noSlot p)).consumption
  obtain ⟨closed, -⟩ := (Chip.noteStatus_frees (Chip.offerFetch_frees (.refl noSlot p.progress.checkEnd))).consumption
  exact closed.trans ((Chip.checkEnd_consumption (pending.trans noMap)).trans moved)

end

/-! ## Segments consumed (R60) -/

/-- The claim of slot record x has been consumed, or is over, in the later record y. -/
def SlotConsumed (x y : Slot) : Prop :=
  x.serial ≤ y.serial ∧ (y.claimed = false ∨ y.consumed = true ∨ x.serial < y.serial)

theorem SlotConsumed.goesOn {x y z : Slot} (h : SlotConsumed x y) (k : SlotGoesOn y z) : SlotConsumed x z := by
  obtain ⟨le, ended⟩ := h
  obtain ⟨le', anew | free | ⟨claimed, -, -, consumed⟩⟩ := k
  · exact ⟨le.trans le', .inr (.inr (Nat.lt_of_le_of_lt le anew))⟩
  · exact ⟨le.trans le', .inl free⟩
  · rcases ended with free | marked | later
    · exact ⟨le.trans le', .inl (claimed.trans free)⟩
    · exact ⟨le.trans le', .inr (.inl (consumed marked))⟩
    · exact ⟨le.trans le', .inr (.inr (Nat.lt_of_lt_of_le later le'))⟩

/-- A slot that no longer holds its segment has lost its claim. -/
theorem SlotGoesOn.lost {x y : Slot} {segment : Nat} (h : SlotGoesOn x y) (held : x.holds segment = true)
    (lost : ¬y.holds segment = true) : SlotConsumed x y := by
  obtain ⟨le, anew | free | ⟨claimed, same, -, -⟩⟩ := h
  · exact ⟨le, .inr (.inr anew)⟩
  · exact ⟨le, .inl free⟩
  · unfold Slot.holds at held lost
    rw [claimed, same] at lost
    exact absurd held lost

/-- A segment handed as consumed (R60). -/
theorem Chip.consume_consumes {x : Slot} {p : Chip} {segment : Nat} (came : SlotGoesOn x (p.slot (slotOf segment)))
    (held : x.holds segment = true) : SlotConsumed x ((p.consume segment).slot (slotOf segment)) := by
  unfold Chip.consume
  dsimp only
  split
  · have tested := (Chip.releaseTest_frees (slotOf segment) (.refl noSlot
      (p.modSlot (slotOf segment) fun s => { s with consumed := true }))).slots (slotOf segment) id
    rw [Chip.slot_modSlot_same] at tested
    obtain ⟨le, -⟩ := came
    have marked : SlotConsumed x { p.slot (slotOf segment) with consumed := true } := ⟨le, .inr (.inl rfl)⟩
    exact marked.goesOn tested
  · rename_i lost
    exact came.lost held lost

theorem Chip.consumeRange_frees {S : Fin 128 → Prop} {a p : Chip} (r : RunRecord) (lo hi : Nat) (h : a.Frees S p) :
    a.Frees S (p.consumeRange r lo hi) :=
  Chip.Frees.foldl (fun _ _ => Chip.consume_frees _) _ h

/-- Every segment of the range that its slot holds is consumed. -/
theorem Chip.consumeRange_consumes {p : Chip} {r : RunRecord} {lo hi q : Nat} (from_lo : lo ≤ q) (below : q < hi)
    (held : (p.slot (slotOf (r.segmentAt q))).holds (r.segmentAt q) = true) :
    SlotConsumed (p.slot (slotOf (r.segmentAt q))) ((p.consumeRange r lo hi).slot (slotOf (r.segmentAt q))) := by
  have member : q - lo ∈ List.range (hi - lo) := List.mem_range.mpr (by omega)
  have place : lo + (q - lo) = q := by omega
  have consumes (l : List Nat) (x : Chip) : x.Frees noSlot (l.foldl (fun x k => x.consume (r.segmentAt (lo + k))) x) :=
    Chip.Frees.foldl (fun _ _ => Chip.consume_frees _) l (.refl _ x)
  obtain ⟨before, after, split⟩ := List.append_of_mem member
  unfold Chip.consumeRange
  rw [split, List.foldl_append, List.foldl_cons, place]
  have came := (consumes before p).slots (slotOf (r.segmentAt q)) id
  exact (Chip.consume_consumes came held).goesOn ((consumes after _).slots _ id)

/-! ## CONSUME_COUNT_WRITE (R33) -/

/-- The part with the consume count taken to the value, or to `readyPrefix` (R33). -/
def Chip.countConsumed (v : Nat) (p : Chip) : Chip :=
  { p with cpm := { p.cpm with consumeCount := min v p.cpm.readyPrefix } }

theorem Chip.writeConsume_eq (v : Nat) (p : Chip) : p.writeConsume v =
    if v ≤ p.cpm.consumeCount then p
    else match p.rc.run with
      | some r => ((p.countConsumed v).consumeRange r p.cpm.consumeCount (min v p.cpm.readyPrefix)).finish
      | none => p.countConsumed v := rfl

/-- A value above the count (R33, R60). -/
theorem Chip.writeConsume_advances {v : Nat} {p : Chip} (above : p.cpm.consumeCount < v)
    (noMap : p.cpm.pendingMap = none) :
    (p.writeConsume v).cpm.consumption = (min v p.cpm.readyPrefix, p.cpm.readyPrefix) ∧
      (∀ c, c ≠ .underrun → (p.writeConsume v).counter c = p.counter c) ∧
      ∀ r q, p.rc.run = some r → p.cpm.consumeCount ≤ q → q < min v p.cpm.readyPrefix →
        (p.slot (slotOf (r.segmentAt q))).holds (r.segmentAt q) = true →
        SlotConsumed (p.slot (slotOf (r.segmentAt q))) ((p.writeConsume v).slot (slotOf (r.segmentAt q))) := by
  rw [Chip.writeConsume_eq, if_neg (Nat.not_le.mpr above)]
  cases run : p.rc.run with
  | none => exact ⟨rfl, fun _ _ => rfl, nofun⟩
  | some r =>
    dsimp only
    have consumed := Chip.consumeRange_frees r p.cpm.consumeCount (min v p.cpm.readyPrefix)
      (.refl noSlot (p.countConsumed v))
    have slots {q : Nat} := Chip.consumeRange_consumes (p := p.countConsumed v) (r := r) (lo := p.cpm.consumeCount)
      (hi := min v p.cpm.readyPrefix) (q := q)
    generalize (p.countConsumed v).consumeRange r p.cpm.consumeCount (min v p.cpm.readyPrefix) = x at *
    obtain ⟨same, pending⟩ := consumed.consumption
    refine ⟨(Chip.finish_consumption (pending.trans noMap)).trans same, fun c other =>
      (Chip.finish_counter x other).trans (consumed.counters c other), ?_⟩
    rintro _ q ⟨⟩ from_count below held
    exact (slots from_count below held).goesOn ((Chip.finish_serves (.refl x)).slots _)

/-- A value that is not above the count (R33). -/
theorem State.consumeCount_ignored {s : State} {w : PostedWrite} {v : Nat} (below : v ≤ s.cpm.consumeCount) :
    (s.placed w).Records ((s.placed w).writeConsume v) { s.cpm with cells := (s.shadowed w).cells } := by
  have same : (s.placed w).writeConsume v = s.placed w := if_pos (c := v ≤ (s.placed w).cpm.consumeCount) below
  rw [same]
  exact (s.placed w).records_self

/-- What the command leaves of a value above the count. -/
theorem State.consumeCount_taken {s : State} {w : PostedWrite} {v : Nat} {t : Chip} (above : s.cpm.consumeCount < v)
    (noMap : s.cpm.pendingMap = none) (ends : ((s.placed w).writeConsume v).EndsHead t) :
    t.cpm.consumeCount = min v s.cpm.readyPrefix ∧ t.cpm.readyPrefix = s.cpm.readyPrefix ∧
      (∀ c, c ≠ .underrun → t.counter c = s.toChip.counter c) ∧
      ∀ r q, s.rc.run = some r → s.cpm.consumeCount ≤ q → q < min v s.cpm.readyPrefix →
        (s.toChip.slot (slotOf (r.segmentAt q))).holds (r.segmentAt q) = true →
        SlotConsumed (s.toChip.slot (slotOf (r.segmentAt q))) (t.slot (slotOf (r.segmentAt q))) := by
  obtain ⟨count, counters, slots⟩ := Chip.writeConsume_advances (v := v) (p := s.placed w) above noMap
  obtain ⟨same, -⟩ := ends.cpm.consumption
  have both := same.trans count
  refine ⟨congrArg Prod.fst both, congrArg Prod.snd both,
    fun c other => (ends.counter c).trans (counters c other), fun r q run from_count below held => ?_⟩
  rw [ends.slot]
  exact slots r q run from_count below held

/-- Settles O31: a value above the count hands the segments in between as consumed. -/
theorem consumeCountConsumes : Obligations.ConsumeCountConsumes := by
  unfold Obligations.ConsumeCountConsumes
  refine ⟨?_, ?_⟩
  · intro s w heads noMap v
    refine ⟨fun below => ?_, fun above => ?_⟩
    · obtain ⟨t, next, cpm, -, tape, dlc, -⟩ := State.grantHead_records
        (fun w p => p.writeConsume (w.wordAt consumeCell).toNat) heads (State.consumeCount_ignored below)
      exact ⟨t, next, cpm, tape, dlc⟩
    · obtain ⟨count, ready, counters, slots⟩ := State.consumeCount_taken above noMap (Chip.endHead_ends w _)
      exact ⟨_, State.grantHead_ends (fun w p => p.writeConsume (w.wordAt consumeCell).toNat) heads, count, ready,
        counters, fun r q run from_count below held => (slots r q run from_count below held).2⟩
  · intro n filled m
    obtain ⟨le, covered, -⟩ := extendPrefix_spec filled.length n filled
    exact ⟨le, covered, extendPrefix_stops n filled⟩

end Sys2Proof.Machine


/-! PROOFS. A request word decided at its copy (R29, R30, R32), and the capture it abandons (R156) (O22). -/

namespace Sys2Proof.Machine

/-! ## The slots of an abandoned capture (R156) -/

/-- Slot record y comes after x with one pin fewer, or the claim of x is over. -/
def SlotUnpinned (x y : Slot) : Prop :=
  x.serial ≤ y.serial ∧ (y.pins = x.pins - 1 ∨ y.claimed = false ∨ x.serial < y.serial)

theorem SlotUnpinned.goesOn {x y z : Slot} (h : SlotUnpinned x y) (k : SlotGoesOn y z) : SlotUnpinned x z := by
  obtain ⟨le, unpinned⟩ := h
  obtain ⟨le', anew | free | ⟨claimed, -, pins, -⟩⟩ := k
  · exact ⟨le.trans le', .inr (.inr (Nat.lt_of_le_of_lt le anew))⟩
  · exact ⟨le.trans le', .inr (.inl free)⟩
  · rcases unpinned with fewer | free | later
    · exact ⟨le.trans le', .inl (pins.trans fewer)⟩
    · exact ⟨le.trans le', .inr (.inl (claimed.trans free))⟩
    · exact ⟨le.trans le', .inr (.inr (Nat.lt_of_lt_of_le later le'))⟩

/-- A slot that goes on, then loses a pin. -/
theorem SlotGoesOn.unpin {x y : Slot} (h : SlotGoesOn x y) : SlotUnpinned x { y with pins := y.pins - 1 } := by
  obtain ⟨le, anew | free | ⟨-, -, pins, -⟩⟩ := h
  · exact ⟨le, .inr (.inr anew)⟩
  · exact ⟨le, .inr (.inl free)⟩
  · exact ⟨le, .inl (congrArg (· - 1) pins)⟩

theorem Chip.unpin_unpins {x : Slot} {i : Fin 128} {p : Chip} (came : SlotGoesOn x (p.slot i)) :
    SlotUnpinned x ((p.unpin i).slot i) := by
  have tested := (Chip.releaseTest_frees i (.refl noSlot
    (p.modSlot i fun s => { s with pins := s.pins - 1 }))).slots i id
  rw [Chip.slot_modSlot_same] at tested
  exact came.unpin.goesOn tested

/-- Slots unpinned one by one, each once. -/
theorem Chip.unpins_unpin {l : List (Fin 128)} (once : l.Nodup) {i : Fin 128} (member : i ∈ l) (p : Chip) :
    SlotUnpinned (p.slot i) ((l.foldl (fun p i => p.unpin i) p).slot i) := by
  obtain ⟨before, after, split⟩ := List.append_of_mem member
  rw [split, List.nodup_middle, List.nodup_cons, List.mem_append, not_or] at once
  obtain ⟨⟨fresh, done⟩, -⟩ := once
  rw [split, List.foldl_append, List.foldl_cons]
  have came := (Chip.unpins_frees before (fun _ => id) (.refl (· ∈ before) p)).slots i fresh
  exact (Chip.unpin_unpins came).goesOn ((Chip.unpins_frees after (fun _ => id) (.refl (· ∈ after) _)).slots i done)

/-- Segments fewer than 128 apart have slots of their own. -/
theorem slotOf_injective {a b : Nat} (near : a < b + 128) (near' : b < a + 128) (same : slotOf a = slotOf b) :
    a = b := by
  have mods : a % 128 = b % 128 := congrArg Fin.val same
  omega

theorem Capture.pinned_nodup {c : Capture} (few : c.count ≤ 64) : c.pinned.Nodup := by
  unfold Capture.pinned
  refine List.Nodup.map_on (fun a left b right same => ?_) List.nodup_range
  have low := List.mem_range.mp left
  have high := List.mem_range.mp right
  have places := slotOf_injective (by omega) (by omega) same
  omega

theorem Capture.mem_pinned {c : Capture} {g : Nat} (from_segment : c.segment ≤ g) (below : g < c.count) :
    slotOf (c.first + g) ∈ c.pinned := by
  refine List.mem_map.mpr ⟨g - c.segment, List.mem_range.mpr (by omega), ?_⟩
  rw [show c.first + c.segment + (g - c.segment) = c.first + g by omega]

/-- A dropped capture unpins each segment not yet copied. -/
theorem Chip.dropCapture_unpins {c : Capture} (few : c.count ≤ 64) {g : Nat} (from_segment : c.segment ≤ g)
    (below : g < c.count) (p : Chip) :
    SlotUnpinned (p.slot (slotOf (c.first + g))) ((p.dropCapture c).slot (slotOf (c.first + g))) := by
  have quit : (p.quitCapture c).slot (slotOf (c.first + g)) = p.slot (slotOf (c.first + g)) := by
    rw [Chip.quitCapture_eq]
    split <;> rfl
  have unpinned := Chip.unpins_unpin (Capture.pinned_nodup few) (Capture.mem_pinned from_segment below)
    (p.quitCapture c)
  rw [quit] at unpinned
  rw [Chip.dropCapture_eq]
  exact unpinned

/-- The dropped capture's clip is EMPTY and not in use, where the run in the record does not use it. -/
theorem Chip.dropCapture_spares {c : Capture} {p : Chip}
    (unused : ∀ r x a b n, p.rc.run = some r → r.params ≠ .edit x (some c.clip) a b n) :
    (p.dropCapture c).Spares c.clip := by
  refine ⟨Chip.dropCapture_clip c p, fun x a b n => ?_⟩
  rw [(Chip.dropCapture_frees c p).params]
  intro used
  obtain ⟨r, run, params⟩ := Option.map_eq_some_iff.mp used
  exact unused r x a b n run params

/-! ## The capture abandoned for a request (R30, R156) -/

section

variable {c : Capture} {k : RequestKind} {tag tag' : Nat} {p q t : Chip}

/-- The ABORTED result is offered, and the run goes on (log 37). -/
theorem Chip.abandonFor_serves (c : Capture) (tag : Nat) (p : Chip) :
    (p.dropCapture c).Serves (p.abandonFor c tag) ∧
      (p.dropCapture c).cpm.nextWrite < (p.abandonFor c tag).cpm.nextWrite ∧
      (p.abandonFor c tag).Offers (.result (p.dropCapture c).cpm.nextWrite ⟨tag, .aborted, c.segment⟩ none) := by
  unfold Chip.abandonFor
  have offered := (Chip.offerResult_frees ⟨tag, .aborted, c.segment⟩ none
    (.refl noSlot (p.dropCapture c))).toToils.serves
  have goes := Chip.finish_serves (.refl ((p.dropCapture c).offerResult ⟨tag, .aborted, c.segment⟩ none))
  exact ⟨offered.trans goes, Nat.lt_of_lt_of_le (Nat.lt_succ_self _) goes.nextWrite,
    goes.results _ rfl (Chip.offerResult_offers _ _ _)⟩

/-- A request taken and dispatched: its PENDING result waits. -/
theorem Chip.takePending_dispatched (acts : (p.takePending k tag).Attends q) (ends : q.EndsHead t) :
    t.Offers (.result p.cpm.nextWrite ⟨tag, .pending, 0⟩ none) ∧
      ∃ x, t.cpm.request = some x ∧ x.id = p.cpm.nextRequest ∧ x.kind = some k ∧ x.tag = tag := by
  have offered : (p.takePending k tag).Offers (.result p.cpm.nextWrite ⟨tag, .pending, 0⟩ none) :=
    Chip.offerResult_offers _ _ _
  have request : t.cpm.request = q.cpm.request := by rw [ends.cpm]
  refine ⟨ends.offers _ (acts.results _ rfl offered), ?_⟩
  rw [request]
  rcases acts.request with same | ⟨x, pending, answered⟩
  · exact ⟨_, same, rfl, rfl, rfl⟩
  · cases pending
    exact ⟨_, answered, rfl, rfl, rfl⟩

/-- A request taken is no capture's. -/
theorem Chip.takePending_noCapture (offered : (p.takePending k tag).Offers .capture) : p.Offers .capture :=
  Chip.offers_of_offer (p := p.takeRequest (some k) tag) (r := .result _ _ _) nofun offered

/-- What a request that abandons a capture leaves of it. -/
theorem Chip.abandonFor_abandons (acts : ((p.abandonFor c tag).takePending k tag').Serves q) (ends : q.EndsHead t) :
    p.CaptureAbandoned t c := by
  obtain ⟨serves, -, -⟩ := Chip.abandonFor_serves c tag p
  obtain ⟨-, -, -, -, ecu⟩ := ends.tape
  refine ⟨?_, fun one offered => ?_, fun few g from_segment below => ?_⟩
  · rw [ecu]
    exact acts.capture (serves.capture (Chip.dropCapture_capture c p))
  · exact Chip.dropCapture_gone one
      (serves.noCapture (Chip.takePending_noCapture (acts.noCapture (ends.noCapture offered))))
  · have dispatched := acts.slots (slotOf (c.first + g))
    obtain ⟨-, unpinned⟩ := ((Chip.dropCapture_unpins few from_segment below p).goesOn
      (serves.slots (slotOf (c.first + g)))).goesOn dispatched
    dsimp only
    rw [ends.slot]
    exact unpinned

/-- The clip of an abandoned capture stays EMPTY. -/
theorem Chip.abandonFor_clip (acts : ((p.abandonFor c tag).takePending k tag').Serves q) (ends : q.EndsHead t)
    (unused : ∀ r x a b n, p.rc.run = some r → r.params ≠ .edit x (some c.clip) a b n) :
    t.ecu.clips[c.clip] = Clip.reset := by
  obtain ⟨serves, -, -⟩ := Chip.abandonFor_serves c tag p
  obtain ⟨-, -, -, -, ecu⟩ := ends.tape
  have spared : ((p.abandonFor c tag).takePending k tag').Spares c.clip :=
    serves.spares c.clip (Chip.dropCapture_spares unused)
  obtain ⟨empty, -⟩ := acts.spares c.clip spared
  rw [ecu]
  exact empty

/-- The results of the capture and of the request that abandons it, in their order, and the request. -/
theorem Chip.abandonFor_results (acts : ((p.abandonFor c tag).takePending k tag').Serves q) (ends : q.EndsHead t) :
    ∃ id id' x, p.cpm.nextWrite ≤ id ∧ t.Offers (.result id ⟨tag, .aborted, c.segment⟩ none) ∧ id < id' ∧
      t.Offers (.result id' ⟨tag', .pending, 0⟩ none) ∧ t.cpm.request = some x ∧ x.id = p.cpm.nextRequest ∧
      x.kind = some k ∧ x.tag = tag' ∧ t.counter .ignored = p.counter .ignored := by
  have dropped := Chip.dropCapture_attends c p
  obtain ⟨serves, later, aborted⟩ := Chip.abandonFor_serves c tag p
  obtain ⟨pending, x, request, id, kind, same⟩ := Chip.takePending_dispatched acts.toAttends ends
  have kept : ((p.abandonFor c tag).takePending k tag').Offers
      (.result (p.dropCapture c).cpm.nextWrite ⟨tag, .aborted, c.segment⟩ none) :=
    Chip.offers_mono (p := (p.abandonFor c tag).takeRequest (some k) tag') _ aborted
  have ignored : ((p.abandonFor c tag).takePending k tag').counter .ignored = (p.abandonFor c tag).counter .ignored :=
    rfl
  refine ⟨_, _, x, dropped.nextWrite, ends.offers _ (acts.results _ rfl kept), later, pending, request,
    id.trans (serves.nextRequest.trans dropped.nextRequest), kind, same, ?_⟩
  rw [ends.counter, acts.counters .ignored (by decide), ignored, serves.counters .ignored (by decide),
    dropped.counters .ignored (by decide)]

end

/-! ## The request word (R29, R30) -/

/-- What the dispatch of each kind of request does. -/
def requestDispatch : RequestKind → Nat → Chip → Chip
  | .play, tag => Chip.startPlay tag
  | .record, tag => Chip.startRecord tag
  | .edit, tag => Chip.startEditRun tag
  | .revert, tag => Chip.startRevert tag
  | .stop, _ => Chip.stopRun
  | .capture, _ => Chip.captureClip
  | .dropClip, _ => Chip.dropClip
  | .mark, _ => Chip.markSegment
  | .linkClear, _ => Chip.linkClearRequest

theorem requestDispatch_serves {k : RequestKind} (abandons : k.abandons = true) (tag : Nat) (p : Chip) :
    p.Serves (requestDispatch k tag p) := by
  cases k with
  | play => exact Chip.startPlay_serves tag (.refl p)
  | record => exact Chip.startRecord_serves tag (.refl p)
  | edit => exact Chip.startEditRun_serves tag (.refl p)
  | revert => exact Chip.startRevert_serves tag (.refl p)
  | stop => exact Chip.stopRun_serves (.refl p)
  | capture => cases abandons
  | dropClip => cases abandons
  | mark => cases abandons
  | linkClear => cases abandons

theorem requestDispatch_attends (k : RequestKind) (tag : Nat) (p : Chip) : p.Attends (requestDispatch k tag p) := by
  cases k with
  | capture => exact Chip.captureClip_attends (.refl p)
  | dropClip => exact Chip.dropClip_attends (.refl p)
  | mark => exact (Chip.markSegment_serves (.refl p)).toAttends
  | linkClear => exact (Chip.linkClearRequest_serves (.refl p)).toAttends
  | play => exact (requestDispatch_serves rfl tag p).toAttends
  | record => exact (requestDispatch_serves rfl tag p).toAttends
  | edit => exact (requestDispatch_serves rfl tag p).toAttends
  | revert => exact (requestDispatch_serves rfl tag p).toAttends
  | stop => exact (requestDispatch_serves rfl tag p).toAttends

/-- What the grant of a request word does, for the row of its kind or of BADREQ. -/
def WriteAct.decideWord : WriteAct → PostedWrite → Chip → Chip
  | .request k, w, p => p.requestWord k w.tag (requestDispatch k w.tag)
  | _, w, p => p.refuseWord w.tag

theorem WriteAct.decideWord_request (k : RequestKind) (w : PostedWrite) (p : Chip) :
    (WriteAct.request k).decideWord w p = p.requestWord k w.tag (requestDispatch k w.tag) := rfl

theorem WriteAct.decideWord_badRequest (w : PostedWrite) (p : Chip) :
    WriteAct.badRequest.decideWord w p = p.refuseWord w.tag := rfl

/-- Each command of such a row decides the word as the head is granted. -/
theorem exec_decideWord {c : Instr} {act : WriteAct} (row : c.headRow = some act)
    (word : act = .badRequest ∨ ∃ k, act = .request k) (s : State) : exec c s = s.grantHead act act.decideWord := by
  rcases word with rfl | ⟨k, rfl⟩
  · cases c with
    | badReq => rfl
    | _ => cases row
  · cases c with
    | play | record | edit | revert | stop | capture | dropClip | mark | linkClear =>
      cases row
      rfl
    | _ => cases row

/-- A capture that the word abandons (R30). -/
def WriteAct.Abandons (act : WriteAct) (p : Chip) (q : PendingRequest) : Prop :=
  ∃ k, act = .request k ∧ k.abandons = true ∧ q.kind = some .capture ∧ q.reported = false ∧ p.ecu.capture.isSome = true

section

variable {act : WriteAct} {w : PostedWrite} {p : Chip} (word : act = .badRequest ∨ ∃ k, act = .request k)

include word

theorem WriteAct.decideWord_unconfigured (off : p.cpm.partState = .unconfigured) : act.decideWord w p = p := by
  rcases word with rfl | ⟨k, rfl⟩
  · rw [WriteAct.decideWord_badRequest]
    unfold Chip.refuseWord
    rw [off]
  · rw [WriteAct.decideWord_request]
    unfold Chip.requestWord
    rw [off]

theorem WriteAct.decideWord_ignored {q : PendingRequest} (ready : p.cpm.partState = .ready)
    (pending : p.cpm.request = some q) (keeps : ¬act.Abandons p q) :
    act.decideWord w p = p.ignoreRequest w.tag := by
  rcases word with rfl | ⟨k, rfl⟩
  · rw [WriteAct.decideWord_badRequest]
    unfold Chip.refuseWord
    rw [ready, pending]
  · rw [WriteAct.decideWord_request]
    unfold Chip.requestWord
    rw [ready, pending]
    cases capturing : p.ecu.capture with
    | none => rfl
    | some c =>
      refine if_neg fun ⟨abandons, kind, unanswered⟩ => keeps ⟨k, rfl, abandons, kind, unanswered, ?_⟩
      rw [capturing]
      rfl

end

theorem WriteAct.decideWord_abandons {w : PostedWrite} {p : Chip} {k : RequestKind} {q : PendingRequest} {c : Capture}
    (ready : p.cpm.partState = .ready) (pending : p.cpm.request = some q) (abandons : k.abandons = true)
    (kind : q.kind = some .capture) (unanswered : q.reported = false) (capturing : p.ecu.capture = some c) :
    (WriteAct.request k).decideWord w p =
      requestDispatch k w.tag ((p.abandonFor c q.tag).takePending k w.tag) := by
  rw [WriteAct.decideWord_request]
  unfold Chip.requestWord
  rw [ready, pending, capturing]
  exact if_pos ⟨abandons, kind, unanswered⟩

theorem WriteAct.decideWord_taken {w : PostedWrite} {p : Chip} (k : RequestKind) (ready : p.cpm.partState = .ready)
    (idle : p.cpm.request = none) :
    (WriteAct.request k).decideWord w p = requestDispatch k w.tag (p.takePending k w.tag) := by
  rw [WriteAct.decideWord_request]
  unfold Chip.requestWord
  rw [ready, idle]

theorem WriteAct.decideWord_refused {w : PostedWrite} {p : Chip} (ready : p.cpm.partState = .ready)
    (idle : p.cpm.request = none) :
    WriteAct.badRequest.decideWord w p = (p.takeRequest none w.tag).report .badReq 0 := by
  rw [WriteAct.decideWord_badRequest]
  unfold Chip.refuseWord
  rw [ready, idle]

/-! ## The grant of a request word -/

/-- UNCONFIGURED, CPM reports nothing as the head leaves. -/
theorem Chip.endHead_unconfigured {p : Chip} (w : PostedWrite) (off : p.cpm.partState = .unconfigured) :
    (p.endHead w).cpm = p.cpm := by
  have left : (p.leaveQueue w).cpm = p.cpm := by
    rcases Chip.leaveQueue_around w p with around | ⟨q, around, eq⟩
    · exact around.cpm
    · rw [eq]
      exact around.cpm
  unfold Chip.endHead
  rw [Chip.noteStatus_unconfigured (by rw [left]; exact off)]
  exact left

/-- A word ignored counts and raises IGNORED, and changes nothing else (R29). -/
theorem State.wordIgnored {s : State} {w : PostedWrite} {t : Chip} (ready : s.cpm.partState = .ready)
    (ends : ((s.placed w).ignoreRequest w.tag).EndsHead t) :
    Cpm.SameButCounters { s.cpm with cells := (s.shadowed w).cells } t.cpm ∧
      s.toChip.Counted t .ignored 1 ∧ (s.toChip.RingRoom → s.toChip.Raises t (.ignored w.tag)) ∧
      Chip.SameTape s.toChip t ∧ t.dlc = s.dlc ∧ t.lbp.responses = s.lbp.responses := by
  have counted := Chip.Counted.bump .ignored 1 (s.placed w)
  have raised := Chip.raise_reports (.ignored w.tag) ((s.placed w).bump .ignored 1)
  have raises := Chip.raise_raises (.ignored w.tag) ((s.placed w).bump .ignored 1) ready
  unfold Chip.ignoreRequest at ends
  generalize ((s.placed w).bump .ignored 1).raise (.ignored w.tag) = x at *
  obtain ⟨same, others⟩ := counted.reports raised
  refine ⟨(raised.cpm.trans ends.cpm).sameButCounters rfl,
    ⟨(ends.counter _).trans same, fun k other => (ends.counter k).trans (others k other)⟩,
    fun room => ends.raises (raises room), raised.sameTape.trans ends.tape, ends.dlc.trans raised.dlc,
    ends.responses.trans ?_⟩
  rw [raised.lbp]
  rfl

/-- A word that abandons a capture (R30, R156). -/
theorem State.wordAbandons {s : State} {w : PostedWrite} {k : RequestKind} {c : Capture} {tag tag' : Nat} {q t : Chip}
    (acts : (((s.placed w).abandonFor c tag).takePending k tag').Serves q) (ends : q.EndsHead t) :
    s.toChip.CaptureAbandoned t c ∧
      ((∀ r p a b n, s.rc.run = some r → r.params ≠ .edit p (some c.clip) a b n) →
        t.ecu.clips[c.clip] = ⟨.empty, 0, none, false, false⟩) ∧
      ∃ id id' x, s.cpm.nextWrite ≤ id ∧ t.Offers (.result id ⟨tag, .aborted, c.segment⟩ none) ∧ id < id' ∧
        t.Offers (.result id' ⟨tag', .pending, 0⟩ none) ∧ t.cpm.request = some x ∧ x.id = s.cpm.nextRequest ∧
        x.kind = some k ∧ x.tag = tag' ∧ t.counter .ignored = s.toChip.counter .ignored := by
  obtain ⟨ended, gone, unpinned⟩ := Chip.abandonFor_abandons acts ends
  have clip := Chip.abandonFor_clip acts ends
  have results := Chip.abandonFor_results acts ends
  exact ⟨⟨ended, fun one => gone (by rw [s.placed_queue]; exact one), unpinned⟩, clip, results⟩

/-- Settles O22: the word is decided by the part's state, the pending request and the capture. -/
theorem requestWordDecides : Obligations.RequestWordDecides := by
  unfold Obligations.RequestWordDecides
  intro s w c act row word heads
  have grant := (exec_decideWord row word s).trans (State.grantHead_ends act.decideWord heads)
  have ends := Chip.endHead_ends w (act.decideWord w (s.placed w))
  refine ⟨fun off => ?_, fun ready q pending keeps => ?_, fun ready q k cap pending same abandons kind unanswered
    capturing => ?_, fun ready idle => ⟨fun same => ?_, fun k same => ?_⟩⟩
  · have effect := WriteAct.decideWord_unconfigured (w := w) (p := s.placed w) word off
    rw [effect] at grant ends
    exact ⟨_, grant, Chip.endHead_unconfigured w off, ends.tape, ends.dlc⟩
  · have effect := WriteAct.decideWord_ignored (w := w) (p := s.placed w) word ready pending keeps
    rw [effect] at grant ends
    exact ⟨_, grant, State.wordIgnored ready ends⟩
  · subst same
    have effect := WriteAct.decideWord_abandons (w := w) (p := s.placed w) ready pending abandons kind unanswered
      capturing
    have acts := requestDispatch_serves abandons w.tag (((s.placed w).abandonFor cap q.tag).takePending k w.tag)
    rw [effect] at grant ends
    obtain ⟨abandoned, clip, id, id', x, results⟩ := State.wordAbandons acts ends
    exact ⟨_, id, id', x, grant, abandoned, clip, results⟩
  · subst same
    have effect := WriteAct.decideWord_refused (w := w) (p := s.placed w) ready idle
    have taken : (s.placed w).Records ((s.placed w).takeRequest none w.tag) (s.takenCpm w none false) :=
      ⟨rfl, rfl, .refl _, rfl⟩
    rw [effect] at grant
    exact ⟨_, grant, State.answered taken (Nat.le_refl _) .badReq 0 _⟩
  · subst same
    have effect := WriteAct.decideWord_taken (w := w) (p := s.placed w) k ready idle
    have acts := requestDispatch_attends k w.tag ((s.placed w).takePending k w.tag)
    rw [effect] at grant ends
    obtain ⟨offered, x, request⟩ := Chip.takePending_dispatched acts ends
    exact ⟨_, _, x, grant, Nat.le_refl _, offered, request⟩

end Sys2Proof.Machine


/-! PROOFS. Every operation keeps each claimed slot at its segment's place (R46) and the record of a run in progress
(R105, R122): one lemma an operation, as `Chip.Cascade` has them. -/

namespace Sys2Proof.Machine

-- One proof after another: the threads of many at once take more memory than the check allows.
set_option Elab.async false

/-! ## What an action keeps -/

/-- b comes from a by actions that keep every claimed slot at its segment's place and the run recorded. -/
structure Chip.Sound (a b : Chip) : Prop where
  slots : SlotsPlaced a → SlotsPlaced b
  run : RunRecorded a → RunRecorded b

/-- Slot record y holds the claim of x, or none. -/
def KeepsClaim (x y : Slot) : Prop := y.claimed = true → x.claimed = true ∧ y.segment = x.segment

theorem KeepsClaim.same {x y : Slot} (claimed : y.claimed = x.claimed := by rfl)
    (segment : y.segment = x.segment := by rfl) : KeepsClaim x y := fun h => ⟨claimed ▸ h, segment⟩

theorem KeepsClaim.of_slots {p q : Chip} (same : q.slots = p.slots) (i : Fin 128) :
    KeepsClaim (p.slot i) (q.slot i) := by
  unfold Chip.slot
  rw [same]
  exact .same

namespace Chip.Sound

variable {a p q : Chip}

theorem refl (p : Chip) : p.Sound p := ⟨id, id⟩

theorem trans (h : a.Sound p) (k : p.Sound q) : a.Sound q := ⟨k.slots ∘ h.slots, k.run ∘ h.run⟩

/-- An update of neither a slot nor the run nor the part state. -/
theorem still (h : a.Sound p) (slots : q.slots = p.slots := by rfl) (rc : q.rc = p.rc := by rfl)
    (partState : q.cpm.partState = p.cpm.partState := by rfl) : a.Sound q := by
  refine h.trans ⟨fun k i => ?_, fun k => ?_⟩
  · unfold Chip.slot
    rw [slots]
    exact k i
  · unfold RunRecorded
    rw [rc, partState]
    exact k

/-- Inner work keeps the run recorded. -/
theorem cascade (h : a.Sound p) (k : p.Cascade q) (keeps : ∀ i, KeepsClaim (p.slot i) (q.slot i)) : a.Sound q := by
  refine h.trans ⟨fun placed i claimed => ?_, fun recorded => ⟨fun running => ?_, fun off => ?_⟩⟩
  · obtain ⟨held, segment⟩ := keeps i claimed
    exact segment ▸ placed i held
  · obtain idle | ⟨state, record⟩ := k.run
    · exact absurd idle running
    · exact record ▸ recorded.1 (state ▸ running)
  · obtain idle | ⟨state, _⟩ := k.run
    · exact idle
    · exact state.trans (recorded.2 (k.partState ▸ off))

theorem reports (h : a.Sound p) (k : p.Reports q) : a.Sound q := h.still k.slots k.rc k.partState

theorem foldl {α : Type} {f : Chip → α → Chip} (hf : ∀ q x, a.Sound q → a.Sound (f q x)) (l : List α)
    (h : a.Sound p) : a.Sound (l.foldl f p) :=
  List.foldlRecOn l f h fun q hq x _ => hf q x hq

end Chip.Sound

/-- Two claimed slots hold different segments (R46). -/
theorem SlotsPlaced.injective {p : Chip} (placed : SlotsPlaced p) {i j : Fin 128} (hi : (p.slot i).claimed = true)
    (hj : (p.slot j).claimed = true) (same : (p.slot i).segment = (p.slot j).segment) : i = j := by
  rw [← placed i hi, ← placed j hj, same]

section

variable {a p : Chip}

/-! ## Slots and the run record -/

theorem Chip.setSlot_sound {i : Fin 128} {x : Slot} (placed : x.claimed = true → slotOf x.segment = i)
    (h : a.Sound p) : a.Sound (p.setSlot i x) := by
  refine h.trans ⟨fun k j claimed => ?_, id⟩
  by_cases other : j = i
  · subst other
    rw [Chip.slot_setSlot_same] at claimed ⊢
    exact placed claimed
  · rw [Chip.slot_setSlot_other x p other] at claimed ⊢
    exact k j claimed

theorem Chip.setSlot_sound_keeps {i : Fin 128} {x : Slot} (keeps : KeepsClaim (p.slot i) x) (h : a.Sound p) :
    a.Sound (p.setSlot i x) := by
  refine h.trans ⟨fun k => (Chip.setSlot_sound (fun claimed => ?_) (.refl p)).slots k, id⟩
  obtain ⟨held, segment⟩ := keeps claimed
  exact segment ▸ k i held

theorem Chip.modSlot_sound {i : Fin 128} {f : Slot → Slot} (keeps : ∀ x, KeepsClaim x (f x)) (h : a.Sound p) :
    a.Sound (p.modSlot i f) := Chip.setSlot_sound_keeps (keeps _) h

theorem Chip.modRun_sound (f : RunRecord → RunRecord) (h : a.Sound p) : a.Sound (p.modRun f) :=
  h.cascade (Chip.modRun_cascade f (.refl p)) fun _ => .same

theorem Chip.moveWindow_sound (h : a.Sound p) : a.Sound p.moveWindow := Chip.modRun_sound _ h

theorem Chip.settle_sound (h : a.Sound p) : a.Sound p.settle := Chip.modRun_sound _ h

theorem Chip.countOmit_sound (h : a.Sound p) : a.Sound p.countOmit := Chip.modRun_sound _ h

/-! ## Requests, reports and results -/

theorem Chip.report_sound (o : ReqOutcome) (d : Nat) (h : a.Sound p) : a.Sound (p.report o d) := by
  have records := Chip.report_records o d p
  obtain ⟨slots, -, -, rc, -⟩ := records.tape
  exact h.still slots rc (by rw [records.cpm])

theorem Chip.handOmit_sound (segment : Nat) (h : a.Sound p) : a.Sound (p.handOmit segment) := by
  unfold Chip.handOmit
  split
  · exact h.still
  · exact h

theorem Chip.endWait_sound (w : Wait) (h : a.Sound p) : a.Sound (p.endWait w) := by
  have around := Chip.endWait_around w p
  obtain ⟨slots, -, -, rc, -⟩ := around.tape
  exact h.still slots rc (by rw [around.cpm])

/-! ## Inner work that moves no claim -/

/-- Inner work on the slots of S alone, which keeps their claims. -/
theorem Chip.Sound.works {S : Fin 128 → Prop} {b : Chip} (h : a.Sound p) (k : p.Cascade b)
    (works : p.Works S .underrun b) (keeps : ∀ i, S i → KeepsClaim (p.slot i) (b.slot i)) : a.Sound b := by
  refine h.cascade k fun i => ?_
  by_cases on : S i
  · exact keeps i on
  · rw [works.slots i on]
    exact .same

/-- Inner work on no slot. -/
theorem Chip.Sound.worksOnNone {b : Chip} (h : a.Sound p) (k : p.Cascade b) (works : p.Works noSlot .underrun b) :
    a.Sound b := h.works k works fun _ => False.elim

theorem Chip.voidDecode_sound (i : Fin 128) (h : a.Sound p) : a.Sound (p.voidDecode i) :=
  h.worksOnNone (Chip.voidDecode_cascade i (.refl p)) (Chip.voidDecode_works i (.refl ..))

theorem Chip.voidLoad_sound (i : Fin 128) (h : a.Sound p) : a.Sound (p.voidLoad i) :=
  h.worksOnNone (Chip.voidLoad_cascade i (.refl p)) (Chip.voidLoad_works i (.refl ..))

theorem Chip.withdrawFetch_sound (h : a.Sound p) : a.Sound p.withdrawFetch :=
  h.worksOnNone (Chip.withdrawFetch_cascade (.refl p)) (Chip.withdrawFetch_works (.refl ..))

theorem Chip.withdrawFetchOf_sound (i : Fin 128) (h : a.Sound p) : a.Sound (p.withdrawFetchOf i) :=
  h.worksOnNone (Chip.withdrawFetchOf_cascade i (.refl p)) (Chip.withdrawFetchOf_works i (.refl ..))

theorem Chip.offerFetch_sound (h : a.Sound p) : a.Sound p.offerFetch :=
  h.worksOnNone (Chip.offerFetch_cascade (.refl p)) (Chip.offerFetch_works (.refl ..))

theorem Chip.secureWords_sound (n : Nat) (h : a.Sound p) : a.Sound (p.secureWords n) :=
  h.worksOnNone (Chip.secureWords_cascade n (.refl p)) (Chip.secureWords_works n (.refl ..))

theorem Chip.popEntry_sound (h : a.Sound p) : a.Sound p.popEntry :=
  h.worksOnNone (Chip.popEntry_cascade (.refl p)) (Chip.popEntry_works (.refl ..))

theorem Chip.endEcu_sound (r : RunRecord) (cause : EndCause) (h : a.Sound p) : a.Sound (p.endEcu r cause) :=
  h.worksOnNone (Chip.endEcu_cascade r cause (.refl p)) (Chip.endEcu_works r cause (.refl ..))

theorem Chip.decodeAdvance_sound (j : DecodeJob) (h : a.Sound p) : a.Sound (p.decodeAdvance j) :=
  h.worksOnNone (Chip.decodeAdvance_cascade j (.refl p)) (Chip.decodeAdvance_works j (.refl ..))

theorem Chip.leaveQueue_sound (w : PostedWrite) (h : a.Sound p) : a.Sound (p.leaveQueue w) := by
  have popped : a.Sound p.popHead := h.still
  have waits {b q : Chip} (k : b.AroundWaits q) (hb : a.Sound b) : a.Sound q := by
    obtain ⟨slots, -, -, rc, -⟩ := k.tape
    exact hb.still slots rc (by rw [k.cpm])
  obtain around | ⟨q, around, eq⟩ := Chip.leaveQueue_around w p
  · exact waits around popped
  · rw [eq]
    exact (waits around popped).still

theorem Chip.voidCode_sound (i : Fin 128) (h : a.Sound p) : a.Sound (p.voidCode i) := by
  unfold Chip.voidCode
  dsimp only
  split
  · split
    · split
      · split
        · exact h.still
        · exact h.still
      · exact h.still
    · exact h.still
  · exact h.still

theorem Chip.voidSave_sound (i : Fin 128) (h : a.Sound p) : a.Sound (p.voidSave i) := by
  refine h.works (Chip.voidSave_cascade i (.refl p)) (Chip.voidSave_works (S := (· = i)) rfl (.refl ..)) ?_
  rintro j rfl
  rw [Chip.voidSave_eq, Chip.slot_modSlot_same, (Chip.dropSaves_works j (.refl noSlot .underrun p)).slots j id,
    Slot.saveVoided_eq]
  exact .same

theorem Chip.queueDecode_sound (i : Fin 128) (h : a.Sound p) : a.Sound (p.queueDecode i) :=
  .still (p := p.setSlot i { p.slot i with play := .checking }) (Chip.setSlot_sound_keeps .same h)

theorem Chip.giveUpPlay_sound (i : Fin 128) (h : a.Sound p) : a.Sound (p.giveUpPlay i) := by
  unfold Chip.giveUpPlay
  split
  · exact Chip.queueDecode_sound i h
  · exact h

theorem Chip.queueTest_sound (i : Fin 128) (h : a.Sound p) : a.Sound (p.queueTest i) :=
  h.cascade (Chip.queueTest_cascade i (.refl p)) (.of_slots (Chip.queueTest_slots i p))

/-! ## The slot table (R49, R50, R59) -/

theorem Chip.releaseSlot_sound (i : Fin 128) (h : a.Sound p) : a.Sound (p.releaseSlot i) := by
  unfold Chip.releaseSlot
  refine Chip.modSlot_sound (fun _ claimed => ?_) (Chip.withdrawFetchOf_sound i (Chip.voidLoad_sound i
    (Chip.voidSave_sound i (Chip.voidCode_sound i (Chip.voidDecode_sound i h)))))
  cases claimed

theorem Chip.release_sound (i : Fin 128) (h : a.Sound p) : a.Sound (p.release i) :=
  Chip.moveWindow_sound (Chip.releaseSlot_sound i h)

theorem Chip.releaseTest_sound (i : Fin 128) (h : a.Sound p) : a.Sound (p.releaseTest i) := by
  unfold Chip.releaseTest
  split
  · exact Chip.release_sound i h
  · exact h

theorem Chip.releaseAll_sound (h : a.Sound p) : a.Sound p.releaseAll := by
  rw [Chip.releaseAll_eq]
  refine .foldl (fun q i hq => ?_) _ (.foldl (fun q i hq => ?_) _ h)
  · unfold Chip.clearOverrun
    split
    · exact Chip.modSlot_sound (fun _ => .same) hq
    · exact hq
  · unfold Chip.releaseClaim
    split
    · exact Chip.releaseSlot_sound i hq
    · exact hq

theorem Chip.discardWrite_sound (i : Fin 128) (h : a.Sound p) : a.Sound (p.discardWrite i) := by
  unfold Chip.discardWrite
  exact Chip.modSlot_sound (fun _ => .same) (Chip.withdrawFetchOf_sound i (Chip.voidLoad_sound i
    (Chip.voidSave_sound i (Chip.voidCode_sound i h))))

theorem Chip.setAside_sound (i : Fin 128) (h : a.Sound p) : a.Sound (p.setAside i) :=
  Chip.settle_sound (Chip.modSlot_sound (fun _ => .same) (Chip.voidSave_sound i h))

theorem Chip.closeByDue_sound (i : Fin 128) (h : a.Sound p) : a.Sound (p.closeByDue i) :=
  Chip.queueTest_sound i (Chip.modSlot_sound (i := i) (f := fun s => { s with
    write := .closed
    underrunCount := s.underrunCount + p.unwritten i
    material := if p.runKind == some .record && (p.slot i).written == 0 then .fill else s.material })
    (fun _ => .same) h).still

theorem Chip.consume_sound (segment : Nat) (h : a.Sound p) : a.Sound (p.consume segment) := by
  unfold Chip.consume
  dsimp only
  split
  · exact Chip.releaseTest_sound _ (Chip.modSlot_sound (fun _ => .same) h)
  · exact h

theorem Chip.unpin_sound (i : Fin 128) (h : a.Sound p) : a.Sound (p.unpin i) :=
  Chip.releaseTest_sound i (Chip.modSlot_sound (fun _ => .same) h)

theorem Chip.writeDone_sound (i : Fin 128) (h : a.Sound p) : a.Sound (p.writeDone i) := by
  refine Chip.releaseTest_sound i ?_
  have counted : a.Sound ((p.modSlot i fun s => { s with write := .done }).modRun
      fun r => { r with doneCount := r.doneCount + 1 }) :=
    Chip.modRun_sound _ (Chip.modSlot_sound (fun _ => .same) h)
  split
  · exact Chip.settle_sound counted
  · exact Chip.settle_sound counted
  · exact counted

theorem Chip.rowAcked_sound (e : Retained) (h : a.Sound p) : a.Sound (p.rowAcked e) := by
  unfold Chip.rowAcked
  dsimp only
  split
  · have acked : a.Sound (p.modSlot e.slot fun s =>
        { s with rowsAcked := (p.slot e.slot).rowsAcked ||| BitVec.ofNat 30 (2 ^ e.row) }) :=
      Chip.modSlot_sound (fun _ => .same) h
    split
    · exact Chip.writeDone_sound e.slot acked
    · exact acked
  · exact h

/-! ## Claims (R48) -/

theorem Chip.claimPassed_sound (r : RunRecord) (i : Fin 128) (h : a.Sound p) : a.Sound (p.claimPassed r i) := by
  unfold Chip.claimPassed
  dsimp only
  split
  · exact h
  · exact Chip.closeByDue_sound i h
  · split
    · exact h
    · exact Chip.settle_sound (Chip.discardWrite_sound i ((Chip.handOmit_sound _ h).reports (Chip.raise_reports _ _)))
  · split
    · exact h
    · exact Chip.release_sound i (Chip.settle_sound (Chip.handOmit_sound _ (Chip.discardWrite_sound i h)))

theorem Chip.beginLoadOf_sound (i : Fin 128) (h : a.Sound p) : a.Sound (p.beginLoadOf i) := by
  unfold Chip.beginLoadOf
  dsimp only
  split
  · exact h.still
  · exact h

/-- A claim puts the segment at a position into its own slot. -/
theorem Chip.claim_sound (q : Nat) (h : a.Sound p) : a.Sound (p.claim q) := by
  unfold Chip.claim
  split
  · exact h
  · rename_i r _
    dsimp only
    split
    · exact h
    · unfold Chip.claimSlot
      dsimp only
      have set : a.Sound (p.setSlot (slotOf (r.segmentAt q))
          (p.claimedSlot r q (p.slot (slotOf (r.segmentAt q))))) := Chip.setSlot_sound (fun _ => rfl) h
      generalize p.setSlot (slotOf (r.segmentAt q)) (p.claimedSlot r q (p.slot (slotOf (r.segmentAt q)))) = b at set ⊢
      have queued : a.Sound (if (b.slot (slotOf (r.segmentAt q))).allIn then b.queueDecode (slotOf (r.segmentAt q))
          else b) := by
        split
        · exact Chip.queueDecode_sound _ set
        · exact set
      split
      · exact Chip.claimPassed_sound r _ queued
      · exact Chip.beginLoadOf_sound _ queued

/-! ## The cursor and what follows an event (R48, R89, R120) -/

theorem Chip.passCursor_sound (r : RunRecord) (h : a.Sound p) : a.Sound (p.passCursor r) := by
  unfold Chip.passCursor
  dsimp only
  split
  · exact Chip.release_sound _ h.still
  · exact h.still

theorem Chip.cursorStep_sound {q : Chip} (moved : p.cursorStep = some q) (h : a.Sound p) : a.Sound q := by
  unfold Chip.cursorStep at moved
  split at moved
  · cases moved
  · split at moved
    · cases moved
      exact Chip.passCursor_sound _ h
    · cases moved

theorem progressLoop_sound (n : Nat) (h : a.Sound p) : a.Sound (progressLoop n p) := by
  induction n generalizing p with
  | zero => exact h
  | succ n ih =>
    unfold progressLoop
    split
    · rename_i moved
      exact ih (Chip.cursorStep_sound moved h)
    · split
      · exact ih (Chip.claim_sound _ h)
      · exact h

theorem Chip.progress_sound (h : a.Sound p) : a.Sound p.progress := by
  unfold Chip.progress
  split
  · exact h
  · exact progressLoop_sound _ h

/-! ### Mode values applied (R20, R27, R28) -/

theorem Chip.dropCapture_sound (c : Capture) (h : a.Sound p) : a.Sound (p.dropCapture c) := by
  rw [Chip.dropCapture_eq, Chip.quitCapture_eq]
  refine Chip.Sound.still (.foldl (fun q i hq => Chip.unpin_sound i hq) _ ?_)
  split
  · exact h.still
  · exact h.still

theorem Chip.mapCleared_sound (h : a.Sound p) : a.Sound p.mapCleared := by
  rw [Chip.mapCleared_released]
  have ended : a.Sound p.endCaptureForMap := by
    unfold Chip.endCaptureForMap
    split
    · exact Chip.report_sound _ _ (Chip.dropCapture_sound _ h)
    · exact h
  have freed := (Chip.releaseAll_sound ended).cascade (Chip.endReadEvals_cascade (.refl _))
    (.of_slots (Chip.endReadEvals_slots _))
  generalize (p.endCaptureForMap.releaseAll).endReadEvals = q at freed ⊢
  exact freed.still

/-- A MODE_MAP application drops the run record of an IDLE run. -/
theorem Chip.applyMap_sound (m : ModeMap) (idle : RunRecorded p → p.rc.state = .idle) (h : a.Sound p) :
    a.Sound (p.applyMap m) := by
  have cleared := Chip.mapCleared_sound (.refl p)
  have state : p.mapCleared.rc.state = p.rc.state := (Chip.mapCleared_abandons p).2.1
  rw [Chip.applyMap_eq]
  refine h.trans (.reports (p := p.mapCleared.setMap m) ⟨cleared.slots, fun recorded => ?_⟩
    (Chip.dirtyRunWords_reports _))
  have stays : (p.mapCleared.setMap m).rc.state = .idle := state.trans (idle recorded)
  exact ⟨fun running => absurd stays running, fun _ => stays⟩

/-- The part with no mode value pending. -/
def Chip.clearPending (p : Chip) : Chip :=
  { p with cpm := { p.cpm with pendingMap := none, pendingSignal := none, pendingLink := none, pendingEdit := none } }

theorem Chip.applyHeld_sound {α : Type} (held : Option α) {apply : α → Chip → Chip}
    (applied : ∀ m, a.Sound (apply m p)) (h : a.Sound p) : a.Sound (p.applyHeld held apply) := by
  unfold Chip.applyHeld
  split
  · exact applied _
  · exact h

theorem Chip.applyPending_sound (idle : p.rc.state = .idle) (h : a.Sound p) : a.Sound p.applyPending := by
  have cleared : a.Sound p.clearPending := h.still
  have map := Chip.applyHeld_sound (p := p.clearPending) p.cpm.pendingMap
    (fun m => Chip.applyMap_sound m (fun _ => idle) cleared) cleared
  have signal := Chip.applyHeld_sound p.cpm.pendingSignal (apply := Chip.applySignal) (fun _ => map.still) map
  have link := Chip.applyHeld_sound p.cpm.pendingLink (apply := Chip.applyLink) (fun _ => signal.still) signal
  exact Chip.applyHeld_sound p.cpm.pendingEdit (apply := Chip.applyEdit) (fun _ => link.still) link

/-! ### The end of a run (R120) -/

theorem Chip.enterIdle_sound (cause : EndCause) (h : a.Sound p) : a.Sound (p.enterIdle cause) := by
  unfold Chip.enterIdle
  split
  · exact h
  · rename_i r _
    dsimp only
    have idle : p.Sound { p with rc := ⟨.idle, some { r with endCause := cause, drainTimer := none }⟩ } :=
      ⟨id, fun _ => ⟨fun running => absurd rfl running, fun _ => rfl⟩⟩
    have told := Chip.endEcu_sound r cause (h.trans idle)
    have works := Chip.endEcu_cascade r cause (.refl
      { p with rc := ⟨.idle, some { r with endCause := cause, drainTimer := none }⟩ })
    have state : (Chip.endEcu r cause
        { p with rc := ⟨.idle, some { r with endCause := cause, drainTimer := none }⟩ }).rc.state = .idle :=
      works.run.elim id fun x => x.1
    generalize Chip.endEcu r cause
      { p with rc := ⟨.idle, some { r with endCause := cause, drainTimer := none }⟩ } = q at told state
    have reports := (Chip.raise_reports (.runEnd r.tag cause r.kind (r.pops cause)) q).trans (Chip.noteStatus_reports _)
    have applied := Chip.applyPending_sound (by rw [reports.rc, state]) (told.reports reports)
    unfold Chip.answerStop
    split
    · split
      · exact Chip.report_sound _ _ applied
      · exact applied
    · exact applied

theorem Chip.checkEnd_sound (h : a.Sound p) : a.Sound p.checkEnd := by
  unfold Chip.checkEnd
  split
  · exact h
  · split
    · exact h
    · split
      · exact Chip.enterIdle_sound _ h
      · exact h
    · split
      · exact Chip.enterIdle_sound _ h
      · exact h

theorem Chip.noteStatus_sound (h : a.Sound p) : a.Sound p.noteStatus := h.reports (Chip.noteStatus_reports p)

theorem Chip.raise_sound (n : Notice) (h : a.Sound p) : a.Sound (p.raise n) := h.reports (Chip.raise_reports n p)

theorem Chip.finish_sound (h : a.Sound p) : a.Sound p.finish :=
  Chip.noteStatus_sound (Chip.offerFetch_sound (Chip.checkEnd_sound (Chip.progress_sound h)))

/-! ### Drains and aborts (R115 to R118, R121) -/

theorem Chip.drainWrite_sound (i : Fin 128) (h : a.Sound p) : a.Sound (p.drainWrite i) := by
  have omitted := Chip.countOmit_sound (Chip.handOmit_sound (p.slot i).segment (Chip.discardWrite_sound i h))
  unfold Chip.drainWrite
  dsimp only
  split
  · exact omitted
  · exact omitted
  · exact omitted
  · exact omitted
  · exact h
  · exact h
  · exact h

theorem Chip.testReleases_sound (l : List (Fin 128)) (h : a.Sound p) : a.Sound (p.testReleases l) :=
  .foldl (fun _ i hq => Chip.releaseTest_sound i hq) l h

/-- A drain goes on with the record of the run. -/
theorem Chip.startDrain_sound (active : p.rc.state = .active) (h : a.Sound p) : a.Sound p.startDrain := by
  unfold Chip.startDrain
  refine Chip.testReleases_sound _ (.foldl (fun _ i hq => Chip.giveUpPlay_sound i hq) _
    (.foldl (fun _ i hq => Chip.drainWrite_sound i hq) _ (Chip.modRun_sound _ (h.trans ⟨id, fun recorded => ?_⟩))))
  have running : p.rc.state ≠ .idle := by rw [active]; decide
  exact ⟨fun _ => recorded.1 running, fun off => absurd (recorded.2 off) running⟩

theorem Chip.abandonRows_sound (h : a.Sound p) : a.Sound p.abandonRows :=
  .still (p := p.dlc.retention.foldl (fun p e => p.unhandRow e.seq) p)
    (.foldl (fun q e hq => .still (p := q) hq) _ h)

theorem Chip.giveUp_sound (h : a.Sound p) : a.Sound p.giveUp := by
  unfold Chip.giveUp
  dsimp only
  split
  · exact h
  · refine Chip.testReleases_sound _ (.foldl (fun _ i hq => Chip.discardWrite_sound i hq) _ (Chip.Sound.still
      (Chip.withdrawFetch_sound (Chip.abandonRows_sound (.foldl (fun q i hq => ?_) _ h)))))
    split
    · exact Chip.countOmit_sound (Chip.handOmit_sound _ hq)
    · exact hq

theorem Chip.abort_sound (h : a.Sound p) : a.Sound p.abort := by
  unfold Chip.abort
  split
  · exact h
  · refine Chip.enterIdle_sound _ (.foldl (fun q i hq => ?_) _ (.foldl (fun _ i hq => Chip.giveUpPlay_sound i hq) _
      (.foldl (fun q i hq => ?_) _ h)))
    · unfold Chip.abortRelease
      dsimp only
      split
      · exact Chip.release_sound i hq
      · exact Chip.releaseTest_sound i hq
    · split
      · exact hq
      · exact Chip.discardWrite_sound i hq

/-! ### The link (R84 to R88, R91) -/

theorem Chip.openLink_sound (request : Bool) (h : a.Sound p) : a.Sound (p.openLink request) := by
  unfold Chip.openLink
  dsimp only
  split
  · exact h.still
  · exact h.still

theorem Chip.withdrawLink_sound (h : a.Sound p) : a.Sound p.withdrawLink := by
  unfold Chip.withdrawLink
  dsimp only
  split
  · exact Chip.withdrawFetch_sound h
  · exact Chip.withdrawFetch_sound h.still

theorem Chip.clearLink_sound (request : Bool) (h : a.Sound p) : a.Sound (p.clearLink request) :=
  Chip.raise_sound _ (.still (p := p.abort.withdrawLink) (Chip.withdrawLink_sound (Chip.abort_sound h)))

theorem Chip.failLink_sound (h : a.Sound p) : a.Sound p.failLink :=
  Chip.raise_sound _ (.still (p := p.abort.withdrawLink) (Chip.withdrawLink_sound (Chip.abort_sound h)))

theorem Chip.acknowledge_sound (n : Nat) (h : a.Sound p) : a.Sound (p.acknowledge n) := by
  unfold Chip.acknowledge
  refine .foldl (fun q e hq => ?_) _ (.foldl (fun q e hq => .still (p := q) hq) _ h.still)
  split
  · exact Chip.rowAcked_sound e hq
  · exact hq

theorem Chip.takeGrant_sound (next : BitVec 3) (credits : Nat) (h : a.Sound p) :
    a.Sound (p.takeGrant next credits) := by
  unfold Chip.takeGrant
  dsimp only
  split
  · exact Chip.acknowledge_sound _ h.still
  · exact h.still

theorem Chip.resend_sound (r : Retained) (h : a.Sound p) : a.Sound (p.resend r) := by
  unfold Chip.resend
  split
  · exact h
  · split
    · exact h
    · exact h.still

theorem Chip.ackExpired_sound (h : a.Sound p) : a.Sound p.ackExpired := by
  unfold Chip.ackExpired
  split
  · exact Chip.failLink_sound h
  · exact .foldl (fun q e hq => Chip.resend_sound e hq) _ h.still

/-! ### DUE (R113, R142, R170) -/

theorem Chip.dueClaimed_sound (kind : RunKind) (i : Fin 128) (h : a.Sound p) : a.Sound (p.dueClaimed kind i) := by
  have broken : a.Sound (p.breakEdit i) := Chip.releaseTest_sound i (Chip.settle_sound (Chip.raise_sound _
    (Chip.discardWrite_sound i (Chip.handOmit_sound _ h))))
  cases kind with
  | play => exact h
  | record =>
    show a.Sound (p.dueRecord i)
    unfold Chip.dueRecord
    split
    · exact Chip.closeByDue_sound i h
    · exact h
  | edit =>
    show a.Sound (p.dueEdit i)
    unfold Chip.dueEdit
    dsimp only
    split
    · exact Chip.handOmit_sound _ h
    · split
      · exact Chip.closeByDue_sound i h
      · exact broken
    · split
      · exact h
      · exact broken
    · exact h
    · exact h
    · exact h
    · exact h
  | revert =>
    show a.Sound (p.dueRevert i)
    unfold Chip.dueRevert
    split
    · exact Chip.handOmit_sound _ h
    · exact h

theorem Chip.takeDue_sound (segment : Nat) (h : a.Sound p) : a.Sound (p.takeDue segment) := by
  unfold Chip.takeDue
  split
  · exact h
  · split
    · refine Chip.finish_sound ?_
      split
      · exact Chip.raise_sound _ h
      · exact Chip.raise_sound _ h
      · exact Chip.modRun_sound _ (Chip.raise_sound _ h)
      · exact Chip.dueClaimed_sound _ _ h
    · exact h

end
end Sys2Proof.Machine


/-! PROOFS. Every step keeps each claimed slot at its segment's place, and the record of a run in progress (O9). -/

namespace Sys2Proof.Machine

-- One proof after another: the threads of many at once take more memory than the check allows.
set_option Elab.async false

section

variable {a p : Chip}

/-! ## Mode words (R23 to R28) -/

theorem Chip.enterReady_sound (h : a.Sound p) : a.Sound p.enterReady := by
  obtain ⟨held, eq⟩ := Chip.enterReady_eq p
  have readied : a.Sound { p.readied with cpm := { p.readied.cpm with statusHeld := held } } :=
    h.trans ⟨id, fun recorded => ⟨recorded.1, fun off => by cases off⟩⟩
  rw [eq]
  exact readied.reports (Chip.markDirty_reports _ _)

/-- A mode value is applied where the run is IDLE: UNCONFIGURED there is none in progress. -/
theorem Chip.takeMode_sound {apply hold : Chip → Chip} (mark : WrittenSet → WrittenSet)
    (applied : (RunRecorded p → p.rc.state = .idle) → a.Sound (apply p)) (held : a.Sound (hold p)) :
    a.Sound (p.takeMode apply hold mark) := by
  unfold Chip.takeMode
  dsimp only
  split
  · rename_i off
    have marked : a.Sound { apply p with cpm := { (apply p).cpm with writtenSet := mark (apply p).cpm.writtenSet } } :=
      (applied fun recorded => recorded.2 off).still
    split
    · exact Chip.enterReady_sound marked
    · exact marked
  · split
    · rename_i idle
      exact applied fun _ => idle
    · exact held

theorem Chip.noteClamp_sound (mode marks : Nat) (h : a.Sound p) : a.Sound (p.noteClamp mode marks) :=
  h.reports (Chip.noteClamp_reports mode marks p)

theorem Chip.writeMap_sound (w : PostedWrite) (h : a.Sound p) : a.Sound (p.writeMap w) := by
  unfold Chip.writeMap
  dsimp only
  split
  · exact Chip.raise_sound _ h
  · have noted := Chip.noteClamp_sound 0 (p.cpm.clampMarks 0 mapRanges) h
    exact Chip.takeMode_sound _ (fun idle => Chip.applyMap_sound _ idle noted) noted.still

theorem Chip.writeSignal_sound (h : a.Sound p) : a.Sound p.writeSignal := by
  have noted := Chip.noteClamp_sound 1 (p.cpm.clampMarks 1 signalRanges) h
  unfold Chip.writeSignal
  dsimp only
  generalize p.noteClamp 1 (p.cpm.clampMarks 1 signalRanges) = q at noted ⊢
  refine Chip.takeMode_sound _ (fun _ => ?_) (noted.still)
  unfold Chip.applySignal
  exact noted.still

theorem Chip.writeLink_sound (h : a.Sound p) : a.Sound p.writeLink := by
  have noted := Chip.noteClamp_sound 2 (p.cpm.clampMarks 2 linkRanges) h
  unfold Chip.writeLink
  dsimp only
  generalize p.noteClamp 2 (p.cpm.clampMarks 2 linkRanges) = q at noted ⊢
  refine Chip.takeMode_sound _ (fun _ => ?_) (noted.still)
  unfold Chip.applyLink
  exact noted.still

theorem Chip.writeEdit_sound (h : a.Sound p) : a.Sound p.writeEdit := by
  have noted := Chip.noteClamp_sound 3 (p.cpm.clampMarks 3 editRanges) h
  unfold Chip.writeEdit
  dsimp only
  generalize p.noteClamp 3 (p.cpm.clampMarks 3 editRanges) = q at noted ⊢
  refine Chip.takeMode_sound _ (fun _ => ?_) (noted.still)
  unfold Chip.applyEdit
  exact noted.still

theorem Chip.writeConsume_sound (v : Nat) (h : a.Sound p) : a.Sound (p.writeConsume v) := by
  rw [Chip.writeConsume_eq]
  split
  · exact h
  · split
    · exact Chip.finish_sound (.foldl (fun q k hq => Chip.consume_sound _ hq) _ h.still)
    · exact h.still

theorem Chip.writeInput_sound (initiator : Fin 8) (w : Word) (h : a.Sound p) : a.Sound (p.writeInput initiator w) := by
  unfold Chip.writeInput
  split
  · exact h
  · split
    · exact h.still
    · exact h

theorem Chip.writeReadIndex_sound (v : Nat) (h : a.Sound p) : a.Sound (p.writeReadIndex v) := by
  unfold Chip.writeReadIndex
  split
  · exact h.still
  · exact h

/-! ## Run starts (R107) -/

/-- A new run of a READY part has its record. -/
theorem Chip.withRun_sound (r : RunRecord) (ready : p.cpm.partState = .ready) (h : a.Sound p) :
    a.Sound (p.withRun r) :=
  h.trans ⟨id, fun _ => ⟨fun _ => rfl, fun off => absurd (ready.symm.trans off) (by decide)⟩⟩

theorem Chip.releaseReads_sound (h : a.Sound p) : a.Sound p.releaseReads := by
  rw [Chip.releaseReads_eq, Chip.foldl_releaseRead_rest]
  exact h.still

theorem Chip.endReadEvals_sound (h : a.Sound p) : a.Sound p.endReadEvals :=
  h.cascade (Chip.endReadEvals_cascade (.refl p)) (.of_slots (Chip.endReadEvals_slots p))

theorem Chip.startEdit_sound (r : RunRecord) (h : a.Sound p) : a.Sound (p.startEdit r) := by
  unfold Chip.startEdit
  split
  · dsimp only
    split
    · exact h.still
    · exact h.still
  · exact h

theorem Chip.startRun_sound (r : RunRecord) (ready : p.cpm.partState = .ready) (h : a.Sound p) :
    a.Sound (p.startRun r) := by
  have released : a.Sound (p.releaseAll.endReadEvals).releaseReads :=
    Chip.releaseReads_sound (Chip.endReadEvals_sound (Chip.releaseAll_sound h))
  have stays : ((p.releaseAll.endReadEvals).releaseReads).cpm.partState = .ready :=
    (Chip.releaseReads_cascade (Chip.endReadEvals_cascade (Chip.releaseAll_cascade (.refl p)))).partState.trans ready
  unfold Chip.startRun
  generalize (p.releaseAll.endReadEvals).releaseReads = q at released stays ⊢
  dsimp only
  refine Chip.finish_sound (Chip.report_sound _ _ (.reports (.foldl (fun _ k hq => Chip.claim_sound k hq) _
    (.foldl (fun q i hq => Chip.modSlot_sound (fun _ => .same) hq) _ (Chip.startEdit_sound r ?_)))
    (Chip.dirtyRunWords_reports _)))
  exact Chip.withRun_sound r stays released

theorem Chip.startChecked_sound {range : Option (Int × Int)} {act : Chip → Chip} (acted : a.Sound (act p))
    (h : a.Sound p) : a.Sound (p.startChecked range act) := by
  unfold Chip.startChecked
  dsimp only
  have tested (outside : Bool) : a.Sound (if p.rc.state ≠ .idle then p.report .busy 0
      else if outside then p.report .range 0
      else if p.dlc.linkState ≠ .up then p.report .noLink p.dlc.linkState.code else act p) := by
    split
    · exact Chip.report_sound _ _ h
    · split
      · exact Chip.report_sound _ _ h
      · split
        · exact Chip.report_sound _ _ h
        · exact acted
  exact tested _

theorem Chip.startPlay_sound (tag : Nat) (ready : p.cpm.partState = .ready) (h : a.Sound p) :
    a.Sound (p.startPlay tag) := by
  unfold Chip.startPlay
  refine Chip.startChecked_sound ?_ h
  split
  · exact Chip.report_sound _ _ h
  · exact Chip.startRun_sound _ ready h

theorem Chip.startRecord_sound (tag : Nat) (ready : p.cpm.partState = .ready) (h : a.Sound p) :
    a.Sound (p.startRecord tag) := by
  unfold Chip.startRecord
  exact Chip.startChecked_sound (Chip.startRun_sound _ ready h) h

theorem Chip.startEditRun_sound (tag : Nat) (ready : p.cpm.partState = .ready) (h : a.Sound p) :
    a.Sound (p.startEditRun tag) := by
  unfold Chip.startEditRun
  refine Chip.startChecked_sound ?_ h
  split
  · exact Chip.report_sound _ _ h
  · exact Chip.startRun_sound _ ready h

theorem Chip.startRevert_sound (tag : Nat) (ready : p.cpm.partState = .ready) (h : a.Sound p) :
    a.Sound (p.startRevert tag) := by
  unfold Chip.startRevert
  refine Chip.startChecked_sound ?_ h
  split
  · exact Chip.report_sound _ _ h
  · split
    · exact Chip.report_sound _ _ h
    · split
      · exact Chip.report_sound _ _ (Chip.popEntry_sound h)
      · exact Chip.startRun_sound _ ready h

/-! ## Other requests (R29, R115, R150, R153, R157, R87) -/

theorem Chip.stopRun_sound (h : a.Sound p) : a.Sound p.stopRun := by
  unfold Chip.stopRun
  split
  · rename_i active
    exact Chip.finish_sound (Chip.startDrain_sound active h)
  · exact Chip.report_sound _ _ h

theorem Chip.captureClip_sound (h : a.Sound p) : a.Sound p.captureClip := by
  unfold Chip.captureClip
  dsimp only
  split
  · exact Chip.report_sound _ _ h
  · rw [Chip.beginCapture_eq]
    have pinned : a.Sound (p.pinRun (p.cpm.arg 0) (p.cpm.arg 1)) := by
      unfold Chip.pinRun
      exact .foldl (fun q g hq => Chip.modSlot_sound (fun _ => .same) hq) _ h
    rw [Chip.pinRun_eq] at pinned
    exact pinned.still

theorem Chip.dropClip_sound (h : a.Sound p) : a.Sound p.dropClip := by
  unfold Chip.dropClip
  dsimp only
  split
  · exact Chip.report_sound _ _ h
  · split
    · exact Chip.report_sound _ _ h
    · exact Chip.report_sound _ _ h.still

theorem Chip.markSegment_sound (h : a.Sound p) : a.Sound p.markSegment := by
  have refused (o : ReqOutcome) (d : Nat) : a.Sound (p.report o d) := Chip.report_sound o d h
  unfold Chip.markSegment
  dsimp only
  split
  · exact refused _ _
  · split
    · exact refused _ _
    · split
      · exact refused _ _
      · split
        · exact refused _ _
        · split
          · exact refused _ _
          · exact Chip.report_sound _ _ (Chip.setSlot_sound_keeps .same h)

theorem Chip.linkClearRequest_sound (h : a.Sound p) : a.Sound p.linkClearRequest := by
  unfold Chip.linkClearRequest
  refine Chip.report_sound _ _ (Chip.openLink_sound _ ?_)
  split
  · exact Chip.clearLink_sound _ h
  · exact Chip.clearLink_sound _ h
  · exact h
  · exact h

/-- What a request dispatches in a READY part. -/
theorem requestDispatch_sound (k : RequestKind) (tag : Nat) (ready : p.cpm.partState = .ready) (h : a.Sound p) :
    a.Sound (requestDispatch k tag p) :=
  match k with
  | .play => Chip.startPlay_sound tag ready h
  | .record => Chip.startRecord_sound tag ready h
  | .edit => Chip.startEditRun_sound tag ready h
  | .revert => Chip.startRevert_sound tag ready h
  | .stop => Chip.stopRun_sound h
  | .capture => Chip.captureClip_sound h
  | .dropClip => Chip.dropClip_sound h
  | .mark => Chip.markSegment_sound h
  | .linkClear => Chip.linkClearRequest_sound h

/-- A request word, decided in any part state. -/
theorem WriteAct.decideWord_sound {act : WriteAct} (word : act = .badRequest ∨ ∃ k, act = .request k)
    (w : PostedWrite) (h : a.Sound p) : a.Sound (act.decideWord w p) := by
  have ignored : a.Sound (p.ignoreRequest w.tag) := Chip.raise_sound _ h.still
  cases off : p.cpm.partState with
  | unconfigured =>
    rw [WriteAct.decideWord_unconfigured word off]
    exact h
  | ready =>
    cases pending : p.cpm.request with
    | none =>
      obtain rfl | ⟨k, rfl⟩ := word
      · rw [WriteAct.decideWord_refused off pending]
        exact Chip.report_sound _ _ h.still
      · rw [WriteAct.decideWord_taken k off pending]
        exact requestDispatch_sound k w.tag off h.still
    | some q =>
      by_cases abandons : act.Abandons p q
      · obtain ⟨k, rfl, takes, kind, unanswered, capturing⟩ := abandons
        obtain ⟨c, capturing⟩ := Option.isSome_iff_exists.mp capturing
        rw [WriteAct.decideWord_abandons off pending takes kind unanswered capturing]
        have partState := (Chip.abandonFor_cascade c q.tag (.refl p)).partState
        have abandoned : a.Sound (p.abandonFor c q.tag) :=
          Chip.finish_sound (.still (p := p.dropCapture c) (Chip.dropCapture_sound c h))
        exact requestDispatch_sound k w.tag (partState.trans off) abandoned.still
      · rw [WriteAct.decideWord_ignored word off pending abandons]
        exact ignored

/-! ## Bursts into the audio view (R7, R8, R173 to R176) -/

theorem Chip.refuse_sound (initiator : Fin 8) (i : Fin 128) (h : a.Sound p) : a.Sound (p.refuse initiator i) := by
  by_cases edit : p.runKind = some .edit
  · rw [Chip.refuse_edit edit]
    exact Chip.releaseTest_sound i (Chip.setAside_sound i (.still (p := p.raise _) (Chip.raise_sound _ h)))
  · rw [Chip.refuse_record edit]
    have filled : a.Sound (p.modSlot i Slot.filled) := Chip.modSlot_sound (fun _ => .same) h
    split
    · exact filled
    · exact .still (p := Chip.raise _ (p.modSlot i Slot.filled)) (Chip.raise_sound _ filled)

theorem Chip.closeIfComplete_sound (i : Fin 128) (h : a.Sound p) : a.Sound (p.closeIfComplete i) := by
  unfold Chip.closeIfComplete
  split
  · exact Chip.queueTest_sound i (Chip.modSlot_sound (i := i) (f := fun s => { s with write := .closed })
      (fun _ => .same) h)
  · exact h

theorem Chip.endBurst_sound (initiator : Fin 8) (i : Fin 128) (h : a.Sound p) : a.Sound (p.endBurst initiator i) := by
  have folded : a.Sound (p.foldBurst initiator i) := by
    rw [Chip.foldBurst_eq]
    exact Chip.modSlot_sound (fun _ => .same) h
  unfold Chip.endBurst
  dsimp only
  have judged : a.Sound (if (p.materialGrade initiator).isNone then (p.foldBurst initiator i).refuse initiator i
      else p.foldBurst initiator i) := by
    split
    · exact Chip.refuse_sound _ _ folded
    · exact folded
  exact Chip.closeIfComplete_sound i judged

theorem Chip.takeBurst_sound (w : PostedWrite) (place : ViewPlace) (h : a.Sound p) : a.Sound (p.takeBurst w place) := by
  have words : a.Sound (p.takeWords w place).1 := by
    rw [Chip.takeWords_eq]
    refine List.foldlRecOn (motive := fun acc : Chip × List (Nat × Word) => a.Sound acc.1) _ _ h
      fun acc hacc dk _ => ?_
    unfold Chip.takeWord
    split
    · rw [Chip.acceptWord_eq]
      have taken := Chip.modSlot_sound (i := (place.advance dk.2).slot)
        (f := Slot.withWord (place.advance dk.2) dk.1) (fun _ => .same) hacc
      exact taken.still
    · unfold Chip.strayWord
      dsimp only
      split
      · exact hacc.still
      · exact Chip.raise_sound _ hacc.still
  unfold Chip.takeBurst
  split
  · exact words
  · exact Chip.endBurst_sound _ _ words

/-! ## Evaluations and reads (R9, R13, R123) -/

theorem Chip.deliver_sound (asker : Asker) (v : Int) (h : a.Sound p) : a.Sound (p.deliver asker v) := by
  unfold Chip.deliver
  split
  · exact h.still
  · split
    · exact h.still
    · exact h
  · split
    · split
      · exact h.still
      · exact h
    · exact h
  · split
    · exact h.still
    · exact h

theorem Chip.putEval_sound (e : Evaluation) (h : a.Sound p) : a.Sound (p.putEval e) := by
  rw [Chip.putEval_eq]
  exact h.still

theorem Chip.holdRead_sound (e : Fin 8) (st : ReadState) (h : a.Sound p) : a.Sound (p.holdRead e st) := by
  unfold Chip.holdRead
  split
  · exact h
  · split
    · exact h.still
    · exact h.still

theorem Chip.countLate_sound (e : Fin 8) (h : a.Sound p) : a.Sound (p.countLate e) := by
  unfold Chip.countLate
  split
  · exact h
  · split
    · exact h
    · exact h.still

theorem Chip.completeRead_sound (e : Fin 8) (words : List Word) (material : OutRecord) (h : a.Sound p) :
    a.Sound (p.completeRead e words material) := by
  unfold Chip.completeRead
  split
  · exact h
  · rw [Chip.noteOutput_eq]
    exact h.still

theorem Chip.completeZeros_sound (e : Fin 8) (h : a.Sound p) : a.Sound (p.completeZeros e) := by
  unfold Chip.completeZeros
  split
  · exact h
  · exact Chip.completeRead_sound _ _ _ h

theorem Chip.readProceed_sound (e : Fin 8) (h : a.Sound p) : a.Sound (p.readProceed e) := by
  unfold Chip.readProceed
  split
  · exact h
  · split
    · exact Chip.completeRead_sound _ _ _ h
    · exact h

theorem Chip.applyScan_sound (id : Nat) (asker : Asker) (r : ScanResult) (h : a.Sound p) :
    a.Sound (p.applyScan id asker r) := by
  unfold Chip.applyScan
  split
  · exact .still (p := p.putEval _) (Chip.putEval_sound _ h)
  · dsimp only
    split
    · exact Chip.holdRead_sound _ _ (Chip.putEval_sound _ h)
    · exact Chip.putEval_sound _ h
  · have delivered : a.Sound ((p.dropEval id).deliver asker ‹Int›) := Chip.deliver_sound _ _ h.still
    dsimp only
    split
    · split
      · exact Chip.countLate_sound _ delivered
      · exact delivered
    · exact delivered

theorem Chip.startEval_sound (segment pair channel : Nat) (asker : Asker) (h : a.Sound p) :
    a.Sound (p.startEval segment pair channel asker) := Chip.applyScan_sound _ _ _ h.still

theorem Chip.codeProceed_sound (h : a.Sound p) : a.Sound p.codeProceed := by
  unfold Chip.codeProceed
  split
  · split
    · split
      · split
        · exact h
        · exact h.still
      · split
        · exact h.still
        · exact h
    · exact h
  · exact h

theorem Chip.captureProceed_sound (id : Nat) (h : a.Sound p) : a.Sound (p.captureProceed id) := by
  unfold Chip.captureProceed
  split
  · split
    · exact h.still
    · exact h
  · exact h

theorem Chip.saveProceed_sound (h : a.Sound p) : a.Sound p.saveProceed :=
  h.worksOnNone (Chip.saveProceed_cascade (.refl p)) (Chip.saveProceed_works (.refl ..))

theorem Chip.proceed_sound (asker : Asker) (h : a.Sound p) : a.Sound (p.proceed asker) :=
  match asker with
  | .read e _ => Chip.readProceed_sound e h
  | .codeEngine _ => Chip.codeProceed_sound h
  | .capture id _ => Chip.captureProceed_sound id h
  | .save _ => Chip.saveProceed_sound h

theorem Chip.becomeLate_sound (e : Fin 8) (r : Read) (h : a.Sound p) : a.Sound (p.becomeLate e r) := by
  have late : a.Sound (p.setRead e (some { r with late := true })) := h.still
  unfold Chip.becomeLate
  dsimp only
  split
  · exact Chip.completeZeros_sound e (Chip.countLate_sound e late)
  · split
    · refine Chip.readProceed_sound e (.foldl (fun q x hq => ?_) _ (Chip.countLate_sound e late))
      split
      · exact Chip.applyScan_sound _ _ _ hq
      · exact Chip.applyScan_sound _ _ _ hq
    · exact late
  · exact late
  · exact late
  · exact late

theorem Chip.fetchView_sound (e : Fin 8) (place : ViewPlace) (ws : List (Nat × WordFlag)) (h : a.Sound p) :
    a.Sound (p.fetchView e place ws) := by
  have hold : a.Sound (p.holdOnSlot e) := by
    unfold Chip.holdOnSlot
    split
    · exact Chip.completeZeros_sound e (Chip.countLate_sound e h)
    · exact Chip.holdRead_sound e _ h
  unfold Chip.fetchView
  split
  · unfold Chip.takeFetched
    dsimp only
    split
    · refine Chip.readProceed_sound e (.foldl (fun q wk hq => ?_) _ h.still)
      split
      · exact Chip.startEval_sound _ _ _ _ hq
      · exact hq
    · exact Chip.readProceed_sound e h.still
  · exact hold
  · exact hold
  · exact Chip.completeZeros_sound e h

/-! ## Coding (R54, R58, R65, R162) -/

theorem Chip.savePoint_sound (i : Fin 128) (h : a.Sound p) : a.Sound (p.savePoint i) := by
  unfold Chip.savePoint
  dsimp only
  split
  · exact h.still
  · split
    · exact h.still
    · have secured : a.Sound p.secureImage :=
        h.worksOnNone (Chip.secureImage_cascade (.refl p)) (secure_works _ _ (.refl ..))
      split
      · exact secured.still
      · rename_i u _
        have begun : a.Sound (p.secureImage.setSlot i { p.secureImage.slot i with undoSave := .inProgress }) :=
          Chip.setSlot_sound_keeps .same secured
        exact begun.still

theorem Chip.reofferHeld_sound (slot : Fin 128) (h : a.Sound p) : a.Sound (p.reofferHeld slot) := by
  refine .foldl (fun q e hq => ?_) _ h
  split
  · exact hq
  · split
    · split
      · exact hq.still
      · exact hq
    · exact hq

theorem Chip.resumeHeld_sound (segment : Nat) (h : a.Sound p) : a.Sound (p.resumeHeld segment) :=
  .foldl (fun _ _ hq => Chip.applyScan_sound _ _ _ hq) _ h

theorem Chip.readyWriteSide_sound (i : Fin 128) (h : a.Sound p) : a.Sound (p.readyWriteSide i) := by
  unfold Chip.readyWriteSide
  dsimp only
  split
  · exact h
  · split
    · split
      · exact Chip.setAside_sound i (Chip.raise_sound _ h)
      · exact Chip.savePoint_sound i h
    · exact h

theorem Chip.noteReady_sound (n : Nat) (h : a.Sound p) : a.Sound (p.noteReady n) := by
  unfold Chip.noteReady
  exact Chip.modRun_sound _ h.still

theorem Chip.reportDecode_sound (j : DecodeJob) (h : a.Sound p) : a.Sound (p.reportDecode j) := by
  unfold Chip.reportDecode
  dsimp only
  have done : a.Sound (p.setJob none) := h.still
  generalize p.setJob none = q at done ⊢
  split
  · unfold Chip.takeReport
    have ready := Chip.modSlot_sound (i := j.slot) (f := fun s => { s with
      play := .ready
      recovered := j.recovered
      markerBase := some (s.markerBase.getD j.recovered.marker) }) (fun _ => .same) done
    exact Chip.finish_sound (Chip.releaseTest_sound _ (Chip.queueTest_sound _ (Chip.readyWriteSide_sound _
      (Chip.resumeHeld_sound _ (Chip.reofferHeld_sound _ (Chip.noteReady_sound _ ready))))))
  · exact done

theorem Chip.beginCodeBlock_sound (j : CodeJob) (h : a.Sound p) : a.Sound (p.beginCodeBlock j) := by
  unfold Chip.beginCodeBlock
  dsimp only
  split
  · exact h.still
  · exact h.still

theorem Chip.gatherBlock_sound (j : CodeJob) (h : a.Sound p) : a.Sound (p.gatherBlock j) := by
  unfold Chip.gatherBlock
  split
  · exact h.still
  · exact Chip.codeProceed_sound (.foldl (fun _ _ hq => Chip.startEval_sound _ _ _ _ hq) _ h.still)

end
end Sys2Proof.Machine


/-! PROOFS. Every step keeps each claimed slot at its segment's place, and the record of a run in progress: the
remaining operations, one lemma a command, and the step (O9). -/

namespace Sys2Proof.Machine

-- One proof after another: the threads of many at once take more memory than the check allows.
set_option Elab.async false

section

variable {a p : Chip}

/-! ## Acceptance and MP's writes (R11, R12, R29, R37) -/

theorem Chip.post_sound (initiator : Fin 8) (addr : Nat) (data : List Word) (range : Range) (h : a.Sound p) :
    a.Sound (p.post initiator addr data range) := by
  unfold Chip.post
  dsimp only
  split
  · exact h.still
  · exact h.still

theorem Chip.offerRead_sound (e : Fin 8) (h : a.Sound p) : a.Sound (p.offerRead e) := h.still

theorem Chip.track_sound (e initiator : Fin 8) (tag addr len : Nat) (h : a.Sound p) :
    a.Sound (p.track e initiator tag addr len) := by
  unfold Chip.track
  dsimp only
  split
  · exact Chip.offerRead_sound e h.still
  · exact h.still

theorem Chip.closeRequest_sound (closes : Option Nat) (h : a.Sound p) : a.Sound (p.closeRequest closes) := by
  rw [Chip.closeRequest_eq]
  exact h.still

theorem Chip.emptyDirty_sound (h : a.Sound p) : a.Sound p.emptyDirty := h.still

theorem Chip.publish_sound (index : Nat) (h : a.Sound p) : a.Sound (p.publish index) := h.still

/-! ## Rows (R51, R52, R90) -/

theorem Chip.noteOverrun_sound (row : StagedRow) (h : a.Sound p) : a.Sound (p.noteOverrun row) := by
  have noted (x : Option (Nat × BitVec 30)) :
      a.Sound ((p.bump .overrun 1).modSlot (slotOf row.segment) fun s => { s with overrun := x }) :=
    Chip.modSlot_sound (fun _ => .same) h.still
  unfold Chip.noteOverrun
  dsimp only
  split
  · split
    · exact noted _
    · exact Chip.raise_sound _ (noted _)
  · exact Chip.raise_sound _ (noted _)

theorem Chip.acceptRow_sound (row : StagedRow) (h : a.Sound p) : a.Sound (p.acceptRow row) := by
  have arrived : a.Sound (p.modSlot (slotOf row.segment) fun s =>
      { s with rows := s.rows.set (Fin.ofNat 30 row.row) (.arrived row.void row.mask), play := .arriving }) :=
    Chip.modSlot_sound (fun _ => .same) h
  unfold Chip.acceptRow
  dsimp only
  split
  · exact Chip.queueDecode_sound _ arrived
  · exact arrived

theorem Chip.stageRow_sound (row : StagedRow) (h : a.Sound p) : a.Sound (p.stageRow row) := by
  unfold Chip.stageRow
  split
  · exact Chip.acceptRow_sound row h
  · exact Chip.noteOverrun_sound row h
  · exact h
  · exact h

theorem Chip.handGrant_sound (h : a.Sound p) : a.Sound p.handGrant := by
  unfold Chip.handGrant
  split
  · exact h
  · exact h.still

theorem Chip.releaseCredit_sound (h : a.Sound p) : a.Sound p.releaseCredit := by
  unfold Chip.releaseCredit
  dsimp only
  split
  · exact Chip.handGrant_sound h.still
  · exact h.still

theorem Chip.unstage_sound (rest : List StagedRow) (h : a.Sound p) : a.Sound (p.unstage rest) := by
  have unstaged : a.Sound ({ p with dlc := { p.dlc with staging := rest } }).releaseCredit :=
    Chip.releaseCredit_sound h.still
  unfold Chip.unstage
  dsimp only
  split
  · exact unstaged
  · exact unstaged.still

theorem Chip.sendRow_sound (f : RowFetch) (words : List Word) (h : a.Sound p) : a.Sound (p.sendRow f words) := by
  unfold Chip.sendRow
  dsimp only
  split
  · exact Chip.modSlot_sound (f := fun s => { s with write := .sending }) (fun _ => .same) h.still
  · exact h.still

/-! ## CE's items (R65, R76) -/

theorem Chip.beginCoding_sound (j : CodeJob) (h : a.Sound p) : a.Sound (p.beginCoding j) := by
  unfold Chip.beginCoding
  split
  · exact h.still
  · exact Chip.beginCodeBlock_sound j h

theorem Chip.decideBlock_sound (j : DecodeJob) (d : Decoded) (h : a.Sound p) : a.Sound (p.decideBlock j d) := by
  unfold Chip.decideBlock
  dsimp only
  split
  · exact Chip.decodeAdvance_sound _ h.still
  · exact h.still

theorem Chip.startEditCoding_sound (j : CodeJob) (flags : List WordFlag) (h : a.Sound p) :
    a.Sound (p.startEditCoding j flags) := by
  unfold Chip.startEditCoding
  refine Chip.beginCodeBlock_sound _ ?_
  split
  · exact h
  · exact Chip.raise_sound _ h

theorem Chip.codeAdvance_sound (j : CodeJob) (h : a.Sound p) : a.Sound (p.codeAdvance j) := by
  unfold Chip.codeAdvance
  split
  · exact Chip.beginCodeBlock_sound _ h
  · exact h.still

theorem Chip.reportCode_sound (j : CodeJob) (h : a.Sound p) : a.Sound (p.reportCode j) := by
  unfold Chip.reportCode
  dsimp only
  have done : a.Sound (p.setJob none) := h.still
  generalize p.setJob none = q at done ⊢
  split
  · exact Chip.finish_sound (Chip.modSlot_sound (f := fun s => { s with write := .queued }) (fun _ => .same) done)
  · exact done

/-! ## ECU's copies (R154, R155, R163, R169) -/

theorem Chip.concealBlock_sound (segment block : Nat) (asker : Nat → Asker) (ws : List (Nat × WordFlag))
    (h : a.Sound p) : a.Sound (p.concealBlock segment block asker ws) :=
  .foldl (fun _ _ hq => Chip.startEval_sound _ _ _ _ hq) _ h

theorem Chip.captureRead_sound (c : Capture) (ws : List (Nat × WordFlag)) (h : a.Sound p) :
    a.Sound (p.captureRead c ws) :=
  Chip.captureProceed_sound _ (Chip.concealBlock_sound _ _ _ _ h.still)

theorem Chip.endCapture_sound (c : Capture) (h : a.Sound p) : a.Sound (p.endCapture c) := by
  unfold Chip.endCapture
  exact Chip.report_sound _ _ h.still

theorem Chip.captureWritten_sound (c : Capture) (h : a.Sound p) : a.Sound (p.captureWritten c) := by
  unfold Chip.captureWritten
  dsimp only
  split
  · exact h.still
  · refine Chip.finish_sound (Chip.unpin_sound _ ?_)
    split
    · exact h.still
    · exact Chip.endCapture_sound c h

theorem Chip.saveRead_sound (j : SaveJob) (ws : List (Nat × WordFlag)) (h : a.Sound p) : a.Sound (p.saveRead j ws) :=
  Chip.saveProceed_sound (Chip.concealBlock_sound _ _ _ _ h.still)

theorem Chip.saveWritten_sound (j : SaveJob) (h : a.Sound p) : a.Sound (p.saveWritten j) := by
  unfold Chip.saveWritten
  dsimp only
  split
  · exact h.still
  · exact h.still

theorem Chip.endSave_sound (j : SaveJob) (h : a.Sound p) : a.Sound (p.endSave j) := by
  unfold Chip.endSave
  have secured := Chip.secureWords_sound 2 h
  generalize p.secureWords 2 = q at secured
  have pushed : a.Sound (q.pushEntry (.seg j.save.segment j.save.image)) :=
    secured.worksOnNone (Chip.pushEntry_cascade _ (.refl q)) (Chip.pushEntry_works _ (.refl ..))
  exact Chip.queueTest_sound _ (Chip.modSlot_sound (f := fun s => { s with undoSave := .ended }) (fun _ => .same)
    pushed.still)

theorem Chip.loadWritten_sound (l : Load) (h : a.Sound p) : a.Sound (p.loadWritten l) := by
  unfold Chip.loadWritten
  split
  · exact h.still
  · exact Chip.queueTest_sound _ h.still

/-! ## The link and its timers (R85, R96, R118) -/

theorem Chip.comeUp_sound (h : a.Sound p) : a.Sound p.comeUp := by
  unfold Chip.comeUp
  exact Chip.raise_sound _ (Chip.handGrant_sound h.still)

theorem Chip.enterStaging_sound (row : StagedRow) (h : a.Sound p) : a.Sound (p.enterStaging row) := by
  unfold Chip.enterStaging
  dsimp only
  split
  · exact Chip.releaseCredit_sound h
  · split
    · exact h.still
    · exact h.still

theorem Chip.handMissing_sound (flags : BitVec 8) (h : a.Sound p) : a.Sound (p.handMissing flags) := by
  unfold Chip.handMissing
  split
  · exact h.still
  · exact h.still

theorem Chip.takeSeq_sound (seq : BitVec 3) (h : a.Sound p) : a.Sound (p.takeSeq seq) := by
  unfold Chip.takeSeq
  dsimp only
  split
  · exact h.still
  · exact Chip.handMissing_sound _ h.still

theorem Chip.playRow_sound (seq : BitVec 3) (row : StagedRow) (h : a.Sound p) : a.Sound (p.playRow seq row) := by
  unfold Chip.playRow
  dsimp only
  split
  · exact Chip.handGrant_sound h.still
  · unfold Chip.newRow
    split
    · exact h.still
    · exact Chip.takeSeq_sound seq (Chip.enterStaging_sound row h.still)

theorem Chip.takeMissing_sound (flags : BitVec 8) (h : a.Sound p) : a.Sound (p.takeMissing flags) :=
  .foldl (fun _ e hq => Chip.resend_sound e hq) _ h

theorem Chip.dropBad_sound (h : a.Sound p) : a.Sound p.dropBad := by
  unfold Chip.dropBad
  split
  · exact h
  · exact h.still

theorem Chip.leave_sound (f : LaneFrame) (h : a.Sound p) : a.Sound (p.leave f) := by
  unfold Chip.leave
  split
  · exact h.still
  · split
    · exact h
    · exact h.still
  · exact h.still
  · exact h.still
  · exact h.still
  · exact h.still

theorem Chip.handOpen_sound (h : a.Sound p) : a.Sound p.handOpen := by
  unfold Chip.handOpen
  split
  · exact h
  · exact h.still

theorem Chip.drainExpired_sound (h : a.Sound p) : a.Sound p.drainExpired :=
  Chip.finish_sound (Chip.giveUp_sound (Chip.modRun_sound _ h))

theorem Chip.tick_sound (h : a.Sound p) : a.Sound p.tick :=
  h.trans ⟨id, fun recorded => ⟨fun running => by
    show (p.rc.run.map RunRecord.tick).isSome = true
    rw [Option.isSome_map]
    exact recorded.1 running, recorded.2⟩⟩

end

/-! ## Commands -/

/-- What a command answers keeps the slots and the run of the state it found. -/
def State.Sound (s : State) (o : Out) : Prop := ∀ t, o = .next t → s.toChip.Sound t.toChip

namespace State.Sound

variable {s t : State}

theorem next (h : s.toChip.Sound t.toChip) : s.Sound (.next t) := by
  rintro _ ⟨⟩
  exact h

/-- A command turned away (log 5). -/
theorem same (s : State) : s.Sound (.next s) := next (.refl _)

/-- A command taken where its guard holds. -/
theorem guarded {P : Prop} [Decidable P] (h : P → s.Sound (.next t)) : s.Sound (if P then .next t else .next s) := by
  split
  · exact h ‹_›
  · exact same s

end State.Sound

theorem Chip.begin_sound (p : Chip) : p.Sound p.begin := (Chip.Sound.refl p).still

theorem Chip.beginGrant_sound (r : Req) (p : Chip) : p.Sound (p.beginGrant r) := (Chip.Sound.refl p).still

section

variable (s : State)

/-! ### Grants of the posted-write head -/

/-- A grant of the posted-write head is sound if its effect is. -/
theorem grantHead_sound (want : WriteAct) {effect : PostedWrite → Chip → Chip}
    (sound : ∀ (w : PostedWrite) (p : Chip), p.Sound (effect w p)) : s.Sound (s.grantHead want effect) := by
  unfold State.grantHead
  split
  · exact .same s
  · rename_i w _ _
    refine .guarded fun _ => .next ?_
    have placed : s.toChip.Sound ((s.toChip.beginGrant .postedWrite).placeShadow w) :=
      (Chip.beginGrant_sound _ _).still
    exact Chip.noteStatus_sound (Chip.leaveQueue_sound w (placed.trans (sound w _)))

theorem exec_headRow_sound {c : Instr} {act : WriteAct} (row : c.headRow = some act) : s.Sound (exec c s) := by
  by_cases word : act = .badRequest ∨ ∃ k, act = .request k
  · rw [exec_decideWord row word]
    exact grantHead_sound s _ fun w p => WriteAct.decideWord_sound word w (.refl p)
  · cases c with
    | writeGrant => exact grantHead_sound s _ fun _ p => .refl p
    | modeMapWrite => exact grantHead_sound s _ fun w p => Chip.writeMap_sound w (.refl p)
    | modeSignalWrite => exact grantHead_sound s _ fun _ p => Chip.writeSignal_sound (.refl p)
    | modeLinkWrite => exact grantHead_sound s _ fun _ p => Chip.writeLink_sound (.refl p)
    | modeEditWrite => exact grantHead_sound s _ fun _ p => Chip.writeEdit_sound (.refl p)
    | consumeCountWrite => exact grantHead_sound s _ fun _ p => Chip.writeConsume_sound _ (.refl p)
    | inputStatusWrite => exact grantHead_sound s _ fun _ p => Chip.writeInput_sound _ _ (.refl p)
    | noticeReadIndexWrite => exact grantHead_sound s _ fun _ p => Chip.writeReadIndex_sound _ (.refl p)
    | play | record | edit | revert | stop | capture | dropClip | mark | linkClear =>
      cases row
      exact absurd (.inr ⟨_, rfl⟩) word
    | badReq =>
      cases row
      exact absurd (.inl rfl) word
    | _ => cases row

/-! ### One lemma a command -/

theorem execPinReset_sound : s.Sound (execPinReset s) :=
  have unclaimed (i : Fin 128) : (Chip.reset.slot i).claimed = false := by
    simp [Chip.slot, Chip.reset, Slot.releasedWith]
  .next ⟨fun _ i claimed => absurd ((unclaimed i).symm.trans claimed) (by decide),
    fun _ => ⟨fun running => absurd rfl running, fun _ => rfl⟩⟩

theorem execWriteAccept_sound (initiator : Fin 8) (addr : BusAddr) (data : List Word) :
    s.Sound (execWriteAccept initiator addr data s) := by
  unfold execWriteAccept
  dsimp only
  split
  · exact .next (Chip.noteStatus_sound (Chip.raise_sound _ (Chip.begin_sound _)))
  · split
    · exact .next (Chip.noteStatus_sound (Chip.raise_sound _ (Chip.begin_sound _).still))
    · exact .guarded fun _ => .next (Chip.post_sound _ _ _ _ (Chip.begin_sound _))

theorem execReadAccept_sound (initiator : Fin 8) (tag : Nat) (addr : BusAddr) (len : Nat) :
    s.Sound (execReadAccept initiator tag addr len s) := by
  unfold execReadAccept
  dsimp only
  split
  · exact .next (Chip.begin_sound _).still
  · split
    · exact .next (Chip.track_sound _ _ _ _ _ (Chip.begin_sound _))
    · exact .same s

theorem execAudioViewWrite_sound : s.Sound (execAudioViewWrite s) := by
  unfold execAudioViewWrite
  split
  · exact .same s
  · rename_i w _ _
    split
    · rename_i place _
      exact .guarded fun _ => .next (Chip.finish_sound (Chip.leaveQueue_sound w
        (Chip.takeBurst_sound w place (Chip.beginGrant_sound .postedWrite _))))
    · exact .same s

theorem execReadGrant_sound (e : Fin 8) : s.Sound (execReadGrant e s) := by
  unfold execReadGrant
  split
  · exact .same s
  · split
    · exact .same s
    · exact .guarded fun _ => .next (Chip.completeRead_sound _ _ _ (Chip.beginGrant_sound _ _))

theorem execOutputStatusRead_sound (e : Fin 8) : s.Sound (execOutputStatusRead e s) := by
  unfold execOutputStatusRead
  split
  · exact .same s
  · exact .guarded fun _ => .next (Chip.completeRead_sound _ _ _ (Chip.beginGrant_sound _ _))

theorem execAudioViewFetch_sound (e : Fin 8) : s.Sound (execAudioViewFetch e s) := by
  unfold execAudioViewFetch
  split
  · exact .same s
  · split
    · exact .guarded fun _ => .next (Chip.noteStatus_sound (Chip.fetchView_sound e _ _ (Chip.beginGrant_sound _ _)))
    · exact .same s

theorem execNeighbourFetch_sound (evaluation : Nat) : s.Sound (execNeighbourFetch evaluation s) := by
  unfold execNeighbourFetch
  split
  · exact .same s
  · split
    · exact .same s
    · exact .guarded fun _ => .next (Chip.noteStatus_sound (Chip.proceed_sound _ (Chip.applyScan_sound _ _ _
        (Chip.beginGrant_sound _ _))))

theorem execReadLate_sound (e : Fin 8) : s.Sound (execReadLate e s) := by
  unfold execReadLate
  split
  · exact .same s
  · exact .guarded fun _ => .next (Chip.noteStatus_sound (Chip.becomeLate_sound _ _ (Chip.begin_sound _)))

theorem execStagingWrite_sound : s.Sound (execStagingWrite s) := by
  unfold execStagingWrite
  split
  · exact .same s
  · rename_i row rest _
    exact .guarded fun _ => .next (Chip.noteStatus_sound (Chip.unstage_sound rest (Chip.stageRow_sound row
      (Chip.beginGrant_sound _ _))))

theorem execRowFetch_sound : s.Sound (execRowFetch s) := by
  unfold execRowFetch
  split
  · exact .same s
  · rename_i f _
    refine .guarded fun _ => .next (Chip.finish_sound ?_)
    have taken : s.toChip.Sound { s.toChip.beginGrant .rowFetch with
        dlc := { (s.toChip.beginGrant .rowFetch).dlc with fetch := none } } := (Chip.Sound.refl _).still
    split
    · exact Chip.sendRow_sound f _ taken
    · exact taken

theorem execCeTakeDecodeItem_sound (slot : Fin 128) : s.Sound (execCeTakeDecodeItem slot s) := by
  unfold execCeTakeDecodeItem
  split
  · exact .next (Chip.Sound.refl _).still
  · exact .same s

theorem execCeTakeCodeItem_sound (slot : Fin 128) : s.Sound (execCeTakeCodeItem slot s) := by
  unfold execCeTakeCodeItem
  split
  · have taken {it : CeItem} {j : CeJob} : s.toChip.Sound (s.toChip.begin.takeItem it j) := (Chip.Sound.refl _).still
    exact .next (Chip.beginCoding_sound _ (Chip.modSlot_sound (f := fun x => { x with write := .coding })
      (fun _ => .same) taken))
  · exact .same s

theorem execDecodeBlockRead_sound : s.Sound (execDecodeBlockRead s) := by
  unfold execDecodeBlockRead
  split
  · exact .guarded fun _ => .next (Chip.noteStatus_sound (Chip.decideBlock_sound _ _ (Chip.beginGrant_sound _ _)))
  · exact .same s

theorem execDecodeBlockWrite_sound : s.Sound (execDecodeBlockWrite s) := by
  unfold execDecodeBlockWrite
  split
  · split
    · exact .guarded fun _ => .next (Chip.noteStatus_sound (Chip.decodeAdvance_sound _ (Chip.beginGrant_sound _ _)))
    · exact .same s
  · exact .same s

theorem execDecodeFinalWrite_sound : s.Sound (execDecodeFinalWrite s) := by
  unfold execDecodeFinalWrite
  split
  · exact .guarded fun _ => .next (Chip.reportDecode_sound _ (Chip.beginGrant_sound _ _))
  · exact .same s

theorem execCodeFlagMapRead_sound : s.Sound (execCodeFlagMapRead s) := by
  unfold execCodeFlagMapRead
  split
  · exact .guarded fun _ => .next (Chip.noteStatus_sound (Chip.startEditCoding_sound _ _ (Chip.beginGrant_sound _ _)))
  · exact .same s

theorem execCodeBlockRead_sound : s.Sound (execCodeBlockRead s) := by
  unfold execCodeBlockRead
  split
  · exact .guarded fun _ => .next (Chip.gatherBlock_sound _ (Chip.beginGrant_sound _ _))
  · exact .same s

theorem execCodeBlockWrite_sound : s.Sound (execCodeBlockWrite s) := by
  unfold execCodeBlockWrite
  split
  · split
    · exact .guarded fun _ => .next (Chip.codeAdvance_sound _ (Chip.beginGrant_sound _ _))
    · exact .same s
  · exact .same s

theorem execCodeSummaryWrite_sound : s.Sound (execCodeSummaryWrite s) := by
  unfold execCodeSummaryWrite
  split
  · exact .guarded fun _ => .next (Chip.reportCode_sound _ (Chip.beginGrant_sound _ _))
  · exact .same s

theorem execCaptureBlockRead_sound : s.Sound (execCaptureBlockRead s) := by
  unfold execCaptureBlockRead
  split
  · exact .guarded fun _ => .next (Chip.captureRead_sound _ _ (Chip.beginGrant_sound _ _))
  · exact .same s

theorem execCaptureBlockWrite_sound : s.Sound (execCaptureBlockWrite s) := by
  unfold execCaptureBlockWrite
  split
  · exact .guarded fun _ => .next (Chip.captureWritten_sound _ (Chip.beginGrant_sound _ _))
  · exact .same s

theorem execSaveTake_sound : s.Sound (execSaveTake s) := by
  unfold execSaveTake
  split
  · exact .next (Chip.Sound.refl _).still
  · exact .same s

theorem execSaveBlockRead_sound : s.Sound (execSaveBlockRead s) := by
  unfold execSaveBlockRead
  split
  · exact .guarded fun _ => .next (Chip.saveRead_sound _ _ (Chip.beginGrant_sound _ _))
  · exact .same s

theorem execSaveBlockWrite_sound : s.Sound (execSaveBlockWrite s) := by
  unfold execSaveBlockWrite
  split
  · exact .guarded fun _ => .next (Chip.saveWritten_sound _ (Chip.beginGrant_sound _ _))
  · exact .same s

theorem execSaveClosingWrite_sound : s.Sound (execSaveClosingWrite s) := by
  unfold execSaveClosingWrite
  split
  · exact .guarded fun _ => .next (Chip.endSave_sound _ (Chip.beginGrant_sound _ _))
  · exact .same s

theorem execLoadBlockRead_sound (slot : Fin 128) : s.Sound (execLoadBlockRead slot s) := by
  unfold execLoadBlockRead
  split
  · exact .guarded fun _ => .next (Chip.Sound.refl _).still
  · exact .same s

theorem execLoadBlockWrite_sound (slot : Fin 128) : s.Sound (execLoadBlockWrite slot s) := by
  unfold execLoadBlockWrite
  split
  · split
    · exact .guarded fun _ => .next (Chip.loadWritten_sound _ (Chip.beginGrant_sound _ _))
    · exact .same s
  · exact .same s

theorem execStackMirrorWrite_sound : s.Sound (execStackMirrorWrite s) := by
  unfold execStackMirrorWrite
  split
  · exact .guarded fun _ => .next (Chip.beginGrant_sound _ _)
  · exact .same s

theorem execResultWrite_sound : s.Sound (execResultWrite s) := by
  unfold execResultWrite
  split
  · exact .guarded fun _ => .next (Chip.closeRequest_sound _ (Chip.endWait_sound _ (Chip.beginGrant_sound _ _)))
  · exact .same s

theorem execStatusWrite_sound : s.Sound (execStatusWrite s) := by
  unfold execStatusWrite
  split
  · refine .guarded fun _ => .next ?_
    have ended {r : Req} {w : Wait} : s.toChip.Sound ((s.toChip.beginGrant r).endWait w) :=
      Chip.endWait_sound _ (Chip.beginGrant_sound _ _)
    exact Chip.emptyDirty_sound ended
  · exact .same s

theorem execNoticeWrite_sound : s.Sound (execNoticeWrite s) := by
  unfold execNoticeWrite
  split
  · refine .guarded fun _ => .next ?_
    have ended {r : Req} {w : Wait} : s.toChip.Sound ((s.toChip.beginGrant r).endWait w) :=
      Chip.endWait_sound _ (Chip.beginGrant_sound _ _)
    exact Chip.publish_sound _ ended
  · exact .same s

theorem execOpenedReceived_sound (frame : List Byte) : s.Sound (execOpenedReceived frame s) :=
  .guarded fun _ => .next (Chip.noteStatus_sound (Chip.comeUp_sound (Chip.begin_sound _)))

theorem execClearReceived_sound (frame : List Byte) : s.Sound (execClearReceived frame s) :=
  .guarded fun _ => .next (Chip.noteStatus_sound (Chip.openLink_sound _ (Chip.clearLink_sound _ (Chip.begin_sound _))))

theorem execPlayRowReceived_sound (frame : List Byte) : s.Sound (execPlayRowReceived frame s) := by
  unfold execPlayRowReceived
  split
  · exact .guarded fun _ => .next (Chip.noteStatus_sound (Chip.playRow_sound _ _ (Chip.begin_sound _)))
  · exact .same s

theorem execGrantReceived_sound (frame : List Byte) : s.Sound (execGrantReceived frame s) := by
  unfold execGrantReceived
  split
  · exact .guarded fun _ => .next (Chip.finish_sound (Chip.takeGrant_sound _ _ (Chip.begin_sound _)))
  · exact .same s

theorem execMissingReceived_sound (frame : List Byte) : s.Sound (execMissingReceived frame s) := by
  unfold execMissingReceived
  split
  · exact .guarded fun _ => .next (Chip.noteStatus_sound (Chip.takeMissing_sound _ (Chip.begin_sound _)))
  · exact .same s

theorem execDueReceived_sound (frame : List Byte) : s.Sound (execDueReceived frame s) := by
  unfold execDueReceived
  split
  · exact .guarded fun _ => .next (Chip.takeDue_sound _ (Chip.begin_sound _))
  · exact .same s

theorem execBadCrcFrame_sound (frame : List Byte) : s.Sound (execBadCrcFrame frame s) :=
  .guarded fun _ => .next (Chip.noteStatus_sound (Chip.dropBad_sound (Chip.begin_sound _)))

theorem execDroppedFrame_sound (frame : List Byte) : s.Sound (execDroppedFrame frame s) :=
  .guarded fun _ => .next (Chip.begin_sound _)

theorem execFrameLeaves_sound (second : Bool) : s.Sound (execFrameLeaves second s) := by
  unfold execFrameLeaves
  split
  · exact .same s
  · exact .next (Chip.leave_sound _ (Chip.Sound.refl _).still)

theorem execOpenRetryExpiry_sound : s.Sound (execOpenRetryExpiry s) :=
  .guarded fun _ => .next (Chip.handOpen_sound (Chip.begin_sound _)).still

theorem execAckTimerExpiry_sound : s.Sound (execAckTimerExpiry s) :=
  .guarded fun _ => .next (Chip.noteStatus_sound (Chip.ackExpired_sound (Chip.begin_sound _)))

theorem execCreditTimerExpiry_sound : s.Sound (execCreditTimerExpiry s) :=
  .guarded fun _ => .next (Chip.handGrant_sound (Chip.begin_sound _)).still

theorem execDrainTimerExpiry_sound : s.Sound (execDrainTimerExpiry s) :=
  .guarded fun _ => .next (Chip.drainExpired_sound (Chip.begin_sound _))

/-- Every command is sound. -/
theorem exec_sound : ∀ c : Instr, s.Sound (exec c s)
  | .pinReset => execPinReset_sound s
  | .writeAccept initiator addr data => execWriteAccept_sound s initiator addr data
  | .readAccept initiator tag addr len => execReadAccept_sound s initiator tag addr len
  | .writeGrant => exec_headRow_sound s (c := .writeGrant) rfl
  | .audioViewWrite => execAudioViewWrite_sound s
  | .modeMapWrite => exec_headRow_sound s (c := .modeMapWrite) rfl
  | .modeSignalWrite => exec_headRow_sound s (c := .modeSignalWrite) rfl
  | .modeLinkWrite => exec_headRow_sound s (c := .modeLinkWrite) rfl
  | .modeEditWrite => exec_headRow_sound s (c := .modeEditWrite) rfl
  | .play => exec_headRow_sound s (c := .play) rfl
  | .record => exec_headRow_sound s (c := .record) rfl
  | .edit => exec_headRow_sound s (c := .edit) rfl
  | .revert => exec_headRow_sound s (c := .revert) rfl
  | .stop => exec_headRow_sound s (c := .stop) rfl
  | .capture => exec_headRow_sound s (c := .capture) rfl
  | .dropClip => exec_headRow_sound s (c := .dropClip) rfl
  | .mark => exec_headRow_sound s (c := .mark) rfl
  | .linkClear => exec_headRow_sound s (c := .linkClear) rfl
  | .badReq => exec_headRow_sound s (c := .badReq) rfl
  | .consumeCountWrite => exec_headRow_sound s (c := .consumeCountWrite) rfl
  | .inputStatusWrite => exec_headRow_sound s (c := .inputStatusWrite) rfl
  | .noticeReadIndexWrite => exec_headRow_sound s (c := .noticeReadIndexWrite) rfl
  | .readGrant entry => execReadGrant_sound s entry
  | .outputStatusRead entry => execOutputStatusRead_sound s entry
  | .audioViewFetch entry => execAudioViewFetch_sound s entry
  | .neighbourFetch evaluation => execNeighbourFetch_sound s evaluation
  | .readLate entry => execReadLate_sound s entry
  | .stagingWrite => execStagingWrite_sound s
  | .rowFetch => execRowFetch_sound s
  | .ceTakeDecodeItem slot => execCeTakeDecodeItem_sound s slot
  | .ceTakeCodeItem slot => execCeTakeCodeItem_sound s slot
  | .decodeBlockRead => execDecodeBlockRead_sound s
  | .decodeBlockWrite => execDecodeBlockWrite_sound s
  | .decodeFinalWrite => execDecodeFinalWrite_sound s
  | .codeFlagMapRead => execCodeFlagMapRead_sound s
  | .codeBlockRead => execCodeBlockRead_sound s
  | .codeBlockWrite => execCodeBlockWrite_sound s
  | .codeSummaryWrite => execCodeSummaryWrite_sound s
  | .captureBlockRead => execCaptureBlockRead_sound s
  | .captureBlockWrite => execCaptureBlockWrite_sound s
  | .saveTake => execSaveTake_sound s
  | .saveBlockRead => execSaveBlockRead_sound s
  | .saveBlockWrite => execSaveBlockWrite_sound s
  | .saveClosingWrite => execSaveClosingWrite_sound s
  | .loadBlockRead slot => execLoadBlockRead_sound s slot
  | .loadBlockWrite slot => execLoadBlockWrite_sound s slot
  | .stackMirrorWrite => execStackMirrorWrite_sound s
  | .resultWrite => execResultWrite_sound s
  | .statusWrite => execStatusWrite_sound s
  | .noticeWrite => execNoticeWrite_sound s
  | .openedReceived frame => execOpenedReceived_sound s frame
  | .clearReceived frame => execClearReceived_sound s frame
  | .playRowReceived frame => execPlayRowReceived_sound s frame
  | .grantReceived frame => execGrantReceived_sound s frame
  | .missingReceived frame => execMissingReceived_sound s frame
  | .dueReceived frame => execDueReceived_sound s frame
  | .badCrcFrame frame => execBadCrcFrame_sound s frame
  | .droppedFrame frame => execDroppedFrame_sound s frame
  | .frameLeaves second => execFrameLeaves_sound s second
  | .openRetryExpiry => execOpenRetryExpiry_sound s
  | .ackTimerExpiry => execAckTimerExpiry_sound s
  | .creditTimerExpiry => execCreditTimerExpiry_sound s
  | .drainTimerExpiry => execDrainTimerExpiry_sound s

theorem step_sound : s.Sound (step s) := by
  unfold step
  split
  · exact .next (Chip.tick_sound (.refl _))
  · exact exec_sound (s.withPending _) _

end

/-- Settles O9: each operation is `Chip.Sound`, so each command is; and a slot of each segment is its own (R46). -/
theorem everyStepKeepsSlotsAndRun : Obligations.EveryStepKeepsSlotsAndRun := by
  unfold Obligations.EveryStepKeepsSlotsAndRun
  refine ⟨fun s t answer => ?_, fun p i j placed hi hj same => placed.injective hi hj same⟩
  obtain ⟨slots, run⟩ := step_sound s t answer
  exact ⟨slots, run⟩

end Sys2Proof.Machine


/-! PROOFS. What CE makes of an item it takes (O43): a code item's first request is its flag map, its first block, or,
with FILL, the write of that block. -/

namespace Sys2Proof.Machine

-- One proof after another: the threads of many at once take more memory than the check allows.
set_option Elab.async false

/-! ## A block begun (R65, R66) -/

/-- The item with a block begun: its inputs to be read, or, with FILL, the block to be written. -/
def CodeJob.blockBegun (j : CodeJob) : CodeJob :=
  let j := { j with old := [], new := [] }
  match j.material with
  | .fill => { j with stage := .blockWrite j.blockValues }
  | _ => { j with stage := .blockRead }

/-- The item with its first request made: an EDIT's is the flag map. -/
def CodeJob.begun (j : CodeJob) : CodeJob :=
  match j.punch with
  | some _ => j
  | none => j.blockBegun

theorem Chip.beginCodeBlock_eq (j : CodeJob) (p : Chip) :
    p.beginCodeBlock j = (p.setJob (some (.code j.blockBegun))).offer .codeEngine := by
  unfold Chip.beginCodeBlock CodeJob.blockBegun
  cases material : j.material with
  | fill => rfl
  | live => rfl
  | clip k => rfl
  | image u => rfl

theorem Chip.beginCoding_eq (j : CodeJob) (p : Chip) :
    p.beginCoding j = (p.setJob (some (.code j.begun))).offer .codeEngine := by
  unfold Chip.beginCoding CodeJob.begun
  cases punch : j.punch with
  | none => exact Chip.beginCodeBlock_eq j p
  | some x => rfl

/-- The first request moves an item's stage alone, besides the values of its block. -/
theorem CodeJob.begun_eq (j : CodeJob) :
    j.begun = { j with old := j.begun.old, new := j.begun.new, stage := j.begun.stage } := by
  unfold CodeJob.begun CodeJob.blockBegun
  split
  · rfl
  · dsimp only
    split
    · rfl
    · rfl

section

variable {j : CodeJob}

theorem CodeJob.begun_punched (punched : j.punch ≠ none) : j.begun = j := by
  unfold CodeJob.begun
  cases punch : j.punch with
  | none => exact absurd punch punched
  | some x => rfl

theorem CodeJob.begun_read (plain : j.punch = none) (material : j.material ≠ .fill) : j.begun.stage = .blockRead := by
  unfold CodeJob.begun CodeJob.blockBegun
  rw [plain]
  dsimp only
  split
  · contradiction
  · rfl

theorem CodeJob.begun_fill (plain : j.punch = none) (material : j.material = .fill) :
    j.begun.stage = .blockWrite { j with old := [], new := [] }.blockValues := by
  unfold CodeJob.begun CodeJob.blockBegun
  rw [plain]
  dsimp only
  rw [material]

/-- A block holds 30 words, the 24 audio values first (R40, R64). -/
theorem CodeJob.blockValues_length (j : CodeJob) : j.blockValues.length = 30 := by
  simp [CodeJob.blockValues, encodeBlock, CodeJob.auxValues]

theorem CodeJob.blockValues_audio (j : CodeJob) {k : Nat} (lt : k < 24) :
    j.blockValues[k]? = some (j.audioValue k) := by
  unfold CodeJob.blockValues encodeBlock
  rw [List.append_assoc, List.getElem?_append_left (by simpa using lt), List.getElem?_map, List.getElem?_range lt]
  rfl

/-- FILL is silence (R66). -/
theorem CodeJob.audioValue_silence (plain : j.punch = none) (none : j.new = []) (k : Nat) :
    j.audioValue k = 8388606 := by
  unfold CodeJob.audioValue
  rw [plain, none]
  rfl

end

/-! ## The copy word at the take (R178, R180) -/

section

variable {x : Slot}

theorem Slot.recordCopyWord_folded (material : x.material ≠ .fill) {g : Grade} {c : Source}
    (grade : x.worstGrade = some g) (source : x.worstSource = some c) :
    x.recordCopyWord = g.code + 4 * (if c = .digital then 1 else 0) := by
  unfold Slot.recordCopyWord
  rw [grade, source]
  dsimp only
  rw [if_neg material]
  cases c with
  | analog => rfl
  | digital => rfl

theorem Slot.recordCopyWord_unwritten (grade : x.worstGrade = none) : x.recordCopyWord = 0 := by
  unfold Slot.recordCopyWord
  rw [grade]
  rfl

theorem Slot.recordCopyWord_refused (material : x.material = .fill) (folded : x.worstGrade ≠ none) :
    x.recordCopyWord = 22 := by
  obtain ⟨g, grade⟩ := Option.ne_none_iff_exists'.mp folded
  unfold Slot.recordCopyWord
  rw [grade]
  dsimp only
  rw [if_pos material]
  rfl

end

theorem ImageRecord.copyWord_eq (r : ImageRecord) :
    r.copyWord = r.grade.code + 4 * 3 + 32 * (if r.baked then 1 else 0) := by
  unfold ImageRecord.copyWord copyWordOf bitOf
  rfl

/-! ## The two commands -/

/-- A slot whose item CE has taken (R58). -/
def Slot.codingBegun (x : Slot) : Slot := { x with write := .coding }

section

variable {s : State} {i : Fin 128} {it : CeItem}

theorem execCeTakeCodeItem_eq {segment serial : Nat} {material : Material} {writer : WriterKind} {punch : Option Punch}
    (idle : s.ce.job = none) (front : s.ce.front.find? (CeItem.codes i) =
      some (.code i segment serial material writer punch)) :
    execCeTakeCodeItem i s = .next (s.onChip fun p =>
      Chip.offer .codeEngine (Chip.setJob (some (.code (p.codeJob i segment serial material writer punch).begun))
        ((p.begin.takeItem (.code i segment serial material writer punch)
          (.code (p.codeJob i segment serial material writer punch))).modSlot i
            Slot.codingBegun))) := by
  unfold execCeTakeCodeItem
  rw [idle, front]
  simp only [Chip.beginCoding_eq]
  rfl

theorem execCeTakeDecodeItem_eq {segment serial : Nat} {rows : Vector RowRecord 30} (idle : s.ce.job = none)
    (front : s.ce.front.find? (CeItem.decodes i) = some (.decode i segment serial rows)) :
    execCeTakeDecodeItem i s = .next (s.onChip fun p => Chip.offer .codeEngine
      (p.begin.takeItem (.decode i segment serial rows) (.decode
        ⟨i, segment, serial, rows, p.cpm.map.privateBase, 0, .blockRead, [], [], 0, 0, .absent, false⟩))) := by
  unfold execCeTakeDecodeItem
  rw [idle, front]

end

/-- Settles O43: an item's values are read off the slot as CE takes it; its first request changes its stage alone. -/
theorem codeEngineTakesItems : Obligations.CodeEngineTakesItems := by
  unfold Obligations.CodeEngineTakesItems
  intro s i segment serial idle x rest
  refine ⟨fun rows front => ?_, fun material writer punch front => ?_⟩
  · exact ⟨_, execCeTakeDecodeItem_eq idle front, ⟨rfl, rfl, rfl, rfl, rfl, rfl, fun _ _ => rfl⟩, rfl, rfl, rfl,
      Chip.offers_offer _ _⟩
  · let q := s.toChip.begin.takeItem (.code i segment serial material writer punch)
      (.code (s.toChip.codeJob i segment serial material writer punch))
    have others (k : Fin 128) (other : k ≠ i) : (q.modSlot i Slot.codingBegun).slot k = q.slot k :=
      Chip.slot_modSlot_other _ _ other
    have taken : (q.modSlot i Slot.codingBegun).slot i = (q.slot i).codingBegun := Chip.slot_modSlot_same i _ _
    refine ⟨_, (s.toChip.codeJob i segment serial material writer punch).begun, execCeTakeCodeItem_eq idle front,
      ⟨rfl, rfl, rfl, rfl, rfl, rfl, others⟩, rfl, taken, ?_⟩
    have begun := CodeJob.begun_eq (s.toChip.codeJob i segment serial material writer punch)
    have punched (given : punch ≠ none) := CodeJob.begun_punched
      (j := s.toChip.codeJob i segment serial material writer punch) given
    have read (plain : punch = none) (audio : material ≠ .fill) := CodeJob.begun_read
      (j := s.toChip.codeJob i segment serial material writer punch) plain audio
    have fill (plain : punch = none) (silent : material = .fill) := CodeJob.begun_fill
      (j := s.toChip.codeJob i segment serial material writer punch) plain silent
    generalize (s.toChip.codeJob i segment serial material writer punch).begun = j at begun punched read fill ⊢
    rw [begun]
    refine ⟨rfl, rfl, rfl, rfl, rfl, rfl, rfl, fun r run => ?_, rfl, rfl, rfl, rfl, rfl, rfl, ?_, ?_, ?_, ?_, ?_, read,
      ?_,
      rfl, Chip.offers_offer _ _⟩
    · show (match s.rc.run with
        | some r => r.rate
        | none => 0) = r.rate
      rw [run]
    · rintro rfl live g c grade source
      exact Slot.recordCopyWord_folded live grade source
    · rintro rfl grade
      exact Slot.recordCopyWord_unwritten grade
    · rintro rfl refused folded
      exact Slot.recordCopyWord_refused refused folded
    · rintro u rfl rfl
      exact ImageRecord.copyWord_eq _
    · intro given
      rw [punched given]
      rfl
    · intro plain silent
      exact ⟨_, fill plain silent, CodeJob.blockValues_length _, fun k lt => by
        rw [CodeJob.blockValues_audio _ lt, CodeJob.audioValue_silence plain rfl k]⟩

end Sys2Proof.Machine


/-! PROOFS. The words of the undo store moved: loads, and the stack mirror (O51). -/

namespace Sys2Proof.Machine

-- One proof after another: the threads of many at once take more memory than the check allows.
set_option Elab.async false

/-! ## The loads of ECU (R169) -/

section

variable {p : Chip} {i : Fin 128} {l : Load}

theorem Chip.loadOf_slot (found : p.loadOf i = some l) : l.slot = i := by
  unfold Chip.loadOf at found
  exact beq_iff_eq.mp (List.find?_some (p := fun x : Load => x.slot == i) found)

/-- A load replaced by its next state is the load of its slot. -/
theorem Chip.loadOf_putLoad {l' : Load} (found : p.loadOf i = some l) (same : l'.slot = l.slot) :
    (p.putLoad l').loadOf i = some l' := by
  have slot := Chip.loadOf_slot found
  unfold Chip.loadOf at found ⊢
  unfold Chip.putLoad
  rw [List.find?_map]
  have kept : ((fun x : Load => x.slot == i) ∘ fun x => if x.slot == l'.slot then l' else x) =
      fun x => x.slot == i := by
    funext x
    dsimp only [Function.comp]
    split
    · rename_i match_
      rw [beq_iff_eq] at match_
      rw [match_]
    · rfl
  rw [kept, found, Option.map_some, if_pos (beq_iff_eq.mpr same.symm)]

theorem Chip.loadOf_dropLoad (i : Fin 128) (p : Chip) : (p.dropLoad i).loadOf i = none := by
  unfold Chip.loadOf Chip.dropLoad
  rw [List.find?_eq_none]
  intro x kept
  obtain ⟨_, other⟩ := List.mem_filter.mp kept
  simpa using other

/-- The queue test of a slot changes CE's queue alone (R57). -/
theorem Chip.queueTest_eq (i : Fin 128) (p : Chip) : p.queueTest i = { p with ce := (p.queueTest i).ce } := by
  unfold Chip.queueTest
  dsimp only
  split
  · rfl
  · split
    · rfl
    · rfl

/-- The words of a block, one by one (R163, R169). -/
theorem readWords_block (m : Memory) (start block n : Nat) :
    Memory.readWords m (wordAddrs (start + 4 * (30 * block)) n) =
      (List.range n).map fun k => m.readWord (start + 4 * (30 * block + k)) := by
  unfold Memory.readWords wordAddrs
  rw [List.map_map]
  refine List.map_congr_left fun k _ => ?_
  dsimp only [Function.comp]
  congr 1
  omega

end

/-! ## The commands -/

section

variable {s : State} {i : Fin 128} {l : Load}

theorem execLoadBlockRead_eq (found : s.toChip.loadOf i = some l) (unread : l.values = none)
    (grant : s.mp.mayGrant (.load i) = true) : execLoadBlockRead i s = .next (s.onChip fun p =>
      Chip.offer (.load i) ((p.beginGrant (.load i)).putLoad { l with
        values := some ((List.range 24).map fun k =>
          Memory.readWord s.mem (l.base + 0x100000 + 2048 * l.image.val + 4 * (30 * l.block + k))) })) := by
  unfold execLoadBlockRead
  rw [found]
  dsimp only
  rw [if_pos ⟨unread, grant⟩]
  have words := readWords_block s.mem (l.base + 0x100000 + 2048 * l.image.val) l.block 24
  unfold undoAddr
  rw [words]

theorem execLoadBlockWrite_eq (found : s.toChip.loadOf i = some l) {ws : List Word} (read : l.values = some ws)
    (grant : s.mp.mayGrant (.load i) = true) : execLoadBlockWrite i s = .next { s with
      toChip := (s.toChip.beginGrant (.load i)).loadWritten l
      mem := Memory.writeWords s.mem
        (placeWords (l.base + 0x040000 + 2048 * i.val + 4 * (30 * l.block)) ws) } := by
  obtain rfl := Chip.loadOf_slot found
  unfold execLoadBlockWrite
  rw [found]
  dsimp only
  rw [read]
  dsimp only
  rw [if_pos grant]
  rfl

end

section

variable {p : Chip} {l : Load}

theorem Chip.loadWritten_next (more : l.block < 15) : p.loadWritten l =
    (p.putLoad { l with block := l.block + 1, values := none }).offer (.load l.slot) := if_pos more

theorem Chip.loadWritten_last (last : ¬ l.block < 15) : p.loadWritten l =
    { p with
      ecu := (p.dropLoad l.slot).ecu
      ce := ((p.dropLoad l.slot).queueTest l.slot).ce } := by
  unfold Chip.loadWritten
  rw [if_neg last, Chip.queueTest_eq]
  rfl

end

/-- Settles O51: a load's read keeps its words, its write stores them, and after block 15 the load is gone and the queue
test made (R57). -/
theorem loadsAndMirrorStore : Obligations.LoadsAndMirrorStore := by
  unfold Obligations.LoadsAndMirrorStore
  constructor
  · intro s i l found grant rest
    have slot := Chip.loadOf_slot found
    refine ⟨fun unread => ?_, fun ws read bound wf => ?_⟩
    · exact ⟨_, execLoadBlockRead_eq found unread grant, ⟨rfl, rfl, rfl, rfl, rfl, rfl, rfl⟩, rfl,
        Chip.offers_offer _ _,
        Chip.loadOf_putLoad (p := s.toChip.beginGrant (.load i)) found rfl⟩
    · have stored := stored_placeWords s.mem (l.base + 0x040000 + 2048 * i.val + 4 * (30 * l.block)) ws wf
      by_cases more : l.block < 15
      · refine ⟨_, execLoadBlockWrite_eq found read grant, ?_⟩
        rw [Chip.loadWritten_next more, slot]
        exact ⟨⟨rfl, rfl, rfl, rfl, rfl, rfl, rfl⟩, stored, fun _ => ⟨rfl, Chip.offers_offer _ _,
          Chip.loadOf_putLoad (p := s.toChip.beginGrant (.load i)) found slot.symm⟩, fun last => absurd more (by omega)⟩
      · refine ⟨_, execLoadBlockWrite_eq found read grant, ?_⟩
        rw [Chip.loadWritten_last more, slot]
        refine ⟨⟨rfl, rfl, rfl, rfl, rfl, rfl, rfl⟩, stored, fun less => absurd less more, fun _ =>
          ⟨Chip.loadOf_dropLoad i _, fun r run revert claimed closed => ?_⟩⟩
        refine Chip.queueTest_queues (p := (s.toChip.beginGrant (.load i)).dropLoad i) run claimed closed ?_
        unfold Chip.mayCode
        rw [revert]
        dsimp only
        rw [Chip.loadOf_dropLoad]
        rfl
  · intro s ws front grant wf apart
    have answer : exec .stackMirrorWrite s = .next { s with
        toChip := s.toChip.beginGrant (.mirror ws), mem := Memory.writeWords s.mem ws } := by
      show execStackMirrorWrite s = _
      unfold execStackMirrorWrite
      rw [front]
      exact if_pos grant
    exact ⟨_, answer, stored_writeWords s.mem ws wf apart, rfl, rfl, rfl, rfl, rfl, rfl, rfl, rfl⟩

end Sys2Proof.Machine


/-! PROOFS. A decided block stored, and what follows it (O45). -/

namespace Sys2Proof.Machine

-- One proof after another: the threads of many at once take more memory than the check allows.
set_option Elab.async false

/-! ## What a report of status leaves (R35) -/

/-- A report of status changes the dirty set, what it holds and its request's id alone. -/
theorem Chip.noteStatus_cpm (p : Chip) : p.noteStatus.cpm = { p.cpm with
    statusHeld := p.noteStatus.cpm.statusHeld, dirty := p.noteStatus.cpm.dirty
    statusOffered := p.noteStatus.cpm.statusOffered, nextWrite := p.noteStatus.cpm.nextWrite } := by
  unfold Chip.noteStatus
  split
  · rfl
  · unfold Chip.markDirty
    dsimp only
    split
    · rfl
    · split
      · rfl
      · rfl

/-! ## The writes of a block (R76) -/

section

variable {j : DecodeJob} {ws : List Nat}

/-- The words of an image's block lie below its word 510. -/
theorem placeWords_below {start : Nat} {ws : List Word} {aw : Nat × Word} (member : aw ∈ placeWords start ws) :
    start ≤ aw.1 ∧ aw.1 + 4 ≤ start + 4 * ws.length := by
  obtain ⟨⟨w, k⟩, at_, rfl⟩ := List.mem_map.mp member
  obtain ⟨_, lt, _⟩ := List.mem_zipIdx at_
  dsimp only
  omega

theorem DecodeJob.blockWrites_apart (length : ws.length = 30) : Apart (j.blockWrites ws) := by
  unfold DecodeJob.blockWrites
  refine List.pairwise_append.mpr ⟨placeWords_apart _ _, ?_, fun x hx y hy => ?_⟩
  · split
    · exact List.pairwise_singleton _ _
    · exact .nil
  · have below := placeWords_below hx
    rw [List.length_map, length] at below
    split at hy
    · cases List.mem_singleton.mp hy
      rename_i first
      simp only [playbackAddr, first] at below ⊢
      omega
    · cases hy

end

theorem DecodeJob.blockWrites_eq (j : DecodeJob) (ws : List Nat) : j.blockWrites ws =
    placeWords (j.base + 2048 * j.slot.val + 4 * (30 * j.block)) (ws.map word) ++
      (if j.block = 0 then [(j.base + 2048 * j.slot.val + 4 * 510, word j.segment)] else []) := by
  unfold DecodeJob.blockWrites playbackAddr summaryWord bitOf
  rfl

/-! ## The aux recovered (R43, R44) -/

section

variable {j : DecodeJob} {p : Chip}

theorem Chip.noteAux_reports (j : DecodeJob) (p : Chip) : p.Reports (p.noteAux j) := by
  have mismatched : p.Reports (if mismatchedBlocks j.segment j.aux = 0 then p
      else p.raise (.tMismatch j.segment (mismatchedBlocks j.segment j.aux))) := by
    split
    · exact .refl p
    · exact Chip.raise_reports _ p
  unfold Chip.noteAux
  dsimp only
  split
  · exact mismatched.trans (Chip.raise_reports _ _)
  · exact mismatched

theorem Chip.noteAux_mismatch (isReady : p.cpm.partState = .ready) (room : p.RingRoom)
    (wrong : mismatchedBlocks j.segment j.aux ≠ 0) :
    p.Raises (p.noteAux j) (.tMismatch j.segment (mismatchedBlocks j.segment j.aux)) := by
  have raised := Chip.raise_raises (.tMismatch j.segment (mismatchedBlocks j.segment j.aux)) p isReady room
  unfold Chip.noteAux
  dsimp only
  rw [if_neg wrong]
  split
  · exact (Chip.raise_reports _ _).raises raised
  · exact raised

theorem Chip.noteAux_lost (isReady : p.cpm.partState = .ready) (room : p.RingRoom)
    (whole : mismatchedBlocks j.segment j.aux = 0) (lost : recoverAux j.segment j.aux = .unrecovered) :
    p.Raises (p.noteAux j) (.auxLost j.segment (unqualifiedBlocks j.segment j.aux)) := by
  have raised := Chip.raise_raises (.auxLost j.segment (unqualifiedBlocks j.segment j.aux)) p isReady room
  unfold Chip.noteAux
  dsimp only
  rw [if_pos whole, lost]
  exact raised

/-- The item before its final write. -/
def DecodeJob.closing (j : DecodeJob) : DecodeJob :=
  { j with stage := .finalWrite, recovered := recoverAux j.segment j.aux }

theorem Chip.decodeAdvance_next (more : j.block < 15) : p.decodeAdvance j =
    (p.setJob (some (.decode { j with block := j.block + 1, stage := .blockRead }))).offer .codeEngine := if_pos more

theorem Chip.decodeAdvance_last (last : ¬ j.block < 15) (live : j.void = false) : p.decodeAdvance j =
    ((p.noteAux j).setJob (some (.decode j.closing))).offer .codeEngine := by
  unfold Chip.decodeAdvance
  dsimp only
  rw [if_neg last, if_neg (by rw [live]; decide)]
  rfl

end

theorem execDecodeBlockWrite_eq {s : State} {j : DecodeJob} {ws : List Nat} (job : s.ce.job = some (.decode j))
    (stage : j.stage = .blockWrite ws) (grant : s.mp.mayGrant .codeEngine = true) :
    execDecodeBlockWrite s = .next { s with
      toChip := ((s.toChip.beginGrant .codeEngine).decodeAdvance j).noteStatus
      mem := Memory.writeWords s.mem (j.blockWrites ws) } := by
  unfold execDecodeBlockWrite
  rw [job]
  dsimp only
  rw [stage]
  exact if_pos grant

/-- Settles O45: the block is stored with its summary word, and `Chip.noteAux` after block 15 reports alone. -/
theorem decodeBlockWriteStores : Obligations.DecodeBlockWriteStores := by
  unfold Obligations.DecodeBlockWriteStores
  intro s j ws job stage length live bound grant wf image recovered wrong
  have stored : Stored s.mem (Memory.writeWords s.mem (j.blockWrites ws)) (j.blockWrites ws) :=
    stored_writeWords s.mem _ wf (DecodeJob.blockWrites_apart length)
  rw [DecodeJob.blockWrites_eq] at stored
  have answer := execDecodeBlockWrite_eq job stage grant
  rw [DecodeJob.blockWrites_eq] at answer
  refine ⟨_, answer, stored, ?_⟩
  by_cases more : j.block < 15
  · rw [Chip.decodeAdvance_next more]
    have status := Chip.noteStatus_reports (((s.toChip.beginGrant .codeEngine).setJob
      (some (.decode { j with block := j.block + 1, stage := .blockRead }))).offer .codeEngine)
    exact ⟨status.offers _ (Chip.offers_offer _ _),
      fun _ => ⟨(congrArg Ce.job status.ce).trans rfl, Chip.noteStatus_cpm _⟩,
      fun last => absurd more (by omega), status.cpm, (congrArg Ce.queue status.ce).trans rfl, status.slots,
      status.cu, status.rc,
      status.ecu, status.dlc, status.lbp⟩
  · rw [Chip.decodeAdvance_last more live]
    have aux := Chip.noteAux_reports j (s.toChip.beginGrant .codeEngine)
    have mismatch := Chip.noteAux_mismatch (j := j) (p := s.toChip.beginGrant .codeEngine)
    have lost := Chip.noteAux_lost (j := j) (p := s.toChip.beginGrant .codeEngine)
    have status := Chip.noteStatus_reports ((((s.toChip.beginGrant .codeEngine).noteAux j).setJob
      (some (.decode j.closing))).offer .codeEngine)
    have offered {n : Notice} (raised : (s.toChip.beginGrant .codeEngine).Raises
        ((s.toChip.beginGrant .codeEngine).noteAux j) n) := status.raises ((Chip.offer_reports .codeEngine
          (((s.toChip.beginGrant .codeEngine).noteAux j).setJob (some (.decode j.closing)))).raises raised)
    have kept : ((s.toChip.beginGrant .codeEngine).noteAux j).ce.queue = s.ce.queue := congrArg Ce.queue aux.ce
    have queue := (congrArg Ce.queue status.ce).trans kept
    exact ⟨status.offers _ (Chip.offers_offer _ _), fun less => absurd less more,
      fun _ => ⟨(congrArg Ce.job status.ce).trans rfl, fun isReady room bad => offered (mismatch isReady room bad),
        fun isReady room whole unrecovered => offered (lost isReady room whole unrecovered)⟩,
      aux.cpm.trans status.cpm, queue, status.slots.trans aux.slots, status.cu.trans aux.cu,
      status.rc.trans aux.rc, status.ecu.trans aux.ecu, status.dlc.trans aux.dlc, status.lbp.trans aux.lbp⟩

end Sys2Proof.Machine


/-! PROOFS. A staged row placed, overrun or dropped (O38). -/

namespace Sys2Proof.Machine

-- One proof after another: the threads of many at once take more memory than the check allows.
set_option Elab.async false

/-! ## The rows a run takes (R51) -/

/-- A position of a run is that of the segment it holds (R47). -/
theorem RunRecord.positionOf_eq {r : RunRecord} {segment q : Nat} : r.positionOf segment = some q ↔
    q < r.length ∧ if r.backward then segment + q = r.t0 else segment = r.t0 + q := by
  unfold RunRecord.positionOf
  dsimp only
  cases r.backward with
  | true =>
    rw [if_pos rfl, if_pos rfl]
    by_cases inside : segment ≤ r.t0
    · rw [if_pos inside]
      dsimp only
      rw [Option.ite_none_right_eq_some, Option.some.injEq]
      omega
    · rw [if_neg inside]
      constructor
      · intro none
        cases none
      · omega
  | false =>
    simp only [Bool.false_eq_true, if_false]
    by_cases inside : r.t0 ≤ segment
    · rw [if_pos inside]
      dsimp only
      rw [Option.ite_none_right_eq_some, Option.some.injEq]
      omega
    · rw [if_neg inside]
      constructor
      · intro none
        cases none
      · omega

theorem RunRecord.inWindow_iff {r : RunRecord} {q : Nat} :
    r.inWindow q = true ↔ r.windowBase ≤ q ∧ q < r.windowBase + 256 ∧ q < r.length := by
  unfold RunRecord.inWindow
  rw [Bool.and_eq_true, Bool.and_eq_true, decide_eq_true_iff, decide_eq_true_iff, decide_eq_true_iff, and_assoc]

theorem Chip.takesRows_iff {p : Chip} {segment : Nat} : p.takesRows segment = true ↔
    ∃ r q, p.rc = ⟨.active, some r⟩ ∧ (r.kind = .play ∨ r.kind = .edit) ∧ q < r.length ∧ r.windowBase ≤ q ∧
      q < r.windowBase + 256 ∧ (if r.backward then segment + q = r.t0 else segment = r.t0 + q) := by
  unfold Chip.takesRows
  constructor
  · intro taken
    split at taken
    · cases taken
    · rename_i r run
      obtain ⟨taken, window⟩ := Bool.and_eq_true_iff.mp taken
      obtain ⟨active, kind⟩ := Bool.and_eq_true_iff.mp taken
      rw [Bool.or_eq_true, beq_iff_eq, beq_iff_eq] at kind
      split at window
      · rename_i q place
        obtain ⟨lt, segment⟩ := RunRecord.positionOf_eq.mp place
        obtain ⟨above, below, -⟩ := RunRecord.inWindow_iff.mp window
        refine ⟨r, q, ?_, kind, lt, above, below, segment⟩
        rw [← run, ← beq_iff_eq.mp active]
      · cases window
  · rintro ⟨r, q, rc, kind, lt, above, below, segment⟩
    have place : r.positionOf _ = some q := RunRecord.positionOf_eq.mpr ⟨lt, segment⟩
    rw [rc]
    dsimp only
    rw [place]
    dsimp only
    rw [RunRecord.inWindow_iff.mpr ⟨above, below, lt⟩]
    obtain play | edit := kind
    · rw [play]
      rfl
    · rw [edit]
      rfl

/-! ## The decision on a row (R51, R52) -/

section

variable {p : Chip} {row : StagedRow}

theorem Chip.decideRow_accepted (taken : p.takesRows row.segment = true)
    (claimed : (p.slot (slotOf row.segment)).claimed = true)
    (same : (p.slot (slotOf row.segment)).segment = row.segment)
    (coming : (p.slot (slotOf row.segment)).play = .empty ∨ (p.slot (slotOf row.segment)).play = .arriving)
    (notIn : (p.slot (slotOf row.segment)).rows[Fin.ofNat 30 row.row] = .notIn) : p.decideRow row = .accepted := by
  unfold Chip.decideRow
  dsimp only
  rw [taken, if_neg (by decide), if_neg fun other => other.2 same, if_pos ⟨claimed, coming, notIn⟩]

theorem Chip.decideRow_overrun (taken : p.takesRows row.segment = true)
    (claimed : (p.slot (slotOf row.segment)).claimed = true)
    (other : (p.slot (slotOf row.segment)).segment ≠ row.segment) : p.decideRow row = .overrun := by
  unfold Chip.decideRow
  dsimp only
  rw [taken, if_neg (by decide), if_pos ⟨claimed, other⟩]

theorem Chip.decideRow_dropped (dropped : p.takesRows row.segment = false ∨
      (p.slot (slotOf row.segment)).claimed = false ∨ ((p.slot (slotOf row.segment)).segment = row.segment ∧
        ((p.slot (slotOf row.segment)).play = .checking ∨ (p.slot (slotOf row.segment)).play = .ready ∨
          (p.slot (slotOf row.segment)).rows[Fin.ofNat 30 row.row] ≠ .notIn))) :
    p.decideRow row = .outOfWindow ∨ p.decideRow row = .late := by
  unfold Chip.decideRow
  dsimp only
  by_cases outside : p.takesRows row.segment = false
  · exact .inl (if_pos outside)
  · rw [if_neg outside]
    right
    obtain out | free | ⟨same, late⟩ := dropped
    · exact absurd out outside
    · rw [if_neg fun h => absurd (free.symm.trans h.1) (by decide),
        if_neg fun h => absurd (free.symm.trans h.1) (by decide)]
    · rw [if_neg fun h => h.2 same, if_neg]
      rintro ⟨-, coming, notIn⟩
      obtain checking | ready | isIn := late
      · rw [checking] at coming
        simp at coming
      · rw [ready] at coming
        simp at coming
      · exact isIn notIn

theorem Chip.stageRow_accepted (decided : p.decideRow row = .accepted) : p.stageRow row = p.acceptRow row := by
  unfold Chip.stageRow
  rw [decided]

theorem Chip.stageRow_overrun (decided : p.decideRow row = .overrun) : p.stageRow row = p.noteOverrun row := by
  unfold Chip.stageRow
  rw [decided]

theorem Chip.stageRow_dropped (decided : p.decideRow row = .outOfWindow ∨ p.decideRow row = .late) :
    p.stageRow row = p := by
  unfold Chip.stageRow
  obtain outside | late := decided
  · rw [outside]
  · rw [late]

/-! ## An accepted row (R51, R53) -/

/-- A slot one row of which has arrived. -/
def Slot.withRow (row : StagedRow) (x : Slot) : Slot :=
  { x with rows := x.rows.set (Fin.ofNat 30 row.row) (.arrived row.void row.mask), play := .arriving }

theorem Slot.allIn_iff {x : Slot} : x.allIn = true ↔ ∀ r : Fin 30, x.rows[r] ≠ .notIn := by
  unfold Slot.allIn
  rw [List.all_eq_true]
  exact ⟨fun h r => bne_iff_ne.mp (h r (List.mem_finRange r)), fun h r _ => bne_iff_ne.mpr (h r)⟩

theorem Chip.acceptRow_eq (row : StagedRow) (p : Chip) : p.acceptRow row =
    if ((p.slot (slotOf row.segment)).withRow row).allIn then
      (p.modSlot (slotOf row.segment) (Slot.withRow row)).queueDecode (slotOf row.segment)
    else p.modSlot (slotOf row.segment) (Slot.withRow row) := by
  have slot := Chip.slot_modSlot_same (slotOf row.segment) (Slot.withRow row) p
  rw [← slot]
  rfl

/-- What an accepted row leaves: its slot, and CE's queue once it is the last. -/
structure Chip.Accepts (row : StagedRow) (a b : Chip) : Prop where
  lbp : b.lbp = a.lbp
  cu : b.cu = a.cu
  rc : b.rc = a.rc
  ecu : b.ecu = a.ecu
  dlc : b.dlc = a.dlc
  counter : ∀ c, b.counter c = a.counter c
  others : ∀ k, k ≠ slotOf row.segment → b.slot k = a.slot k
  partly : ¬(∀ r : Fin 30, ((a.slot (slotOf row.segment)).withRow row).rows[r] ≠ .notIn) →
    b.slot (slotOf row.segment) = (a.slot (slotOf row.segment)).withRow row ∧ b.ce = a.ce
  wholly : (∀ r : Fin 30, ((a.slot (slotOf row.segment)).withRow row).rows[r] ≠ .notIn) →
    b.slot (slotOf row.segment) = { (a.slot (slotOf row.segment)).withRow row with play := .checking } ∧
      b.ce = { a.ce with queue := a.ce.queue ++ [⟨.decode (slotOf row.segment)
        (a.slot (slotOf row.segment)).segment (a.slot (slotOf row.segment)).serial
        ((a.slot (slotOf row.segment)).withRow row).rows, a.event⟩] }

theorem Chip.acceptRow_accepts (row : StagedRow) (p : Chip) : p.Accepts row (p.acceptRow row) := by
  have slot := Chip.slot_modSlot_same (slotOf row.segment) (Slot.withRow row) p
  have others (k : Fin 128) (other : k ≠ slotOf row.segment) :=
    Chip.slot_modSlot_other (Slot.withRow row) p other
  rw [Chip.acceptRow_eq]
  by_cases all : ((p.slot (slotOf row.segment)).withRow row).allIn
  · rw [if_pos all]
    unfold Chip.queueDecode
    rw [slot]
    refine ⟨rfl, rfl, rfl, rfl, rfl, fun _ => rfl, fun k other => ?_, fun some => absurd (Slot.allIn_iff.mp all) some,
      fun _ => ⟨?_, rfl⟩⟩
    · exact (Chip.slot_setSlot_other _ (p.modSlot (slotOf row.segment) (Slot.withRow row)) other).trans (others k other)
    · exact Chip.slot_setSlot_same _ _ (p.modSlot (slotOf row.segment) (Slot.withRow row))
  · rw [if_neg all]
    exact ⟨rfl, rfl, rfl, rfl, rfl, fun _ => rfl, others, fun _ => ⟨slot, rfl⟩,
      fun whole => absurd (Slot.allIn_iff.mpr whole) all⟩

theorem rowWrites_apart (base : Nat) (row : StagedRow) : Apart (rowWrites base row) := by
  unfold rowWrites Apart
  rw [List.pairwise_map, List.pairwise_iff_getElem]
  intro i j hi hj less
  simp only [List.getElem_zipIdx, playbackAddr, rowImageWord]
  omega

/-! ## The row leaves the FIFO (R98, R99) -/

/-- The FIFO's head gone and its credit released: the link alone changes, besides the request for the next row. -/
theorem Chip.unstage_eq (rest : List StagedRow) (p : Chip) : p.unstage rest = { p with
    dlc := { p.dlc with staging := rest, released := p.dlc.released + 1, lane := (p.unstage rest).dlc.lane }
    mp := (p.unstage rest).mp } := by
  unfold Chip.unstage Chip.releaseCredit Chip.handGrant
  dsimp only
  split
  · split
    · split
      · rfl
      · rfl
    · rfl
  · split
    · split
      · rfl
      · rfl
    · rfl

theorem Chip.releaseCredit_grants (enough : 8 ≤ p.dlc.released + 1) :
    .grant ∈ p.releaseCredit.dlc.lane.map LaneEntry.frame := by
  unfold Chip.releaseCredit
  dsimp only
  rw [if_pos (show Config.grantThreshold ≤ p.dlc.released + 1 from enough)]
  unfold Chip.handGrant
  split
  · rename_i waits
    obtain ⟨e, member, grant⟩ := List.any_eq_true.mp waits
    exact List.mem_map.mpr ⟨e, member, beq_iff_eq.mp grant⟩
  · exact List.mem_map.mpr ⟨⟨.grant, p.event⟩, List.mem_append_right _ (List.mem_singleton.mpr rfl), rfl⟩

theorem Chip.unstage_grants {rest : List StagedRow} (enough : 8 ≤ p.dlc.released + 1) :
    .grant ∈ (p.unstage rest).dlc.lane.map LaneEntry.frame := by
  have granted := Chip.releaseCredit_grants (p := { p with dlc := { p.dlc with staging := rest } }) enough
  unfold Chip.unstage
  dsimp only
  split
  · exact granted
  · exact granted

theorem Chip.unstage_offers {rest : List StagedRow} (more : rest ≠ []) : (p.unstage rest).Offers .staging := by
  unfold Chip.unstage
  dsimp only
  rw [if_neg (by simpa using more)]
  exact Chip.offers_offer _ _

theorem Chip.unstage_mono {rest : List StagedRow} {r : Req} (offered : p.Offers r) : (p.unstage rest).Offers r := by
  have released : ({ p with dlc := { p.dlc with staging := rest } } : Chip).releaseCredit.Offers r := by
    unfold Chip.releaseCredit Chip.handGrant
    dsimp only
    split
    · split
      · exact offered
      · exact offered
    · exact offered
  unfold Chip.unstage
  dsimp only
  split
  · exact released
  · exact Chip.offers_mono _ released

end

/-! ## An overrun (R52) -/

section

variable {p : Chip} {row : StagedRow}

/-- The record of an overrun row: it joins a record of its segment, and replaces another (log 44). -/
def StagedRow.overrunSet (row : StagedRow) (old : Option (Nat × BitVec 30)) : BitVec 30 :=
  match old with
  | some (t, set) =>
    if t = row.segment then set ||| BitVec.ofNat 30 (2 ^ row.row) else BitVec.ofNat 30 (2 ^ row.row)
  | none => BitVec.ofNat 30 (2 ^ row.row)

theorem StagedRow.overrunSet_joins (row : StagedRow) (set : BitVec 30) :
    row.overrunSet (some (row.segment, set)) = set ||| BitVec.ofNat 30 (2 ^ row.row) := if_pos rfl

theorem StagedRow.overrunSet_fresh {row : StagedRow} {old : Option (Nat × BitVec 30)}
    (fresh : ∀ set, old ≠ some (row.segment, set)) : row.overrunSet old = BitVec.ofNat 30 (2 ^ row.row) := by
  unfold StagedRow.overrunSet
  split
  · rename_i t set
    exact if_neg fun same => fresh set (by rw [same])
  · rfl

theorem StagedRow.overrunSet_spec (row : StagedRow) (inside : row.row < 30) (old : Option (Nat × BitVec 30)) (k : Nat) :
    (row.overrunSet old).getLsbD k = (k == row.row || (match old with
      | some (other, set) => other == row.segment && set.getLsbD k
      | none => false)) := by
  have bit : (BitVec.ofNat 30 (2 ^ row.row)).getLsbD k = (k == row.row) := by
    rw [BitVec.getLsbD_ofNat, Nat.testBit_two_pow]
    by_cases same : row.row = k
    · subst same
      simp [inside]
    · rw [decide_eq_false same, Bool.and_false, beq_eq_false_iff_ne.mpr (Ne.symm same)]
  unfold StagedRow.overrunSet
  split
  · rename_i t set
    split
    · rename_i same
      rw [BitVec.getLsbD_or, bit, beq_iff_eq.mpr same, Bool.true_and, Bool.or_comm]
    · rename_i other
      rw [bit, beq_eq_false_iff_ne.mpr other, Bool.false_and, Bool.or_false]
  · rw [bit, Bool.or_false]

/-- The slot's overrun record set. -/
def Slot.overrunBy (row : StagedRow) (x : Slot) : Slot :=
  { x with overrun := some (row.segment, row.overrunSet x.overrun) }

/-- The part with an overrun row recorded and counted. -/
def Chip.overrunNoted (row : StagedRow) (p : Chip) : Chip :=
  (p.bump .overrun 1).modSlot (slotOf row.segment) (Slot.overrunBy row)

theorem Chip.noteOverrun_eq (row : StagedRow) (p : Chip) :
    (p.noteOverrun row = p.overrunNoted row ∧ ∃ set, (p.slot (slotOf row.segment)).overrun = some (row.segment, set)) ∨
      p.noteOverrun row = (p.overrunNoted row).raise
        (.overrun row.segment (slotOf row.segment).val (p.slot (slotOf row.segment)).segment) := by
  have joined (set : BitVec 30) (record : (p.slot (slotOf row.segment)).overrun = some (row.segment, set)) :
      p.overrunNoted row = (p.bump .overrun 1).modSlot (slotOf row.segment) fun x =>
        { x with overrun := some (row.segment, set ||| BitVec.ofNat 30 (2 ^ row.row)) } := by
    have joins := StagedRow.overrunSet_joins row set
    rw [← record] at joins
    rw [← joins]
    rfl
  have fresh (other : ∀ set, (p.slot (slotOf row.segment)).overrun ≠ some (row.segment, set)) :
      p.overrunNoted row = (p.bump .overrun 1).modSlot (slotOf row.segment) fun x =>
        { x with overrun := some (row.segment, BitVec.ofNat 30 (2 ^ row.row)) } := by
    rw [← StagedRow.overrunSet_fresh other]
    rfl
  cases record : (p.slot (slotOf row.segment)).overrun with
  | none =>
    refine .inr ?_
    rw [fresh fun set => by rw [record]; exact nofun]
    unfold Chip.noteOverrun
    dsimp only
    rw [show ((p.bump .overrun 1).slot (slotOf row.segment)).overrun = none from record]
    rfl
  | some old =>
    obtain ⟨t, set⟩ := old
    by_cases same : t = row.segment
    · subst same
      refine .inl ⟨?_, set, rfl⟩
      rw [joined set record]
      unfold Chip.noteOverrun
      dsimp only
      rw [show ((p.bump .overrun 1).slot (slotOf row.segment)).overrun = some (row.segment, set) from record]
      exact if_pos rfl
    · refine .inr ?_
      rw [fresh fun set' => by rw [record]; exact fun eq => same (by cases eq; rfl)]
      unfold Chip.noteOverrun
      dsimp only
      rw [show ((p.bump .overrun 1).slot (slotOf row.segment)).overrun = some (t, set) from record]
      exact if_neg same

theorem Chip.noteOverrun_reports (row : StagedRow) (p : Chip) : (p.overrunNoted row).Reports (p.noteOverrun row) := by
  obtain ⟨noted, -⟩ | raised := Chip.noteOverrun_eq row p
  · rw [noted]
    exact .refl _
  · rw [raised]
    exact Chip.raise_reports _ _

theorem Chip.noteOverrun_raises (isReady : p.cpm.partState = .ready) (room : p.RingRoom)
    (fresh : ∀ set, (p.slot (slotOf row.segment)).overrun ≠ some (row.segment, set)) : p.Raises (p.noteOverrun row)
      (.overrun row.segment (slotOf row.segment).val (p.slot (slotOf row.segment)).segment) := by
  obtain ⟨-, set, record⟩ | raised := Chip.noteOverrun_eq row p
  · exact absurd record (fresh set)
  · rw [raised]
    exact Chip.raise_raises _ (p.overrunNoted row) isReady room

end

/-! ## The command -/

section

variable {s : State} {row : StagedRow} {rest : List StagedRow}

theorem execStagingWrite_eq (head : s.dlc.staging = row :: rest) (grant : s.mp.mayGrant .staging = true) :
    execStagingWrite s = .next { s with
      toChip := (((s.toChip.beginGrant .staging).stageRow row).unstage rest).noteStatus
      mem := Memory.writeWords s.mem (s.toChip.stagedWrites row) } := by
  unfold execStagingWrite
  rw [head]
  exact if_pos grant

/-- What every staging grant leaves: the row has left the FIFO and its credit is released. -/
structure State.Unstaged (s : State) (rest : List StagedRow) (q t : Chip) : Prop where
  staging : t.dlc.staging = rest
  released : t.dlc.released = s.dlc.released + 1
  next : rest ≠ [] → t.Offers .staging
  grant : 8 ≤ s.dlc.released + 1 → .grant ∈ t.dlc.lane.map LaneEntry.frame
  dlc : t.dlc = { s.dlc with staging := rest, released := t.dlc.released, lane := t.dlc.lane }
  lbp : t.lbp = q.lbp
  cu : t.cu = q.cu
  rc : t.rc = q.rc
  ecu : t.ecu = q.ecu
  slots : t.slots = q.slots
  ce : t.ce = q.ce
  counter : ∀ c, t.counter c = q.counter c
  raises : ∀ (b : Chip) (n : Notice), b.Raises q n → b.Raises t n

theorem State.unstaged {q : Chip} (link : q.dlc = s.dlc) : s.Unstaged rest q (q.unstage rest).noteStatus := by
  have status := Chip.noteStatus_reports (q.unstage rest)
  have eq := Chip.unstage_eq rest q
  have dlc : (q.unstage rest).noteStatus.dlc = { s.dlc with
      staging := rest, released := s.dlc.released + 1, lane := (q.unstage rest).dlc.lane } := by
    rw [status.dlc, eq, link]
  refine ⟨congrArg Dlc.staging dlc, congrArg Dlc.released dlc, fun more => status.offers _ (Chip.unstage_offers more),
    fun enough => ?_, ?_, status.lbp.trans (by rw [eq]), status.cu.trans (by rw [eq]),
    status.rc.trans (by rw [eq]), status.ecu.trans (by rw [eq]),
    status.slots.trans (by rw [eq]), status.ce.trans (by rw [eq]), fun c => ?_,
    fun b n ⟨id, index, new, offered⟩ => ⟨id, index, new, status.offers _ (Chip.unstage_mono offered)⟩⟩
  · rw [dlc]
    exact Chip.unstage_grants (by rw [link]; exact enough)
  · rw [dlc]
  · rw [status.counter]
    unfold Chip.counter
    rw [eq]

end

/-- Settles O38: `Chip.decideRow` by its branches, and the credit's release beside each (R98). -/
theorem stagingWriteTakesTheHead : Obligations.StagingWriteTakesTheHead := by
  unfold Obligations.StagingWriteTakesTheHead
  intro s row rest head grant wf inside i x taken common
  have answer := execStagingWrite_eq head grant
  have commonOf {q t : Chip} (u : s.Unstaged rest q t) (lbp : q.lbp = s.lbp) (cu : q.cu = s.cu) (rc : q.rc = s.rc)
      (ecu : q.ecu = s.ecu) (slots : ∀ k, k ≠ i → q.slot k = s.toChip.slot k) (m : Memory) :
      common { s with toChip := t, mem := m } :=
    ⟨u.staging, u.released, u.next, u.grant, u.dlc, u.lbp.trans lbp, u.cu.trans cu, u.rc.trans rc, u.ecu.trans ecu,
      fun k other => (show t.slot k = q.slot k by unfold Chip.slot; rw [u.slots]).trans (slots k other)⟩
  refine ⟨Chip.takesRows_iff, ?_, ?_, ?_⟩
  · intro taken claimed same coming notIn rows
    have decided : s.toChip.decideRow row = .accepted := Chip.decideRow_accepted taken claimed same coming notIn
    have staged : (s.toChip.beginGrant .staging).stageRow row = (s.toChip.beginGrant .staging).acceptRow row :=
      Chip.stageRow_accepted decided
    have writes : s.toChip.stagedWrites row = rowWrites s.cpm.map.privateBase row := by
      unfold Chip.stagedWrites
      rw [decided]
    rw [staged, writes] at answer
    have accepted := Chip.acceptRow_accepts row (s.toChip.beginGrant .staging)
    have u := State.unstaged (s := s) (rest := rest) (q := (s.toChip.beginGrant .staging).acceptRow row) accepted.dlc
    have slot : ((((s.toChip.beginGrant .staging).acceptRow row).unstage rest).noteStatus).slot i =
        ((s.toChip.beginGrant .staging).acceptRow row).slot i := by
      unfold Chip.slot
      rw [u.slots]
    refine ⟨_, answer, commonOf u accepted.lbp accepted.cu accepted.rc accepted.ecu accepted.others _,
      stored_writeWords s.mem _ wf (rowWrites_apart _ row), fun ⟨r, missing⟩ => ?_, fun all => ?_, fun c => ?_⟩
    · obtain ⟨same, ce⟩ := accepted.partly fun all => all r missing
      exact ⟨slot.trans same, u.ce.trans ce⟩
    · obtain ⟨checking, ce⟩ := accepted.wholly all
      refine ⟨slot.trans checking, (s.toChip.beginGrant .staging).event, u.ce.trans (ce.trans ?_)⟩
      have held : ((s.toChip.beginGrant .staging).slot (slotOf row.segment)).segment = row.segment := same
      rw [held]
      rfl
    · exact (u.counter c).trans (accepted.counter c)
  · intro taken claimed other
    have decided : s.toChip.decideRow row = .overrun := Chip.decideRow_overrun taken claimed other
    have staged : (s.toChip.beginGrant .staging).stageRow row = (s.toChip.beginGrant .staging).noteOverrun row :=
      Chip.stageRow_overrun decided
    have writes : s.toChip.stagedWrites row = [] := by
      unfold Chip.stagedWrites
      rw [decided]
    rw [staged, writes] at answer
    have noted := Chip.noteOverrun_reports row (s.toChip.beginGrant .staging)
    have raises := Chip.noteOverrun_raises (row := row) (p := s.toChip.beginGrant .staging)
    have u := State.unstaged (s := s) (rest := rest) (q := (s.toChip.beginGrant .staging).noteOverrun row) noted.dlc
    have others (k : Fin 128) (ne : k ≠ i) :
        ((s.toChip.beginGrant .staging).noteOverrun row).slot k = s.toChip.slot k :=
      (noted.slot k).trans (Chip.slot_modSlot_other _ _ ne)
    have slot : ((((s.toChip.beginGrant .staging).noteOverrun row).unstage rest).noteStatus).slot i =
        x.overrunBy row := by
      calc _ = ((s.toChip.beginGrant .staging).noteOverrun row).slot i := by
            unfold Chip.slot
            rw [u.slots]
        _ = ((s.toChip.beginGrant .staging).overrunNoted row).slot i := noted.slot i
        _ = x.overrunBy row := Chip.slot_modSlot_same i _ _
    refine ⟨_, answer, commonOf u noted.lbp noted.cu noted.rc noted.ecu others _, rfl, u.ce.trans noted.ce,
      ⟨?_, fun k ne => ?_⟩, ⟨_, slot, fun k => StagedRow.overrunSet_spec row inside x.overrun k⟩,
      fun isReady fresh room => u.raises _ _ (raises isReady room fresh)⟩
    · exact (u.counter _).trans ((noted.counter _).trans (Chip.counter_bump_same .overrun 1 _))
    · exact (u.counter k).trans ((noted.counter k).trans (Chip.counter_bump_other 1 _ ne))
  · intro dropped
    have decided := Chip.decideRow_dropped dropped
    have staged : (s.toChip.beginGrant .staging).stageRow row = s.toChip.beginGrant .staging :=
      Chip.stageRow_dropped decided
    have writes : s.toChip.stagedWrites row = [] := by
      unfold Chip.stagedWrites
      obtain outside | late := decided
      · rw [outside]
      · rw [late]
    rw [staged, writes] at answer
    have u := State.unstaged (s := s) (rest := rest) (q := s.toChip.beginGrant .staging) rfl
    exact ⟨_, answer, commonOf u rfl rfl rfl rfl (fun _ _ => rfl) _, rfl, u.ce, u.slots, u.counter⟩

end Sys2Proof.Machine


/-! PROOFS. What follows an event (R48, R89, R120): what it leaves of the link, of the run record and of ECU, and the
slots it leaves alone. -/

namespace Sys2Proof.Machine

-- One proof after another: the threads of many at once take more memory than the check allows.
set_option Elab.async false

/-! ## The link (R89, R102) -/

/-- The send cursor, its OMITs and the fetch move; frames handed are OMITs. -/
structure Dlc.Moves (a b : Dlc) : Prop where
  rest : b = { a with
    lane := b.lane, cursorPos := b.cursorPos, cursorRow := b.cursorRow, omits := b.omits, fetch := b.fetch }
  lane : ∃ handed, b.lane = a.lane ++ handed ∧ ∀ e ∈ handed, ∃ t, e.frame = .omitSegment t

namespace Dlc.Moves

variable {a b d : Dlc}

theorem refl (a : Dlc) : a.Moves a := ⟨rfl, [], (List.append_nil _).symm, nofun⟩

theorem trans (h : a.Moves b) (k : b.Moves d) : a.Moves d := by
  obtain ⟨handed, lane, omits⟩ := h.lane
  obtain ⟨handed', lane', omits'⟩ := k.lane
  refine ⟨?_, handed ++ handed', ?_, fun e member => (List.mem_append.mp member).elim (omits e) (omits' e)⟩
  · have rest := k.rest
    rw [h.rest] at rest
    exact rest
  · rw [lane', lane, List.append_assoc]

/-- Only the cursor or the fetch moves. -/
theorem still (rest : b = { a with cursorPos := b.cursorPos, cursorRow := b.cursorRow, fetch := b.fetch }) :
    a.Moves b := ⟨by rw [rest], [], by rw [rest, List.append_nil], nofun⟩

theorem mem_lane (h : a.Moves b) {e : LaneEntry} (member : e ∈ a.lane) : e ∈ b.lane := by
  obtain ⟨handed, lane, -⟩ := h.lane
  exact lane ▸ List.mem_append_left _ member

/-- No ROW frame is handed. -/
theorem rows (h : a.Moves b) {e : LaneEntry} (member : e ∈ b.lane) {seq : BitVec 3} (row : e.frame.isRow seq = true) :
    e ∈ a.lane := by
  obtain ⟨handed, lane, omits⟩ := h.lane
  rw [lane] at member
  obtain old | new := List.mem_append.mp member
  · exact old
  · obtain ⟨t, frame⟩ := omits e new
    rw [frame] at row
    cases row

end Dlc.Moves

/-! ## The run record and ECU -/

/-- A run record but for what releases and settled write sides move (R47, R151). -/
def RunRecord.fixed (r : RunRecord) : RunRecord := { r with windowBase := 0, settledCount := 0 }

/-- Releases, claims and moves of the cursor: of the link they move what `Dlc.Moves` does, of the run its window and its
settled write sides, of ECU saves, loads and images. -/
structure Chip.Ensues (a b : Chip) : Prop where
  link : a.dlc.Moves b.dlc
  state : b.rc.state = a.rc.state
  run : b.rc.run.map RunRecord.fixed = a.rc.run.map RunRecord.fixed
  ecu : b.ecu = { a.ecu with
    saves := b.ecu.saves, saving := b.ecu.saving, loads := b.ecu.loads, images := b.ecu.images }
  capture : a.Offers .capture → b.Offers .capture

namespace Chip.Ensues

variable {a p q : Chip}

theorem refl (p : Chip) : p.Ensues p := ⟨.refl _, rfl, rfl, rfl, id⟩

theorem trans (h : a.Ensues p) (k : p.Ensues q) : a.Ensues q where
  link := h.link.trans k.link
  state := k.state.trans h.state
  run := k.run.trans h.run
  ecu := by
    have ecu := k.ecu
    rw [h.ecu] at ecu
    exact ecu
  capture := k.capture ∘ h.capture

/-- An update of none of it but the fetch and ECU's copies. -/
theorem still (h : a.Ensues p) (dlc : q.dlc = { p.dlc with fetch := q.dlc.fetch } := by rfl)
    (rc : q.rc = p.rc := by rfl) (ecu : q.ecu = { p.ecu with
      saves := q.ecu.saves, saving := q.ecu.saving, loads := q.ecu.loads, images := q.ecu.images } := by rfl)
    (mp : q.mp = p.mp := by rfl) : a.Ensues q :=
  h.trans ⟨.still (by rw [dlc]), by rw [rc], by rw [rc], ecu, fun offered => by
    unfold Chip.Offers
    rw [mp]
    exact offered⟩

theorem reports (h : a.Ensues p) (k : p.Reports q) : a.Ensues q :=
  h.trans ⟨.still (by rw [k.dlc]), by rw [k.rc], by rw [k.rc], by rw [k.ecu], k.offers _⟩

theorem foldl {α : Type} {f : Chip → α → Chip} (hf : ∀ q x, a.Ensues q → a.Ensues (f q x)) (l : List α)
    (h : a.Ensues p) : a.Ensues (l.foldl f p) :=
  List.foldlRecOn l f h fun q hq x _ => hf q x hq

end Chip.Ensues

section

variable {a p : Chip}

theorem Chip.offer_ensues (r : Req) (h : a.Ensues p) : a.Ensues (p.offer r) := h.reports (Chip.offer_reports r p)

theorem Chip.withdraw_ensues {r : Req} (other : Req.capture ≠ r) (h : a.Ensues p) : a.Ensues (p.withdraw r) :=
  h.trans { Chip.Ensues.refl p with capture := Chip.offers_withdraw other }

theorem Chip.raise_ensues (n : Notice) (h : a.Ensues p) : a.Ensues (p.raise n) := h.reports (Chip.raise_reports n p)

theorem Chip.modSlot_ensues (i : Fin 128) (f : Slot → Slot) (h : a.Ensues p) : a.Ensues (p.modSlot i f) := h.still

/-- A change of the run record that keeps its fixed part. -/
theorem Chip.modRun_ensues {f : RunRecord → RunRecord} (fixed : ∀ r, (f r).fixed = r.fixed) (h : a.Ensues p) :
    a.Ensues (p.modRun f) :=
  h.trans { Chip.Ensues.refl p with
    run := by
      show (p.rc.run.map f).map RunRecord.fixed = _
      rw [Option.map_map]
      exact congrArg (fun g => p.rc.run.map g) (funext fixed) }

theorem Chip.moveWindow_ensues (h : a.Ensues p) : a.Ensues p.moveWindow :=
  Chip.modRun_ensues (fun r => by unfold RunRecord.fixed; rfl) h

theorem Chip.settle_ensues (h : a.Ensues p) : a.Ensues p.settle := Chip.modRun_ensues (fun _ => rfl) h

/-! ## What serves a claim withdrawn or made void (R79, R90, R164, R169) -/

theorem Chip.decodeAdvance_ensues (j : DecodeJob) (h : a.Ensues p) : a.Ensues (p.decodeAdvance j) := by
  have noted : a.Ensues (p.noteAux j) := h.reports (Chip.noteAux_reports j p)
  unfold Chip.decodeAdvance
  dsimp only
  split
  · exact Chip.offer_ensues _ h.still
  · split
    · exact noted.still
    · exact Chip.offer_ensues _ noted.still

theorem Chip.withdrawCode_ensues (h : a.Ensues p) : a.Ensues (p.withdraw .codeEngine) :=
  Chip.withdraw_ensues (by decide) h

theorem Chip.voidDecode_ensues (i : Fin 128) (h : a.Ensues p) : a.Ensues (p.voidDecode i) := by
  have left : a.Ensues (p.unqueue (CeItem.decodes i)) := h.still
  unfold Chip.voidDecode
  dsimp only
  split
  · split
    · split
      · exact left.still
      · exact Chip.decodeAdvance_ensues _ (Chip.withdrawCode_ensues left)
      · exact (Chip.withdrawCode_ensues left).still
    · exact left
  · exact left

theorem Chip.voidCode_ensues (i : Fin 128) (h : a.Ensues p) : a.Ensues (p.voidCode i) := by
  have left : a.Ensues (p.unqueue (CeItem.codes i)) := h.still
  unfold Chip.voidCode
  dsimp only
  split
  · split
    · split
      · split
        · exact left.still
        · exact left.still
      · exact (Chip.withdrawCode_ensues left).still
    · exact left
  · exact left

theorem Chip.saveProceed_ensues (h : a.Ensues p) : a.Ensues p.saveProceed := by
  unfold Chip.saveProceed
  split
  · split
    · split
      · split
        · exact h
        · exact h.still
      · split
        · exact Chip.offer_ensues _ h.still
        · exact h
    · exact h
  · exact h

theorem Chip.voidSaving_ensues (j : SaveJob) (h : a.Ensues p) : a.Ensues (p.voidSaving j) := by
  have freed : a.Ensues (p.freeImage j.save.image) := h.still
  unfold Chip.voidSaving
  dsimp only
  split
  · exact Chip.saveProceed_ensues freed.still
  · exact Chip.withdraw_ensues (by decide) freed.still

theorem Chip.voidSave_ensues (i : Fin 128) (h : a.Ensues p) : a.Ensues (p.voidSave i) := by
  have freed : a.Ensues ((p.ecu.saves.filter fun x => x.slot == i).foldl (fun p x => p.freeImage x.image) p) :=
    .foldl (fun _ _ hq => hq.still) _ h
  rw [Chip.voidSave_eq]
  refine Chip.modSlot_ensues _ _ ?_
  unfold Chip.dropSaves
  dsimp only
  split
  · split
    · exact Chip.voidSaving_ensues _ freed.still
    · exact freed.still
  · exact freed.still

theorem Chip.voidLoad_ensues (i : Fin 128) (h : a.Ensues p) : a.Ensues (p.voidLoad i) := by
  unfold Chip.voidLoad
  split
  · exact Chip.withdraw_ensues nofun h.still
  · exact h

theorem Chip.withdrawFetchOf_ensues (i : Fin 128) (h : a.Ensues p) : a.Ensues (p.withdrawFetchOf i) := by
  unfold Chip.withdrawFetchOf Chip.withdrawFetch
  split
  · split
    · split
      · exact Chip.withdraw_ensues (by decide) h.still
      · exact h
    · exact h
  · exact h

/-! ## Releases and claims (R48 to R50, R59) -/

theorem Chip.releaseSlot_ensues (i : Fin 128) (h : a.Ensues p) : a.Ensues (p.releaseSlot i) := by
  unfold Chip.releaseSlot
  exact Chip.modSlot_ensues _ _ (Chip.withdrawFetchOf_ensues i (Chip.voidLoad_ensues i (Chip.voidSave_ensues i
    (Chip.voidCode_ensues i (Chip.voidDecode_ensues i h)))))

theorem Chip.release_ensues (i : Fin 128) (h : a.Ensues p) : a.Ensues (p.release i) :=
  Chip.moveWindow_ensues (Chip.releaseSlot_ensues i h)

theorem Chip.releaseTest_ensues (i : Fin 128) (h : a.Ensues p) : a.Ensues (p.releaseTest i) := by
  unfold Chip.releaseTest
  split
  · exact Chip.release_ensues i h
  · exact h

theorem Chip.discardWrite_ensues (i : Fin 128) (h : a.Ensues p) : a.Ensues (p.discardWrite i) := by
  unfold Chip.discardWrite
  exact Chip.modSlot_ensues _ _ (Chip.withdrawFetchOf_ensues i (Chip.voidLoad_ensues i (Chip.voidSave_ensues i
    (Chip.voidCode_ensues i h))))

theorem Chip.handOmit_ensues (segment : Nat) (h : a.Ensues p) : a.Ensues (p.handOmit segment) := by
  unfold Chip.handOmit
  split
  · refine h.trans { Chip.Ensues.refl p with link := ⟨rfl, [⟨.omitSegment segment, p.event⟩], rfl, ?_⟩ }
    intro e member
    rw [List.mem_singleton.mp member]
    exact ⟨segment, rfl⟩
  · exact h

theorem Chip.queueTest_ensues (i : Fin 128) (h : a.Ensues p) : a.Ensues (p.queueTest i) := by
  rw [Chip.queueTest_eq]
  exact h.still

theorem Chip.closeByDue_ensues (i : Fin 128) (h : a.Ensues p) : a.Ensues (p.closeByDue i) := by
  unfold Chip.closeByDue
  exact Chip.queueTest_ensues i h.still

theorem Chip.claimPassed_ensues (r : RunRecord) (i : Fin 128) (h : a.Ensues p) : a.Ensues (p.claimPassed r i) := by
  unfold Chip.claimPassed
  dsimp only
  split
  · exact h
  · exact Chip.closeByDue_ensues i h
  · split
    · exact h
    · exact Chip.settle_ensues (Chip.discardWrite_ensues i (Chip.raise_ensues _ (Chip.handOmit_ensues _ h)))
  · split
    · exact h
    · exact Chip.release_ensues i (Chip.settle_ensues (Chip.handOmit_ensues _ (Chip.discardWrite_ensues i h)))

theorem Chip.beginLoadOf_ensues (i : Fin 128) (h : a.Ensues p) : a.Ensues (p.beginLoadOf i) := by
  unfold Chip.beginLoadOf
  dsimp only
  split
  · exact Chip.offer_ensues _ h.still
  · exact h

theorem Chip.claimSlot_ensues (r : RunRecord) (q : Nat) (i : Fin 128) (h : a.Ensues p) :
    a.Ensues (p.claimSlot r q i) := by
  have claimed : a.Ensues (p.setSlot i (p.claimedSlot r q (p.slot i))) := h.still
  unfold Chip.claimSlot
  dsimp only
  generalize p.setSlot i (p.claimedSlot r q (p.slot i)) = b at claimed ⊢
  have decoding : a.Ensues (if (b.slot i).allIn then b.queueDecode i else b) := by
    split
    · exact claimed.still
    · exact claimed
  split
  · exact Chip.claimPassed_ensues r i decoding
  · exact Chip.beginLoadOf_ensues i decoding

theorem Chip.claim_ensues (q : Nat) (h : a.Ensues p) : a.Ensues (p.claim q) := by
  unfold Chip.claim
  split
  · exact h
  · dsimp only
    split
    · exact h
    · exact Chip.claimSlot_ensues _ q _ h

/-! ## The cursor (R89) -/

theorem Chip.passCursor_ensues (r : RunRecord) (h : a.Ensues p) : a.Ensues (p.passCursor r) := by
  have passed : a.Ensues { p with dlc := { p.dlc with cursorPos := p.dlc.cursorPos + 1, cursorRow := 0 } } :=
    h.trans { Chip.Ensues.refl p with link := .still rfl }
  unfold Chip.passCursor
  dsimp only
  split
  · exact Chip.release_ensues _ passed
  · exact passed

theorem Chip.cursorStep_ensues {q : Chip} (moved : p.cursorStep = some q) (h : a.Ensues p) : a.Ensues q := by
  unfold Chip.cursorStep at moved
  split at moved
  · cases moved
  · split at moved
    · cases moved
      exact Chip.passCursor_ensues _ h
    · cases moved

theorem progressLoop_ensues (n : Nat) (h : a.Ensues p) : a.Ensues (progressLoop n p) := by
  induction n generalizing p with
  | zero => exact h
  | succ n ih =>
    unfold progressLoop
    split
    · rename_i moved
      exact ih (Chip.cursorStep_ensues moved h)
    · split
      · exact ih (Chip.claim_ensues _ h)
      · exact h

theorem Chip.progress_ensues (h : a.Ensues p) : a.Ensues p.progress := by
  unfold Chip.progress
  split
  · exact h
  · exact progressLoop_ensues _ h

end

/-! ## Slots that a cursor move or a claim leaves alone -/

/-- A claimed slot whose write side is at work (R58). -/
def Slot.Busy (x : Slot) : Prop := x.claimed = true ∧ x.write ≠ .idle

section

variable {a p : Chip}

/-- A pass of the cursor works on an IDLE gap alone (R89, R168). -/
theorem Chip.passCursor_worksOnIdle (r : RunRecord) (h : a.Works (fun i => ¬(a.slot i).Busy) .underrun p) :
    a.Works (fun i => ¬(a.slot i).Busy) .underrun (p.passCursor r) := by
  unfold Chip.passCursor
  dsimp only
  split
  · rename_i gap
    obtain ⟨-, -, idle⟩ := gap
    refine Chip.release_works (fun busy => busy.2 ?_) h.update
    rw [← h.slots _ fun notBusy => notBusy busy]
    exact idle
  · exact h.update

theorem progressLoop_worksOnIdle (n : Nat) (h : a.Works (fun i => ¬(a.slot i).Busy) .underrun p) :
    a.Works (fun i => ¬(a.slot i).Busy) .underrun (progressLoop n p) := by
  induction n generalizing p with
  | zero => exact h
  | succ n ih =>
    have free : ∀ i, (p.slot i).claimed = false → ¬(a.slot i).Busy := fun i unclaimed busy => by
      rw [h.slots i fun notBusy => notBusy busy, busy.1] at unclaimed
      cases unclaimed
    unfold progressLoop
    split
    · rename_i moved
      unfold Chip.cursorStep at moved
      split at moved
      · cases moved
      · split at moved
        · cases moved
          exact ih (Chip.passCursor_worksOnIdle _ h)
        · cases moved
    · split
      · exact ih (Chip.claim_works free _ h)
      · exact h

theorem Chip.progress_worksOnIdle (p : Chip) : p.Works (fun i => ¬(p.slot i).Busy) .underrun p.progress := by
  unfold Chip.progress
  split
  · exact .refl _ _ _
  · exact progressLoop_worksOnIdle _ (.refl _ _ _)

/-- What follows an event, no map pending, leaves every busy slot alone. -/
theorem Chip.finish_worksOnIdle (noMap : p.cpm.pendingMap = none) :
    p.Works (fun i => ¬(p.slot i).Busy) .underrun p.finish := by
  have moved := p.progress_worksOnIdle
  exact Chip.noteStatus_works (Chip.offerFetch_works (Chip.checkEnd_works (moved.pendingMap.trans noMap) moved))

theorem Chip.finish_busy (noMap : p.cpm.pendingMap = none) {i : Fin 128} (busy : (p.slot i).Busy) :
    p.finish.slot i = p.slot i := (Chip.finish_worksOnIdle noMap).slots i fun notBusy => notBusy busy

/-! ## The end of the run, as the link sees it (R120) -/

theorem Chip.endEcu_dlc (r : RunRecord) (cause : EndCause) (p : Chip) :
    (p.endEcu r cause).dlc = { p.dlc with fetch := (p.endEcu r cause).dlc.fetch } := by
  unfold Chip.endEcu
  split
  · have closed : (p.endClip r).dlc = p.dlc := by
      unfold Chip.endClip
      split
      · rfl
      · rfl
    rw [(Chip.endSaves_frees r (.refl noSlot (p.endClip r))).dlc, closed]
  · split
    · exact (Chip.Frees.foldl (fun _ _ => Chip.popEntry_frees) _ (.refl noSlot p)).dlc
    · rfl
  · rfl
  · rfl

theorem Chip.applyHeld_dlc {α : Type} (held : Option α) {apply : α → Chip → Chip}
    (applied : ∀ m, (apply m p).dlc = { p.dlc with fetch := (apply m p).dlc.fetch }) :
    (p.applyHeld held apply).dlc = { p.dlc with fetch := (p.applyHeld held apply).dlc.fetch } := by
  unfold Chip.applyHeld
  split
  · exact applied _
  · rfl

theorem Chip.applyPending_dlc (p : Chip) :
    p.applyPending.dlc = { p.dlc with fetch := p.applyPending.dlc.fetch } := by
  have map := Chip.applyHeld_dlc (p := p.clearPending) p.cpm.pendingMap (apply := Chip.applyMap)
    fun m => Chip.applyMap_dlc m _
  have values {α β γ : Type} (x : Option α) (y : Option β) (z : Option γ) (f : α → Cpm → Cpm) (g : β → Cpm → Cpm)
      (k : γ → Cpm → Cpm) (q : Chip) :
      (((q.applyHeld x fun m p => { p with cpm := f m p.cpm }).applyHeld y fun m p =>
        { p with cpm := g m p.cpm }).applyHeld z fun m p => { p with cpm := k m p.cpm }).dlc = q.dlc := by
    unfold Chip.applyHeld
    split <;> split <;> split <;> rfl
  have dlc : p.applyPending.dlc = (p.clearPending.applyHeld p.cpm.pendingMap Chip.applyMap).dlc :=
    values p.cpm.pendingSignal p.cpm.pendingLink p.cpm.pendingEdit (fun m c => { c with signal := m })
      (fun m c => { c with link := m }) (fun m c => { c with edit := m }) _
  rw [dlc]
  exact map

theorem Chip.report_dlc (o : ReqOutcome) (d : Nat) (p : Chip) : (p.report o d).dlc = p.dlc :=
  (Chip.report_records o d p).dlc

theorem Chip.answerStop_dlc (cause : EndCause) (omitted : Nat) (p : Chip) :
    (p.answerStop cause omitted).dlc = p.dlc := by
  unfold Chip.answerStop
  split
  · split
    · exact Chip.report_dlc _ _ p
    · rfl
  · rfl

theorem Chip.enterIdle_moves (cause : EndCause) (p : Chip) : p.dlc.Moves (p.enterIdle cause).dlc := by
  unfold Chip.enterIdle
  split
  · exact .refl _
  · rename_i r _
    dsimp only
    rw [Chip.answerStop_dlc, Chip.applyPending_dlc, (Chip.noteStatus_reports _).dlc, (Chip.raise_reports _ _).dlc,
      Chip.endEcu_dlc]
    exact .still rfl

theorem Chip.checkEnd_moves (p : Chip) : p.dlc.Moves p.checkEnd.dlc := by
  unfold Chip.checkEnd
  split
  · exact .refl _
  · split
    · exact .refl _
    · split
      · exact Chip.enterIdle_moves _ p
      · exact .refl _
    · split
      · exact Chip.enterIdle_moves _ p
      · exact .refl _

theorem Chip.finish_moves (p : Chip) : p.dlc.Moves p.finish.dlc := by
  have fetched := (Chip.offerFetch_frees (.refl noSlot p.progress.checkEnd)).dlc
  have link := (Chip.progress_ensues (.refl p)).link.trans (Chip.checkEnd_moves _)
  unfold Chip.finish
  rw [(Chip.noteStatus_reports _).dlc]
  exact link.trans (.still (by rw [fetched]))

end

end Sys2Proof.Machine


/-! PROOFS. A fetched row sent under a credit and retained (O39). -/

namespace Sys2Proof.Machine

-- One proof after another: the threads of many at once take more memory than the check allows.
set_option Elab.async false

/-! ## The row (R90, R93) -/

section

variable {p : Chip} {f : RowFetch} {words : List Word}

theorem Chip.fetchMatches_iff : p.fetchMatches f = true ↔ (p.slot f.slot).claimed = true ∧
    (p.slot f.slot).segment = f.segment ∧ (p.slot f.slot).serial = f.serial ∧
      ((p.slot f.slot).write = .queued ∨ (p.slot f.slot).write = .sending) := by
  unfold Chip.fetchMatches Slot.holds
  dsimp only
  rw [Bool.and_eq_true, Bool.and_eq_true, Bool.and_eq_true, Bool.or_eq_true, beq_iff_eq, beq_iff_eq, beq_iff_eq,
    beq_iff_eq, and_assoc, and_assoc]

/-- The entry the row is retained under (R90). -/
def Chip.sentEntry (p : Chip) (f : RowFetch) (words : List Word) : Retained :=
  ⟨p.dlc.sendSeq, f.segment, f.row, f.slot, f.serial, some words⟩

/-- The link with the row sent (R90, R93). -/
def Chip.sentLink (p : Chip) (f : RowFetch) (words : List Word) : Dlc :=
  { p.dlc with
    sendSeq := p.dlc.sendSeq + 1
    writeCredits := p.dlc.writeCredits - 1
    retention := p.dlc.retention ++ [p.sentEntry f words]
    cursorRow := p.dlc.cursorRow + 1
    ackTimer := if p.dlc.retention.isEmpty then some p.cpm.link.ackTimeout else p.dlc.ackTimer
    lane := p.dlc.lane ++ [⟨.row p.dlc.sendSeq f.segment f.row words, p.event⟩] }

/-- The slot of a row sent: SENDING from its first (R58). -/
def Slot.sent (row : Nat) (x : Slot) : Slot := if row = 0 then { x with write := .sending } else x

theorem Chip.sendRow_dlc : (p.sendRow f words).dlc = p.sentLink f words := by
  unfold Chip.sendRow
  dsimp only
  split
  · rfl
  · rfl

theorem Chip.sendRow_slot : (p.sendRow f words).slot f.slot = (p.slot f.slot).sent f.row := by
  unfold Chip.sendRow Slot.sent
  dsimp only
  split
  · exact Chip.slot_modSlot_same f.slot _ _
  · rfl

theorem Slot.sent_claimed (row : Nat) (x : Slot) : (x.sent row).claimed = x.claimed := by
  unfold Slot.sent
  split
  · rfl
  · rfl

theorem Slot.sent_serial (row : Nat) (x : Slot) : (x.sent row).serial = x.serial := by
  unfold Slot.sent
  split
  · rfl
  · rfl

theorem Slot.sent_write (row : Nat) (x : Slot) :
    (x.sent row).write = if row = 0 then WriteState.sending else x.write := by
  unfold Slot.sent
  split
  · rfl
  · rfl

end

/-! ## The command -/

section

variable {s : State} {f : RowFetch}

/-- The part as the row's grant begins: its fetch is taken. -/
def State.fetchTaken (s : State) : Chip :=
  { s.toChip.beginGrant .rowFetch with dlc := { s.dlc with fetch := none } }

theorem execRowFetch_eq (offered : s.dlc.fetch = some f) (grant : s.mp.mayGrant .rowFetch = true) :
    execRowFetch s = .next { s with
      toChip := (if s.fetchTaken.fetchMatches f then s.fetchTaken.sendRow f (rowWords s.mem f)
        else s.fetchTaken).finish } := by
  unfold execRowFetch
  rw [offered]
  exact if_pos grant

end

/-- Settles O39: the row is sent before what follows the event, which moves of the link its cursor, OMITs and fetch
alone, and leaves a slot that is QUEUED or SENDING as it is. -/
theorem rowFetchSendsTheRow : Obligations.RowFetchSendsTheRow := by
  unfold Obligations.RowFetchSendsTheRow
  intro s f offered grant noMap x matched words
  have answer := execRowFetch_eq offered grant
  have held : s.fetchTaken.fetchMatches f = true ↔ matched := Chip.fetchMatches_iff
  constructor
  · intro still
    rw [if_pos (held.mpr still)] at answer
    obtain ⟨claimed, -, -, write⟩ := still
    have link := Chip.finish_moves (s.fetchTaken.sendRow f (rowWords s.mem f))
    have slot := Chip.sendRow_slot (p := s.fetchTaken) (f := f) (words := rowWords s.mem f)
    have busy : ((s.fetchTaken.sendRow f (rowWords s.mem f)).slot f.slot).Busy := by
      rw [slot]
      refine ⟨(Slot.sent_claimed _ _).trans claimed, ?_⟩
      rw [Slot.sent_write]
      obtain queued | sending := write
      · split
        · decide
        · exact fun idle => absurd (queued.symm.trans idle) (by decide)
      · split
        · decide
        · exact fun idle => absurd (sending.symm.trans idle) (by decide)
    have stays := (Chip.finish_busy (by rw [Chip.sendRow_cpm]; exact noMap) busy).trans slot
    rw [Chip.sendRow_dlc] at link
    have rest := link.rest
    refine ⟨_, answer, (congrArg Dlc.retention rest).trans rfl, (congrArg Dlc.sendSeq rest).trans rfl,
      (congrArg Dlc.writeCredits rest).trans rfl, ?_, ?_, ?_, ?_, ?_, (congrArg Dlc.linkState rest).trans rfl,
      (congrArg Dlc.staging rest).trans rfl, (congrArg Dlc.released rest).trans rfl,
      (congrArg Dlc.outstanding rest).trans rfl, (congrArg Dlc.recvSeq rest).trans rfl⟩
    · refine (congrArg Dlc.ackTimer rest).trans ?_
      show (if s.dlc.retention.isEmpty = true then _ else _) = _
      simp only [List.isEmpty_iff]
      rfl
    · exact List.mem_map.mpr ⟨⟨.row s.dlc.sendSeq f.segment f.row (rowWords s.mem f), s.fetchTaken.event⟩,
        link.mem_lane (List.mem_append_right _ (List.mem_singleton.mpr rfl)), rfl⟩
    · exact (congrArg Slot.claimed stays).trans ((Slot.sent_claimed _ _).trans claimed)
    · exact (congrArg Slot.serial stays).trans (Slot.sent_serial _ _)
    · exact (congrArg Slot.write stays).trans (Slot.sent_write _ _)
  · intro stale
    rw [if_neg (fun still => stale (held.mp still))] at answer
    have rest := (Chip.finish_moves s.fetchTaken).rest
    exact ⟨_, answer, (congrArg Dlc.retention rest).trans rfl, (congrArg Dlc.sendSeq rest).trans rfl,
      (congrArg Dlc.writeCredits rest).trans rfl, (congrArg Dlc.ackTimer rest).trans rfl,
      (congrArg Dlc.linkState rest).trans rfl, (congrArg Dlc.staging rest).trans rfl⟩

end Sys2Proof.Machine


/-! PROOFS. The undo stack: entries pushed, popped and dropped, their words mirrored and their images freed (R161,
R165, R171). -/

namespace Sys2Proof.Machine

-- One proof after another: the threads of many at once take more memory than the check allows.
set_option Elab.async false

/-! ## Depths and mirror writes -/

@[simp] theorem stackDepth_nil : stackDepth [] = 0 := rfl

@[simp] theorem stackDepth_cons (e : StackEntry) (l : List StackEntry) :
    stackDepth (e :: l) = e.words.length + stackDepth l := rfl

@[simp] theorem stackDepth_append (l k : List StackEntry) : stackDepth (l ++ k) = stackDepth l + stackDepth k := by
  unfold stackDepth
  rw [List.map_append, List.sum_append]

theorem StackEntry.words_run (tag first count : Nat) (m : Bool) :
    (StackEntry.run tag first count m).words.length = 4 := rfl

/-- SEG entries are 2 words deep. -/
theorem stackDepth_segs {l : List StackEntry} (segs : ∀ e ∈ l, ∃ t u, e = .seg t u) : stackDepth l = 2 * l.length := by
  induction l with
  | nil => rfl
  | cons e l ih =>
    obtain ⟨t, u, rfl⟩ := segs e List.mem_cons_self
    rw [stackDepth_cons, ih fun x member => segs x (List.mem_cons_of_mem _ member), List.length_cons]
    show 2 + 2 * l.length = _
    omega

/-- A place on the mirror is one modulo its size (R161). -/
theorem mirrorWrite_congr {base x y : Nat} (same : x % 1024 = y % 1024) (ws : List Word) :
    mirrorWrite base x ws = mirrorWrite base y ws := by
  unfold mirrorWrite
  congr 1
  refine List.map_congr_left fun wk _ => ?_
  have : (x + wk.2) % 1024 = (y + wk.2) % 1024 := by omega
  rw [this]

/-! ## Work on the stack -/

/-- Entries move on the stack: of ECU the stack, its bottom and the images change, and requests are offered. -/
structure Chip.StackWork (a b : Chip) : Prop where
  rest : b = { a with ecu := b.ecu, mp := b.mp }
  ecu : b.ecu = { a.ecu with stack := b.ecu.stack, bottom := b.ecu.bottom, images := b.ecu.images }
  offers : ∀ r, a.Offers r → b.Offers r

namespace Chip.StackWork

variable {a b p : Chip}

theorem refl (p : Chip) : p.StackWork p := ⟨rfl, rfl, fun _ => id⟩

theorem trans (h : a.StackWork p) (k : p.StackWork b) : a.StackWork b where
  rest := by
    have rest := k.rest
    rw [h.rest] at rest
    exact rest
  ecu := by
    have ecu := k.ecu
    rw [h.ecu] at ecu
    exact ecu
  offers := fun r x => k.offers r (h.offers r x)

/-- An update of the stack, its bottom or the images. -/
theorem update (h : a.StackWork p) (rest : b = { p with ecu := b.ecu } := by rfl)
    (ecu : b.ecu = { p.ecu with stack := b.ecu.stack, bottom := b.ecu.bottom, images := b.ecu.images } := by rfl) :
    a.StackWork b := by
  have mp : b.mp = p.mp := by rw [rest]
  refine h.trans ⟨by rw [mp]; exact rest, ecu, fun r x => ?_⟩
  unfold Chip.Offers
  rw [mp]
  exact x

theorem offer (h : a.StackWork p) (r : Req) : a.StackWork (p.offer r) :=
  h.trans ⟨rfl, rfl, fun _ => Chip.offers_mono r⟩

theorem cpm (h : a.StackWork b) : b.cpm = a.cpm := by rw [h.rest]

theorem foldl {α : Type} {f : Chip → α → Chip} (hf : ∀ q x, a.StackWork q → a.StackWork (f q x)) (l : List α)
    (h : a.StackWork p) : a.StackWork (l.foldl f p) :=
  List.foldlRecOn l f h fun q hq x _ => hf q x hq

end Chip.StackWork

/-- The image of a SEG entry is freed, those no entry of l names stay. -/
structure Ecu.Frees (l : List StackEntry) (a b : Ecu) : Prop where
  freed : ∀ t u, .seg t u ∈ l → (b.images[u]).used = false
  kept : ∀ u : Fin 256, (∀ t, .seg t u ∉ l) → b.images[u] = a.images[u]

theorem Ecu.Frees.nil (a : Ecu) : a.Frees [] a := ⟨nofun, fun _ _ => rfl⟩

theorem Ecu.Frees.append {l k : List StackEntry} {a b d : Ecu} (h : a.Frees l b) (j : b.Frees k d) :
    a.Frees (l ++ k) d := by
  refine ⟨fun t u member => ?_, fun u out => ?_⟩
  · by_cases later : ∃ t', .seg t' u ∈ k
    · obtain ⟨t', later⟩ := later
      exact j.freed t' u later
    · obtain first | last := List.mem_append.mp member
      · rw [j.kept u fun t' x => later ⟨t', x⟩]
        exact h.freed t u first
      · exact absurd ⟨t, last⟩ later
  · rw [j.kept u fun t x => out t (List.mem_append_right _ x), h.kept u fun t x => out t (List.mem_append_left _ x)]

/-- The image that an entry names is freed, and nothing else changes (R161). -/
theorem Chip.freeNamed_frees_image (e : StackEntry) (p : Chip) :
    p.StackWork (p.freeNamed e) ∧ (p.freeNamed e).ecu.stack = p.ecu.stack ∧
      (p.freeNamed e).ecu.bottom = p.ecu.bottom ∧ p.ecu.Frees [e] (p.freeNamed e).ecu ∧
      (p.freeNamed e).mp = p.mp := by
  cases e with
  | run tag first count m => exact ⟨.refl p, rfl, rfl, ⟨by simp, fun _ _ => rfl⟩, rfl⟩
  | seg t u =>
    refine ⟨(Chip.StackWork.refl p).update, rfl, rfl, ⟨fun t' u' named => ?_, fun u' other => ?_⟩, rfl⟩
    · cases List.mem_singleton.mp named
      show ((p.ecu.images.set u ImageRecord.reset)[u]).used = false
      rw [Fin.getElem_fin, Vector.getElem_set_self]
      rfl
    · have apart : u' ≠ u := fun same => other t (by rw [same]; exact List.mem_singleton.mpr rfl)
      exact Vector.getElem_set_ne u.isLt u'.isLt fun same => apart (Fin.ext same.symm)

/-! ## Drops from the bottom (R165) -/

/-- The entries l dropped from the bottom of the stack. -/
structure Chip.Drops (l : List StackEntry) (a b : Chip) : Prop where
  work : a.StackWork b
  stack : a.ecu.stack = l ++ b.ecu.stack
  frees : a.ecu.Frees l b.ecu
  bottom : b.ecu.bottom % 1024 = (a.ecu.bottom + stackDepth l) % 1024
  wrapped : l ≠ [] → b.ecu.bottom < 1024
  mirrored : ∀ before e after, l = before ++ e :: after → b.Offers (mirrorWrite a.cpm.map.privateBase
    (a.ecu.bottom + stackDepth before) (List.replicate e.words.length 0))

theorem Chip.Drops.nil (p : Chip) : p.Drops [] p :=
  ⟨.refl p, rfl, .nil _, rfl, fun empty => absurd rfl empty, fun before e after none => by simp at none⟩

/-- The first of the entries dropped, then the others. -/
theorem Chip.Drops.cons {e : StackEntry} {l : List StackEntry} {a b d : Chip} (h : a.Drops [e] b) (j : b.Drops l d)
    (last : l = [] → d.ecu.bottom = b.ecu.bottom) : a.Drops (e :: l) d where
  work := h.work.trans j.work
  stack := by rw [h.stack, j.stack]; rfl
  frees := h.frees.append j.frees
  bottom := by
    have first := h.bottom
    rw [j.bottom, stackDepth_cons]
    rw [stackDepth_cons, stackDepth_nil] at first
    omega
  wrapped := fun _ => by
    by_cases none : l = []
    · rw [last none]
      exact h.wrapped (List.cons_ne_nil _ _)
    · exact j.wrapped none
  mirrored := fun before x after split => by
    obtain ⟨none, same⟩ | ⟨before', same, split'⟩ := List.cons_eq_append_iff.mp split
    · subst none
      cases same
      exact j.work.offers _ (h.mirrored [] e [] rfl)
    · subst same
      have written := j.mirrored before' x after split'
      rw [h.work.cpm] at written
      rw [mirrorWrite_congr (y := b.ecu.bottom + stackDepth before')]
      · exact written
      · have first := h.bottom
        rw [stackDepth_cons, stackDepth_nil] at first
        rw [stackDepth_cons]
        omega

/-- The bottom entry dropped (R161, R165). -/
theorem Chip.dropEntry_drops {e : StackEntry} {rest : List StackEntry} {p : Chip} (stack : p.ecu.stack = e :: rest) :
    p.Drops [e] p.dropEntry ∧ p.dropEntry.ecu.stack = rest := by
  let q : Chip := { p.offerMirror p.ecu.bottom (List.replicate e.words.length 0) with
    ecu := { p.ecu with stack := rest, bottom := (p.ecu.bottom + e.words.length) % 1024 } }
  have eq : p.dropEntry = q.freeNamed e := by
    unfold Chip.dropEntry
    rw [stack]
    rfl
  obtain ⟨work, kept, bottom, frees, mp⟩ := Chip.freeNamed_frees_image e q
  have moved : p.StackWork q := ((Chip.StackWork.refl p).offer _).update
  rw [eq]
  refine ⟨⟨moved.trans work, ?_, ⟨frees.freed, frees.kept⟩, ?_, fun _ => ?_, fun before x after split => ?_⟩, kept⟩
  · rw [stack, kept]
    rfl
  · rw [bottom]
    exact Nat.mod_mod _ _
  · rw [bottom]
    exact Nat.mod_lt _ (by decide)
  · obtain ⟨none, same⟩ | ⟨before', same, split'⟩ := List.cons_eq_append_iff.mp split
    · subst none
      cases same
      exact work.offers _ (Chip.offers_offer _ p)
    · exact absurd split' (by simp)

/-- Entries dropped one after another. -/
theorem Chip.dropEntries_drops (l rest : List StackEntry) {p : Chip} (stack : p.ecu.stack = l ++ rest) :
    p.Drops l ((List.replicate l.length ()).foldl (fun p _ => p.dropEntry) p) ∧
      ((List.replicate l.length ()).foldl (fun p _ => p.dropEntry) p).ecu.stack = rest := by
  induction l generalizing p with
  | nil => exact ⟨.nil p, stack⟩
  | cons e l ih =>
    obtain ⟨first, left⟩ := Chip.dropEntry_drops (e := e) (rest := l ++ rest) stack
    obtain ⟨later, kept⟩ := ih left
    refine ⟨first.cons later fun none => ?_, kept⟩
    subst none
    rfl

/-- The oldest whole run dropped (R165). -/
theorem Chip.dropRun_drops {oldest rest : List StackEntry} {tag first count : Nat} {m : Bool} {p : Chip}
    (segs : ∀ e ∈ oldest, ∃ t u, e = .seg t u)
    (stack : p.ecu.stack = oldest ++ .run tag first count m :: rest) :
    p.Drops (oldest ++ [.run tag first count m]) p.dropRun ∧ p.dropRun.ecu.stack = rest := by
  have size : (p.ecu.stack.takeWhile fun e => !e.isRun).length + 1 =
      (oldest ++ [StackEntry.run tag first count m]).length := by
    have taken : p.ecu.stack.takeWhile (fun e => !e.isRun) = oldest := by
      rw [stack, List.takeWhile_append_of_pos fun e member => by
        obtain ⟨t, u, rfl⟩ := segs e member
        rfl]
      simp [StackEntry.isRun]
    rw [taken, List.length_append]
    rfl
  unfold Chip.dropRun
  dsimp only
  rw [size]
  exact Chip.dropEntries_drops (oldest ++ [.run tag first count m]) rest (by rw [stack, List.append_assoc]; rfl)

/-- A run removed from the bottom is mirrored (R161). -/
theorem Chip.Drops.removal {oldest : List StackEntry} {tag first count : Nat} {m : Bool} {a b : Chip}
    (segs : ∀ e ∈ oldest, ∃ t u, e = .seg t u) (h : a.Drops (oldest ++ [.run tag first count m]) b) :
    a.RemovalMirrored b 0 oldest.length := by
  constructor
  · intro k lt
    obtain ⟨t, u, seg⟩ := segs oldest[k] (List.getElem_mem lt)
    have written := h.mirrored (oldest.take k) oldest[k] (oldest.drop (k + 1) ++ [.run tag first count m]) (by
      rw [← List.cons_append, ← List.append_assoc, List.getElem_cons_drop, List.take_append_drop])
    rw [stackDepth_segs fun e member => segs e (List.mem_of_mem_take member), List.length_take,
      Nat.min_eq_left (Nat.le_of_lt lt), seg] at written
    exact written
  · have written := h.mirrored oldest (.run tag first count m) [] rfl
    rw [stackDepth_segs segs] at written
    exact written

/-! ## Room for a push (R165) -/

theorem secure_met {met : Ecu → Bool} {p : Chip} (n : Nat) (enough : met p.ecu = true ∨ p.ecu.wholeRun = false) :
    secure met n p = p := by
  cases n with
  | zero => rfl
  | succ n =>
    unfold secure
    refine if_pos ?_
    obtain met' | none := enough
    · rw [met']
      rfl
    · rw [none]
      exact Bool.or_true _

theorem secure_once {met : Ecu → Bool} {p : Chip} {n : Nat} (short : met p.ecu = false) (whole : p.ecu.wholeRun = true)
    (enough : met p.dropRun.ecu = true) : secure met (n + 1) p = p.dropRun := by
  rw [secure, if_neg (by rw [short, whole]; decide), secure_met n (.inl enough)]

theorem Ecu.wholeRun_iff (e : Ecu) : e.wholeRun = false ↔ ∀ x ∈ e.stack, x.isRun = false := by
  unfold Ecu.wholeRun
  rw [List.any_eq_false]
  exact forall₂_congr fun _ _ => by rw [Bool.not_eq_true]

/-- The words fit, or no whole run is left to drop. -/
theorem Chip.secureWords_fits {n : Nat} {p : Chip}
    (fits : stackDepth p.ecu.stack + n ≤ 1024 ∨ ∀ e ∈ p.ecu.stack, e.isRun = false) : p.secureWords n = p :=
  secure_met _ (fits.imp decide_eq_true (Ecu.wholeRun_iff _).mpr)

/-- The oldest whole run makes room for a push of at most 4 words. -/
theorem Chip.secureWords_drops {n : Nat} {p : Chip} {oldest rest : List StackEntry} {tag first count : Nat} {m : Bool}
    (small : n ≤ 4) (segs : ∀ e ∈ oldest, ∃ t u, e = .seg t u)
    (stack : p.ecu.stack = oldest ++ .run tag first count m :: rest) (depth : stackDepth p.ecu.stack ≤ 1024)
    (full : 1024 < stackDepth p.ecu.stack + n) : p.secureWords n = p.dropRun := by
  obtain ⟨-, left⟩ := Chip.dropRun_drops segs stack
  have some : p.ecu.stack.length = p.ecu.stack.length - 1 + 1 := by
    rw [stack, List.length_append, List.length_cons]
    omega
  unfold Chip.secureWords
  rw [some]
  refine secure_once (decide_eq_false (Nat.not_le.mpr full)) ?_ (decide_eq_true ?_)
  · unfold Ecu.wholeRun
    rw [List.any_eq_true, stack]
    exact ⟨_, List.mem_append_right _ List.mem_cons_self, rfl⟩
  · rw [left]
    rw [stack, stackDepth_append, stackDepth_cons, StackEntry.words_run] at depth
    show stackDepth rest + n ≤ 1024
    omega

theorem Chip.secureWords_work (n : Nat) (p : Chip) : p.StackWork (p.secureWords n) := by
  have dropped (q : Chip) (h : p.StackWork q) : p.StackWork q.dropEntry := by
    cases stack : q.ecu.stack with
    | nil =>
      unfold Chip.dropEntry
      rw [stack]
      exact h
    | cons e rest => exact h.trans (Chip.dropEntry_drops stack).1.work
  have secured (met : Ecu → Bool) (n : Nat) {q : Chip} (h : p.StackWork q) : p.StackWork (secure met n q) := by
    induction n generalizing q with
    | zero => exact h
    | succ n ih =>
      unfold secure
      split
      · exact h
      · exact ih (.foldl (fun x _ hx => dropped x hx) _ h)
  exact secured _ _ (.refl p)

/-! ## Pushes and pops (R161, R171) -/

theorem Chip.pushEntry_work (e : StackEntry) (p : Chip) : p.StackWork (p.pushEntry e) ∧
    (p.pushEntry e).ecu = { p.ecu with stack := p.ecu.stack ++ [e] } ∧
      (p.pushEntry e).Offers (mirrorWrite p.cpm.map.privateBase (p.ecu.bottom + stackDepth p.ecu.stack) e.words) :=
  ⟨((Chip.StackWork.refl p).offer _).update, rfl, Chip.offers_offer _ p⟩

/-- The entries l popped from the top of the stack. -/
structure Chip.Pops (l : List StackEntry) (a b : Chip) : Prop where
  work : a.StackWork b
  stack : a.ecu.stack = b.ecu.stack ++ l
  frees : a.ecu.Frees l b.ecu
  bottom : b.ecu.bottom = a.ecu.bottom
  mirrored : ∀ before e after, l = before ++ e :: after → b.Offers (mirrorWrite a.cpm.map.privateBase
    (a.ecu.bottom + stackDepth (b.ecu.stack ++ before)) (List.replicate e.words.length 0))

theorem Chip.Pops.nil (p : Chip) : p.Pops [] p :=
  ⟨.refl p, (List.append_nil _).symm, .nil _, rfl, fun before e after none => by simp at none⟩

/-- The top entry popped (R161, R171). -/
theorem Chip.popEntry_pops {e : StackEntry} {below : List StackEntry} {p : Chip} (stack : p.ecu.stack = below ++ [e]) :
    p.Pops [e] p.popEntry ∧ p.popEntry.ecu.stack = below := by
  let q : Chip := { p.offerMirror (p.ecu.bottom + stackDepth below) (List.replicate e.words.length 0) with
    ecu := { p.ecu with stack := below } }
  have eq : p.popEntry = q.freeNamed e := by
    unfold Chip.popEntry
    rw [stack, List.getLast?_concat]
    dsimp only
    rw [List.dropLast_concat]
    rfl
  obtain ⟨work, kept, bottom, frees, mp⟩ := Chip.freeNamed_frees_image e q
  have moved : p.StackWork q := ((Chip.StackWork.refl p).offer _).update
  rw [eq]
  refine ⟨⟨moved.trans work, ?_, ⟨frees.freed, frees.kept⟩, bottom, fun before x after split => ?_⟩, kept⟩
  · rw [stack, kept]
  · obtain ⟨none, same⟩ | ⟨before', same, split'⟩ := List.cons_eq_append_iff.mp split
    · subst none
      cases same
      rw [kept, List.append_nil]
      exact work.offers _ (Chip.offers_offer _ p)
    · exact absurd split' (by simp)

/-- The entries popped after the top one lie below it. -/
theorem Chip.Pops.concat {e : StackEntry} {l : List StackEntry} {a b d : Chip} (h : a.Pops [e] b) (j : b.Pops l d) :
    a.Pops (l ++ [e]) d where
  work := h.work.trans j.work
  stack := by rw [h.stack, j.stack, List.append_assoc]
  frees := by
    obtain ⟨freed, kept⟩ := h.frees.append j.frees
    exact ⟨fun t u member => freed t u (List.mem_append.mpr (List.mem_append.mp member).symm),
      fun u out => kept u fun t member => out t (List.mem_append.mpr (List.mem_append.mp member).symm)⟩
  bottom := j.bottom.trans h.bottom
  mirrored := fun before x after split => by
    obtain none | ⟨after', last, same⟩ := List.eq_nil_or_concat after
    · subst none
      obtain ⟨rfl, same⟩ := List.append_inj' split rfl
      cases same
      have written := h.mirrored [] e [] rfl
      rw [List.append_nil, j.stack] at written
      exact j.work.offers _ written
    · subst same
      rw [List.concat_eq_append, ← List.cons_append, ← List.append_assoc] at split
      obtain ⟨split', -⟩ := List.append_inj' split rfl
      have written := j.mirrored before x after' split'
      rw [h.work.cpm, h.bottom] at written
      exact written

/-- The entries of a run popped one after another (R171). -/
theorem Chip.popEntries_pops (l below : List StackEntry) {p : Chip} (stack : p.ecu.stack = below ++ l) :
    p.Pops l ((List.replicate l.length ()).foldl (fun p _ => p.popEntry) p) ∧
      ((List.replicate l.length ()).foldl (fun p _ => p.popEntry) p).ecu.stack = below := by
  induction l using List.reverseRecOn generalizing p with
  | nil => exact ⟨.nil p, by rw [← List.append_nil below]; exact stack⟩
  | append_singleton l e ih =>
    obtain ⟨first, left⟩ := Chip.popEntry_pops (e := e) (below := below ++ l) (by rw [stack, List.append_assoc])
    obtain ⟨later, kept⟩ := ih left
    rw [List.length_append, List.length_singleton, List.replicate_succ, List.foldl_cons]
    exact ⟨first.concat later, kept⟩

/-- A run popped from the top is mirrored (R161, R171). -/
theorem Chip.Pops.removal {segs below : List StackEntry} {tag first count : Nat} {m : Bool} {a b : Chip}
    (named : ∀ e ∈ segs, ∃ t u, e = .seg t u) (h : a.Pops (segs ++ [.run tag first count m]) b)
    (left : b.ecu.stack = below) : a.RemovalMirrored b (stackDepth below) segs.length := by
  subst left
  constructor
  · intro k lt
    obtain ⟨t, u, seg⟩ := named segs[k] (List.getElem_mem lt)
    have written := h.mirrored (segs.take k) segs[k] (segs.drop (k + 1) ++ [.run tag first count m]) (by
      rw [← List.cons_append, ← List.append_assoc, List.getElem_cons_drop, List.take_append_drop])
    rw [stackDepth_append, stackDepth_segs fun e member => named e (List.mem_of_mem_take member), List.length_take,
      Nat.min_eq_left (Nat.le_of_lt lt), seg, ← Nat.add_assoc] at written
    exact written
  · have written := h.mirrored segs (.run tag first count m) [] rfl
    rw [stackDepth_append, stackDepth_segs named, ← Nat.add_assoc] at written
    exact written

end Sys2Proof.Machine


/-! PROOFS. The end of a run, no map pending (R120): the run record, ECU told of the end, the notice, the pending mode
values in force. -/

namespace Sys2Proof.Machine

-- One proof after another: the threads of many at once take more memory than the check allows.
set_option Elab.async false

/-! ## ECU told that the run has ended (R159, R166, R171) -/

/-- ECU's clips, stack, images and marks change, and requests are offered. -/
structure Chip.EcuWork (a b : Chip) : Prop where
  rest : b = { a with ecu := b.ecu, mp := b.mp }
  ecu : b.ecu = { a.ecu with
    stack := b.ecu.stack, bottom := b.ecu.bottom, images := b.ecu.images, clips := b.ecu.clips
    segCount := b.ecu.segCount, partialMark := b.ecu.partialMark, stoppedMark := b.ecu.stoppedMark }
  offers : ∀ r, a.Offers r → b.Offers r

namespace Chip.EcuWork

variable {a b p : Chip}

theorem refl (p : Chip) : p.EcuWork p := ⟨rfl, rfl, fun _ => id⟩

theorem stack (h : a.StackWork b) : a.EcuWork b := ⟨h.rest, by rw [h.ecu], h.offers⟩

theorem trans (h : a.EcuWork p) (k : p.EcuWork b) : a.EcuWork b where
  rest := by
    have rest := k.rest
    rw [h.rest] at rest
    exact rest
  ecu := by
    have ecu := k.ecu
    rw [h.ecu] at ecu
    exact ecu
  offers := fun r x => k.offers r (h.offers r x)

/-- An update of ECU alone. -/
theorem update {e : Ecu} (h : a.EcuWork p) (ecu : e = { p.ecu with
      stack := e.stack, bottom := e.bottom, images := e.images, clips := e.clips
      segCount := e.segCount, partialMark := e.partialMark, stoppedMark := e.stoppedMark } := by rfl) :
    a.EcuWork { p with ecu := e } := h.trans ⟨rfl, ecu, fun _ => id⟩

theorem cpm (h : a.EcuWork b) : b.cpm = a.cpm := by rw [h.rest]

theorem slots (h : a.EcuWork b) : b.slots = a.slots := by rw [h.rest]

theorem rc (h : a.EcuWork b) : b.rc = a.rc := by rw [h.rest]

theorem dlc (h : a.EcuWork b) : b.dlc = a.dlc := by rw [h.rest]

theorem capture (h : a.EcuWork b) : b.ecu.capture = a.ecu.capture := by rw [h.ecu]

end Chip.EcuWork

section

variable {p : Chip} {r : RunRecord}

theorem Chip.endClip_work (r : RunRecord) (p : Chip) : p.EcuWork (p.endClip r) := by
  unfold Chip.endClip
  split
  · exact (Chip.EcuWork.refl p).update
  · exact .refl p

theorem Chip.endSaves_work (r : RunRecord) (p : Chip) : p.EcuWork (p.endSaves r) := by
  have secured := Chip.EcuWork.stack (Chip.secureWords_work 4 p)
  unfold Chip.endSaves
  dsimp only
  exact (secured.trans (.stack (Chip.pushEntry_work _ _).1)).update

theorem Chip.popEntry_work (p : Chip) : p.StackWork p.popEntry := by
  obtain none | ⟨below, e, some⟩ := List.eq_nil_or_concat p.ecu.stack
  · unfold Chip.popEntry
    rw [none]
    exact .refl p
  · exact (Chip.popEntry_pops (some.trans List.concat_eq_append)).1.work

theorem Chip.endEcu_work (r : RunRecord) (cause : EndCause) (p : Chip) : p.EcuWork (p.endEcu r cause) := by
  unfold Chip.endEcu
  split
  · exact (Chip.endClip_work r p).trans (Chip.endSaves_work r _)
  · split
    · exact .stack (.foldl (fun q _ h => h.trans q.popEntry_work) _ (.refl p))
    · exact .refl p
  · exact .refl p
  · exact .refl p

/-! ## The pending mode values (R27) -/

/-- CPM with every pending mode value but a map in force. -/
def Cpm.pendingInForce (c : Cpm) : Cpm :=
  { c with
    pendingMap := none, pendingSignal := none, pendingLink := none, pendingEdit := none
    signal := c.pendingSignal.getD c.signal, link := c.pendingLink.getD c.link, edit := c.pendingEdit.getD c.edit }

theorem Chip.applyPending_noMap (noMap : p.cpm.pendingMap = none) :
    p.applyPending = { p with cpm := p.cpm.pendingInForce } := by
  unfold Chip.applyPending Cpm.pendingInForce
  dsimp only
  rw [noMap]
  cases p.cpm.pendingSignal with
  | none => cases p.cpm.pendingLink with
    | none => cases p.cpm.pendingEdit with
      | none => rfl
      | some e => rfl
    | some l => cases p.cpm.pendingEdit with
      | none => rfl
      | some e => rfl
  | some g => cases p.cpm.pendingLink with
    | none => cases p.cpm.pendingEdit with
      | none => rfl
      | some e => rfl
    | some l => cases p.cpm.pendingEdit with
      | none => rfl
      | some e => rfl

/-! ## The answer of a STOP (R119) -/

/-- What a final result leaves: CPM's request, and what it reports. -/
structure Chip.Told (a b : Chip) : Prop where
  records : a.Records b { a.cpm with request := b.cpm.request }
  offers : ∀ r, a.Offers r → b.Offers r
  nextWrite : a.cpm.nextWrite ≤ b.cpm.nextWrite

theorem Chip.report_told (o : ReqOutcome) (d : Nat) (p : Chip) : p.Told (p.report o d) := by
  cases pending : p.cpm.request with
  | some q =>
    obtain ⟨-, later, offers, -⟩ := Chip.report_spec pending o d
    exact ⟨Chip.report_records o d p, offers, later⟩
  | none =>
    have noted := Chip.noteStatus_reports p
    have same : p.noteStatus.cpm.request = none := by
      rw [noted.cpm]
      exact pending
    have eq : p.report o d = p.noteStatus := by
      unfold Chip.report
      dsimp only
      rw [same]
    exact ⟨Chip.report_records o d p, eq ▸ noted.offers, eq ▸ noted.nextWrite⟩

theorem Chip.answerStop_told (cause : EndCause) (omitted : Nat) (p : Chip) : p.Told (p.answerStop cause omitted) := by
  have still : p.Told p := ⟨Chip.records_self p, fun _ => id, Nat.le_refl _⟩
  unfold Chip.answerStop
  split
  · split
    · exact Chip.report_told _ _ p
    · exact still
  · exact still

/-! ## The run enters IDLE (R120) -/

/-- The part with its run IDLE, before ECU is told (step 1 of R120). -/
def Chip.idled (p : Chip) (r : RunRecord) (cause : EndCause) : Chip :=
  { p with rc := ⟨.idle, some { r with endCause := cause, drainTimer := none }⟩ }

/-- A run that has ended, no map pending: its record, ECU as `Chip.endEcu` leaves it, every pending mode value in force,
RUN_END raised. -/
structure Chip.RunEnded (p : Chip) (r : RunRecord) (cause : EndCause) (b : Chip) : Prop where
  rc : b.rc = ⟨.idle, some { r with endCause := cause, drainTimer := none }⟩
  ecu : b.ecu = ((p.idled r cause).endEcu r cause).ecu
  offers : ∀ x, ((p.idled r cause).endEcu r cause).Offers x → b.Offers x
  slots : b.slots = p.slots
  ce : b.ce = p.ce
  cu : b.cu = p.cu
  lbp : b.lbp = p.lbp
  dlc : b.dlc = p.dlc
  cpm : Cpm.SameButReports { p.cpm.pendingInForce with request := b.cpm.request } b.cpm
  raises : p.cpm.partState = .ready → p.RingRoom → p.Raises b (.runEnd r.tag cause r.kind (r.pops cause))

theorem Cpm.SameButReports.pendingInForce {a b : Cpm} (h : Cpm.SameButReports a b) :
    Cpm.SameButReports a.pendingInForce b.pendingInForce := h.map (f := Cpm.pendingInForce) fun _ _ => rfl

theorem Chip.enterIdle_ends {cause : EndCause} (run : p.rc.run = some r) (noMap : p.cpm.pendingMap = none) :
    p.RunEnded r cause (p.enterIdle cause) := by
  have work := Chip.endEcu_work r cause (p.idled r cause)
  have eq : p.enterIdle cause = ((((p.idled r cause).endEcu r cause).raise
      (.runEnd r.tag cause r.kind (r.pops cause))).noteStatus.applyPending).answerStop cause r.omitCount := by
    unfold Chip.enterIdle
    rw [run]
    rfl
  have raised := Chip.raise_raises (.runEnd r.tag cause r.kind (r.pops cause)) ((p.idled r cause).endEcu r cause)
  rw [eq]
  generalize ended : (p.idled r cause).endEcu r cause = q at work raised ⊢
  have reports := (Chip.raise_reports (.runEnd r.tag cause r.kind (r.pops cause)) q).trans (Chip.noteStatus_reports _)
  have raised' (isReady : p.cpm.partState = .ready) (room : p.RingRoom) :=
    (Chip.noteStatus_reports _).raises (raised (by rw [work.cpm]; exact isReady) (by
      unfold Chip.RingRoom
      rw [work.cpm]
      exact room))
  generalize (q.raise (.runEnd r.tag cause r.kind (r.pops cause))).noteStatus = x at reports raised' ⊢
  have cpm : Cpm.SameButReports p.cpm x.cpm := by
    have same := reports.cpm
    rw [work.cpm] at same
    exact same
  rw [Chip.applyPending_noMap (by rw [cpm]; exact noMap)]
  have told := Chip.answerStop_told cause r.omitCount { x with cpm := x.cpm.pendingInForce }
  generalize Chip.answerStop cause r.omitCount { x with cpm := x.cpm.pendingInForce } = b at told ⊢
  obtain ⟨slots, ce, cu, rc, ecu⟩ := told.records.tape
  refine ⟨rc.trans (reports.rc.trans work.rc), (ecu.trans reports.ecu).trans (by rw [ended]), fun y offered =>
    told.offers y (reports.offers y (ended ▸ offered)), slots.trans (reports.slots.trans work.slots),
    ?_, ?_, ?_, ?_, ?_, ?_⟩
  · rw [ce]
    exact reports.ce.trans (by rw [work.rest]; rfl)
  · rw [cu]
    exact reports.cu.trans (by rw [work.rest]; rfl)
  · exact told.records.lbp.trans (reports.lbp.trans (by rw [work.rest]; rfl))
  · exact told.records.dlc.trans (reports.dlc.trans work.dlc)
  · have inForce := cpm.pendingInForce
    exact (inForce.map (f := fun c => { c with request := b.cpm.request }) fun _ _ => rfl).trans told.records.cpm
  · intro isReady room
    obtain ⟨id, index, new, offered⟩ := raised' isReady room
    refine ⟨id, index, ?_, told.offers _ offered⟩
    rw [work.cpm] at new
    exact new

/-! ## What follows an event, no map pending (log 27) -/

/-- The end of the run that an event may bring about. -/
theorem Chip.checkEnd_cases (noMap : p.cpm.pendingMap = none) :
    p.checkEnd = p ∨ ∃ r cause, p.rc.run = some r ∧ p.RunEnded r cause p.checkEnd := by
  unfold Chip.checkEnd
  split
  · exact .inl rfl
  · rename_i r run
    split
    · exact .inl rfl
    · split
      · exact .inr ⟨r, _, run, Chip.enterIdle_ends run noMap⟩
      · exact .inl rfl
    · split
      · exact .inr ⟨r, _, run, Chip.enterIdle_ends run noMap⟩
      · exact .inl rfl

/-- The clip of another run is none of this one's. -/
theorem Chip.endEcu_clips {k : Fin 4} (cause : EndCause) (unused : ∀ x a b n, r.params ≠ .edit x (some k) a b n) :
    (p.endEcu r cause).ecu.clips[k] = p.ecu.clips[k] := by
  have closed : (p.endClip r).ecu.clips[k] = p.ecu.clips[k] := by
    unfold Chip.endClip
    split
    · rename_i x used a b n params
      have other : k ≠ used := fun same => unused x a b n (same ▸ params)
      exact clips_set_other _ _ other
    · rfl
  unfold Chip.endEcu
  split
  · have secured := Chip.secureWords_work 4 (p.endClip r)
    have clips : ((p.endClip r).endSaves r).ecu.clips = (p.endClip r).ecu.clips := by
      show ((p.endClip r).secureWords 4).ecu.clips = _
      rw [secured.ecu]
    rw [clips]
    exact closed
  · split
    · have popped : p.StackWork ((List.replicate (r.revertCount + 1) ()).foldl (fun p _ => p.popEntry) p) :=
        .foldl (fun q _ h => h.trans q.popEntry_work) _ (.refl p)
      have clips := congrArg Ecu.clips popped.ecu
      exact congrArg (fun x : Vector Clip 4 => x[k]) clips
    · rfl
  · rfl
  · rfl

theorem Chip.offerFetch_offers (p : Chip) :
    p.offerFetch.ecu = p.ecu ∧ ∀ r, p.Offers r → p.offerFetch.Offers r := by
  unfold Chip.offerFetch
  split
  · exact ⟨rfl, fun _ => id⟩
  · split
    · exact ⟨rfl, fun _ => Chip.offers_mono _⟩
    · exact ⟨rfl, fun _ => id⟩

/-- What an event leaves of a capture and of a clip no run uses. -/
theorem Chip.finish_capture (noMap : p.cpm.pendingMap = none) : p.finish.ecu.capture = p.ecu.capture ∧
    (p.Offers .capture → p.finish.Offers .capture) ∧
      ∀ k : Fin 4, (∀ r x a b n, p.rc.run = some r → r.params ≠ .edit x (some k) a b n) →
        p.finish.ecu.clips[k] = p.ecu.clips[k] := by
  have moved := Chip.progress_ensues (.refl p)
  have noMap' : p.progress.cpm.pendingMap = none := p.progress_worksOnIdle.pendingMap.trans noMap
  have ended : p.progress.checkEnd.ecu.capture = p.progress.ecu.capture ∧
      (p.progress.Offers .capture → p.progress.checkEnd.Offers .capture) ∧
        ∀ k : Fin 4, (∀ r x a b n, p.progress.rc.run = some r → r.params ≠ .edit x (some k) a b n) →
          p.progress.checkEnd.ecu.clips[k] = p.progress.ecu.clips[k] := by
    obtain none | ⟨r, cause, run, ends⟩ := Chip.checkEnd_cases noMap'
    · rw [none]
      exact ⟨rfl, id, fun _ _ => rfl⟩
    · have work := Chip.endEcu_work r cause (p.progress.idled r cause)
      refine ⟨by rw [ends.ecu]; exact work.capture, fun offered => ends.offers _ (work.offers _ offered),
        fun k unused => ?_⟩
      rw [ends.ecu]
      exact Chip.endEcu_clips cause fun x a b n => unused r x a b n run
  have fetched := Chip.offerFetch_offers p.progress.checkEnd
  have noted := Chip.noteStatus_reports p.progress.checkEnd.offerFetch
  obtain ⟨capture, offers, clips⟩ := ended
  unfold Chip.finish
  rw [noted.ecu, fetched.1, capture]
  refine ⟨by rw [moved.ecu], fun offered => noted.offers _ (fetched.2 _ (offers (moved.capture offered))),
    fun k unused => (clips k fun r x a b n run => ?_).trans (by rw [moved.ecu])⟩
  have params : p.progress.rc.run.map RunRecord.params = p.rc.run.map RunRecord.params :=
    (Chip.progress_toils (.refl noSlot p)).params
  rw [run] at params
  cases before : p.rc.run with
  | none =>
    rw [before] at params
    cases params
  | some r' =>
    rw [before] at params
    rw [Option.some.inj params]
    exact unused r' x a b n before

end

end Sys2Proof.Machine


/-! PROOFS. The LOST words of a block handed to CU for a capture or a save (R123, R135, R154, R163). -/

namespace Sys2Proof.Machine

-- One proof after another: the threads of many at once take more memory than the check allows.
set_option Elab.async false

/-- b is a with words of a block handed to CU; ECU changes as K says. -/
structure Chip.HandsOver (K : Ecu → Ecu → Prop) (a b : Chip) : Prop where
  rest : b = { a with cu := b.cu, ecu := b.ecu, mp := b.mp }
  nextId : a.cu.nextId ≤ b.cu.nextId
  evals : ∀ ev ∈ a.cu.evals, ev.id < a.cu.nextId → ev ∈ b.cu.evals
  offers : ∀ r, a.Offers r → b.Offers r
  ecu : K a.ecu b.ecu

/-- An evaluation of a word has begun, under an id CU has given. -/
def Chip.Awaits (p : Chip) (asker : Asker) (index channel : Nat) : Prop :=
  ∃ ev ∈ p.cu.evals, ev.id < p.cu.nextId ∧ ev.asker = asker ∧ ev.index = index ∧ ev.channel = channel ∧
    ev.stage = .lookBehind ∧ ev.distance = 1 ∧
    ev.fetch = some ⟨(index - 1) / 192, (index - 1) % 192 / 12, p.cpm.map.privateBase⟩ ∧ p.Offers (.neighbour ev.id)

/-- The value of an asker settled at once changes ECU alone, as K says. -/
def Settles (K : Ecu → Ecu → Prop) (asker : Asker) : Prop :=
  ∀ p : Chip, p.deliver asker 0 = { p with ecu := (p.deliver asker 0).ecu } ∧ K p.ecu (p.deliver asker 0).ecu

section

variable {K : Ecu → Ecu → Prop} {a b p : Chip} {asker : Asker} {segment pair : Nat}

theorem Chip.HandsOver.trans (chain : ∀ x y z, K x y → K y z → K x z) (h : a.HandsOver K p) (k : p.HandsOver K b) :
    a.HandsOver K b where
  rest := by
    have rest := k.rest
    rw [h.rest] at rest
    exact rest
  nextId := h.nextId.trans k.nextId
  evals := fun ev member old => k.evals ev (h.evals ev member old) (old.trans_le h.nextId)
  offers := fun r x => k.offers r (h.offers r x)
  ecu := chain _ _ _ h.ecu k.ecu

theorem Chip.HandsOver.cpm (h : a.HandsOver K b) : b.cpm = a.cpm := by rw [h.rest]

theorem Chip.Awaits.handsOver {index channel : Nat} (awaits : a.Awaits asker index channel) (h : a.HandsOver K b) :
    b.Awaits asker index channel := by
  obtain ⟨ev, member, old, from', at', ch, stage, distance, fetch, offered⟩ := awaits
  exact ⟨ev, h.evals ev member old, old.trans_le h.nextId, from', at', ch, stage, distance, h.cpm ▸ fetch,
    h.offers _ offered⟩

theorem Chip.Awaits.evaluates {index channel : Nat} (awaits : p.Awaits asker index channel) :
    p.Evaluates asker index channel := by
  obtain ⟨ev, member, -, from', at', ch, stage, distance, fetch, offered⟩ := awaits
  exact ⟨ev, member, from', at', ch, stage, distance, fetch, offered⟩

/-- A word with one before it on tape waits for its block. -/
theorem Chip.startEval_awaits (still : ∀ x, K x x) (channel : Nat) (inner : 0 < 192 * segment + pair) :
    p.HandsOver K (p.startEval segment pair channel asker) ∧
      (p.startEval segment pair channel asker).Awaits asker (192 * segment + pair) channel := by
  rw [Chip.startEval_opens channel asker inner]
  generalize given : ({ p with cu := { p.cu with nextId := p.cu.nextId + 1 } } : Chip) = q
  have put := Chip.putEval_eq (openedEval p.cu.nextId asker segment pair channel p) q
  have nextId := Chip.putEval_nextId (openedEval p.cu.nextId asker segment pair channel p) q
  have there := Chip.mem_putEval (openedEval p.cu.nextId asker segment pair channel p) q
  have others (x : Evaluation) := Chip.mem_putEval_other (x := x)
    (ev := openedEval p.cu.nextId asker segment pair channel p) (p := q)
  subst given
  constructor
  · refine ⟨?_, (Nat.le_succ _).trans_eq nextId.symm, fun ev member old => others ev member (Nat.ne_of_lt old),
      fun r waits => Chip.offers_mono _ ?_, ?_⟩
    · rw [put]
      rfl
    · rw [put]
      exact waits
    · rw [put]
      exact still _
  · refine ⟨_, there, (Nat.lt_succ_self _).trans_eq nextId.symm, rfl, rfl, rfl, rfl, rfl, ?_, Chip.offers_offer _ _⟩
    rw [put]
    rfl

/-- The first word of tape has its value at once. -/
theorem Chip.startEval_settles (channel : Nat) (first : 192 * segment + pair = 0) (noRead : ∀ e k, asker ≠ .read e k)
    (settles : Settles K asker) : p.HandsOver K (p.startEval segment pair channel asker) := by
  have eq : p.startEval segment pair channel asker =
      (({ p with cu := { p.cu with nextId := p.cu.nextId + 1 } } : Chip).dropEval p.cu.nextId).deliver asker 0 := by
    unfold Chip.startEval
    dsimp only
    rw [scan_startEvaluation_first _ _ _ _ _ _ _ first]
    cases asker with
    | read e k => exact absurd rfl (noRead e k)
    | codeEngine k => rfl
    | capture id k => rfl
    | save k => rfl
  obtain ⟨rest, ecu⟩ := settles (({ p with cu := { p.cu with nextId := p.cu.nextId + 1 } } : Chip).dropEval p.cu.nextId)
  rw [eq]
  refine ⟨?_, ?_, fun ev member old => ?_, fun r offered => ?_, ecu⟩
  · rw [rest]
    rfl
  · rw [rest]
    exact Nat.le_succ _
  · rw [rest]
    exact List.mem_filter.mpr ⟨member, by simpa using Nat.ne_of_lt old⟩
  · rw [rest]
    exact offered

/-- The LOST words of a block, one after another. -/
theorem Chip.foldl_startEval (still : ∀ x, K x x) (chain : ∀ x y z, K x y → K y z → K x z) (segment block : Nat)
    {asker : Nat → Asker} (noRead : ∀ i e k, asker i ≠ .read e k)
    (l : List Nat) (settles : ∀ i ∈ l, 192 * segment + (12 * block + i / 2) = 0 → Settles K (asker i)) (p : Chip) :
    p.HandsOver K (l.foldl (fun p i => p.startEval segment (12 * block + i / 2) (i % 2) (asker i)) p) ∧
      ∀ i ∈ l, 0 < 192 * segment + (12 * block + i / 2) →
        (l.foldl (fun p i => p.startEval segment (12 * block + i / 2) (i % 2) (asker i)) p).Awaits (asker i)
          (192 * segment + (12 * block + i / 2)) (i % 2) := by
  induction l generalizing p with
  | nil => exact ⟨⟨rfl, Nat.le_refl _, fun _ member _ => member, fun _ => id, still _⟩, nofun⟩
  | cons i l ih =>
    have here : p.HandsOver K (p.startEval segment (12 * block + i / 2) (i % 2) (asker i)) := by
      by_cases first : 192 * segment + (12 * block + i / 2) = 0
      · exact Chip.startEval_settles _ first (noRead i) (settles i List.mem_cons_self first)
      · exact (Chip.startEval_awaits still _ (Nat.pos_of_ne_zero first)).1
    obtain ⟨later, awaits⟩ := ih (fun k member => settles k (List.mem_cons_of_mem _ member))
      (p.startEval segment (12 * block + i / 2) (i % 2) (asker i))
    refine ⟨here.trans chain later, fun k member inner => ?_⟩
    rcases List.mem_cons.mp member with rfl | member
    · exact (Chip.startEval_awaits still _ inner).2.handsOver later
    · exact awaits k member inner

end

/-! ## The words of a block (R154, R163) -/

section

variable {m : Memory} {base slot block : Nat}

theorem getElem?_audioBlock {k : Nat} (h : k < 24) :
    (audioBlock m base slot block)[k]? = some (playedWord m base slot (30 * block + k)) := by
  simp [audioBlock, h]

theorem mem_lostPositions {k : Nat} : k ∈ lostPositions (audioBlock m base slot block) ↔
    k < 24 ∧ flagAt m base slot (30 * block + k) = .lost := by
  unfold lostPositions
  rw [List.mem_filter, List.mem_range]
  refine and_congr_right fun bound => ?_
  rw [List.getD_eq_getElem?_getD, getElem?_audioBlock bound]
  exact beq_iff_eq

theorem lostPositions_whole (whole : ∀ k, k < 24 → flagAt m base slot (30 * block + k) ≠ .lost) :
    lostPositions (audioBlock m base slot block) = [] :=
  List.eq_nil_iff_forall_not_mem.mpr fun k member =>
    whole k (mem_lostPositions.mp member).1 (mem_lostPositions.mp member).2

theorem copiedValue_kept {wf : Nat × WordFlag} (kept : wf.2 ≠ .lost) : copiedValue wf = some wf.1 := by
  unfold copiedValue
  split
  · exact absurd ‹_› kept
  · rfl

theorem copiedValue_lost {wf : Nat × WordFlag} (lost : wf.2 = .lost) : copiedValue wf = none := by
  unfold copiedValue
  rw [lost]

theorem getElem?_copied {k : Nat} (h : k < 24) : ((audioBlock m base slot block).map copiedValue)[k]? =
    some (copiedValue (playedWord m base slot (30 * block + k))) := by
  rw [List.getElem?_map, getElem?_audioBlock h]
  rfl

/-- With no word LOST a block has every value. -/
theorem copied_whole (whole : ∀ k, k < 24 → flagAt m base slot (30 * block + k) ≠ .lost) :
    (audioBlock m base slot block).map copiedValue =
      (List.range 24).map fun k => some (Memory.readWord m (playbackAddr base slot (30 * block + k))).toNat := by
  unfold audioBlock
  rw [List.map_map]
  exact List.map_congr_left fun k member => copiedValue_kept (whole k (List.mem_range.mp member))

end

end Sys2Proof.Machine


/-! PROOFS. CAPTURE_BLOCK_READ and CAPTURE_BLOCK_WRITE: a segment copied into the clip store (O49). -/

namespace Sys2Proof.Machine

-- One proof after another: the threads of many at once take more memory than the check allows.
set_option Elab.async false

/-! ## The block read (R154) -/

/-- Of the values of the capture only those of settled words change. -/
def Ecu.FillsCapture (settled : Nat → Prop) (a b : Ecu) : Prop :=
  b = { a with capture := b.capture } ∧ ∀ c, a.capture = some c →
    ∃ vs, b.capture = some { c with values := vs } ∧ ∀ k, ¬settled k → vs[k]? = c.values[k]?

section

variable {settled : Nat → Prop}

theorem Ecu.FillsCapture.refl (a : Ecu) : a.FillsCapture settled a :=
  ⟨rfl, fun c capture => ⟨c.values, capture, fun _ _ => rfl⟩⟩

theorem Ecu.FillsCapture.trans (a b c : Ecu) (h : a.FillsCapture settled b) (k : b.FillsCapture settled c) :
    a.FillsCapture settled c := by
  obtain ⟨rest, fills⟩ := h
  obtain ⟨rest', fills'⟩ := k
  refine ⟨?_, fun x capture => ?_⟩
  · rw [rest] at rest'
    exact rest'
  · obtain ⟨vs, mid, same⟩ := fills x capture
    obtain ⟨vs', last, same'⟩ := fills' _ mid
    exact ⟨vs', last, fun i other => (same' i other).trans (same i other)⟩

theorem settles_capture {id k : Nat} (first : settled k) : Settles (Ecu.FillsCapture settled) (.capture id k) := by
  intro p
  unfold Chip.deliver
  dsimp only
  split
  · rename_i c capture
    split
    · refine ⟨rfl, rfl, fun x same => ?_⟩
      obtain rfl := Option.some.inj (capture.symm.trans same)
      refine ⟨_, rfl, fun i other => ?_⟩
      exact List.getElem?_set_ne fun same : k = i => other (same ▸ first)
    · exact ⟨rfl, .refl _⟩
  · exact ⟨rfl, .refl _⟩

end

/-- The capture with the words of its block taken. -/
def Capture.took (c : Capture) (ws : List (Nat × WordFlag)) : Capture :=
  { c with stage := .concealing, values := ws.map copiedValue }

section

variable {p : Chip} {c : Capture}

/-- A capture with every value goes on to its write. -/
theorem Chip.captureProceed_whole (capture : p.ecu.capture = some c) (waits : c.stage = .concealing)
    (whole : c.values.all Option.isSome = true) : p.captureProceed c.id =
      { p with ecu := { p.ecu with capture := some { c with stage := .writing } } }.offer .capture := by
  unfold Chip.captureProceed
  rw [capture]
  exact if_pos ⟨rfl, waits, whole⟩

/-- A capture with a value to come waits. -/
theorem Chip.captureProceed_open (capture : p.ecu.capture = some c) (isOpen : none ∈ c.values) (id : Nat) :
    p.captureProceed id = p := by
  unfold Chip.captureProceed
  rw [capture]
  refine if_neg fun ⟨_, _, whole⟩ => ?_
  exact absurd (List.all_eq_true.mp whole none isOpen) (by simp)

variable {m : Memory} {base slot : Nat}

theorem Chip.captureRead_whole (whole : ∀ k, k < 24 → flagAt m base slot (30 * c.block + k) ≠ .lost) :
    p.captureRead c (audioBlock m base slot c.block) = { p with
      ecu := { p.ecu with capture := some { c with
        stage := .writing
        values := (List.range 24).map fun k =>
          some (Memory.readWord m (playbackAddr base slot (30 * c.block + k))).toNat } } }.offer .capture := by
  unfold Chip.captureRead Chip.concealBlock
  dsimp only
  rw [lostPositions_whole whole, copied_whole whole, List.foldl_nil]
  refine Chip.captureProceed_whole (p := { p with ecu := { p.ecu with capture := some { c with
    stage := .concealing
    values := (List.range 24).map fun k =>
      some (Memory.readWord m (playbackAddr base slot (30 * c.block + k))).toNat } } }) rfl rfl ?_
  simp

/-- A block with a word LOST that has one before it on tape: the capture waits for CU. -/
theorem Chip.captureRead_conceals {k : Nat} (bound : k < 24) (lost : flagAt m base slot (30 * c.block + k) = .lost)
    (inner : 0 < 192 * (c.first + c.segment) + (12 * c.block + k / 2)) :
    let b := p.captureRead c (audioBlock m base slot c.block)
    let settled (k : Nat) : Prop :=
      192 * (c.first + c.segment) + (12 * c.block + k / 2) = 0 ∧ flagAt m base slot (30 * c.block + k) = .lost
    ({ p with ecu := { p.ecu with capture := some (c.took (audioBlock m base slot c.block)) } } : Chip).HandsOver
        (Ecu.FillsCapture settled) b ∧
      ∀ i, i < 24 → flagAt m base slot (30 * c.block + i) = .lost →
        0 < 192 * (c.first + c.segment) + (12 * c.block + i / 2) →
        b.Awaits (.capture c.id i) (192 * (c.first + c.segment) + (12 * c.block + i / 2)) (i % 2) := by
  intro b settled
  obtain ⟨hands, awaits⟩ := Chip.foldl_startEval (K := Ecu.FillsCapture settled) .refl .trans (c.first + c.segment)
    c.block (asker := .capture c.id) (fun _ _ _ => nofun) (lostPositions (audioBlock m base slot c.block))
    (fun i member first => settles_capture ⟨first, (mem_lostPositions.mp member).2⟩)
    { p with ecu := { p.ecu with capture := some (c.took (audioBlock m base slot c.block)) } }
  obtain ⟨vs, capture, kept⟩ := hands.ecu.2 _ rfl
  have isOpen : none ∈ vs := by
    refine List.mem_of_getElem? (i := k) ((kept k fun settled => Nat.ne_of_gt inner settled.1).trans ?_)
    refine (getElem?_copied bound).trans (congrArg some (copiedValue_lost lost))
  have waits : b = _ := Chip.captureProceed_open capture isOpen c.id
  rw [waits]
  exact ⟨hands, fun i below lost' => awaits i (mem_lostPositions.mpr ⟨below, lost'⟩)⟩

end

/-! ## The block written (R61, R155) -/

section

variable {q : Chip}

theorem Chip.unpin_ensues {a p : Chip} (i : Fin 128) (h : a.Ensues p) : a.Ensues (p.unpin i) := by
  unfold Chip.unpin
  exact Chip.releaseTest_ensues i (Chip.modSlot_ensues _ _ h)

/-- What the end of a segment's copy leaves: its slot has a pin fewer, and the event follows (R61). -/
theorem Chip.unpin_finish (noMap : q.cpm.pendingMap = none) (i : Fin 128) :
    SlotUnpinned (q.slot i) ((q.unpin i).finish.slot i) ∧ (q.unpin i).finish.ecu.capture = q.ecu.capture ∧
      (q.Offers .capture → (q.unpin i).finish.Offers .capture) ∧
      (∀ k : Fin 4, (∀ r x a b n, q.rc.run = some r → r.params ≠ .edit x (some k) a b n) →
        (q.unpin i).finish.ecu.clips[k] = q.ecu.clips[k]) ∧
      RequestGoesOn q.cpm.request (q.unpin i).finish.cpm.request ∧
      ∀ r, r.cls = 6 → q.Offers r → (q.unpin i).finish.Offers r := by
  have ensues := Chip.unpin_ensues i (.refl q)
  have frees := Chip.unpin_frees (S := (· = i)) rfl (.refl _ q)
  have serves := Chip.finish_serves (.refl (q.unpin i))
  have noMap' : (q.unpin i).cpm.pendingMap = none := by
    rw [frees.sameCpm]
    exact noMap
  obtain ⟨capture, offers, clips⟩ := Chip.finish_capture noMap'
  refine ⟨(Chip.unpin_unpins (.refl _)).goesOn (serves.slots i), ?_, fun offered => offers (ensues.capture offered),
    fun k unused => (clips k fun r x a b n run => ?_).trans ?_, ?_, fun r cls offered => ?_⟩
  · rw [capture, ensues.ecu]
  · obtain ⟨r', run', params⟩ := Option.map_eq_some_iff.mp
      (frees.params.symm.trans (congrArg (Option.map RunRecord.params) run))
    rw [← params]
    exact unused r' x a b n run'
  · rw [ensues.ecu]
  · have request : (q.unpin i).cpm.request = q.cpm.request := by rw [frees.sameCpm]
    exact request ▸ serves.request
  · exact serves.results r cls (frees.results r cls offered)

end

section

variable {p : Chip} {c : Capture}

theorem Chip.captureWritten_next (more : c.block < 15) : p.captureWritten c = p.nextCapture c c.segment (c.block + 1) :=
  if_pos more

theorem Chip.captureWritten_segment (last : ¬c.block < 15) (more : c.segment + 1 < c.count) :
    p.captureWritten c = ((p.nextCapture c (c.segment + 1) 0).unpin c.slot).finish := by
  unfold Chip.captureWritten
  dsimp only
  rw [if_neg last, if_pos more]

theorem Chip.captureWritten_end (last : ¬c.block < 15) (all : ¬c.segment + 1 < c.count) :
    p.captureWritten c = ((p.endCapture c).unpin c.slot).finish := by
  unfold Chip.captureWritten
  dsimp only
  rw [if_neg last, if_neg all]

/-- The capture ends: the clip is READY, and the request is told (R155). -/
theorem Chip.endCapture_ends (c : Capture) (p : Chip) :
    (p.endCapture c).slots = p.slots ∧ (p.endCapture c).rc = p.rc ∧ (p.endCapture c).ecu.capture = none ∧
      (p.endCapture c).cpm.pendingMap = p.cpm.pendingMap ∧
      (p.endCapture c).ecu.clips[c.clip] = (p.ecu.clips[c.clip]).captured c ∧
      ∀ q, p.cpm.request = some q → (p.endCapture c).cpm.request = some { q with reported := true } ∧
        ∃ id, (p.endCapture c).Offers (.result id ⟨q.tag, .done, captureDetail c⟩ (some q.id)) := by
  have told := Chip.report_told .done (captureDetail c)
    (({ p with ecu := { p.ecu with capture := none } } : Chip).setClip
    c.clip ((p.ecu.clips[c.clip]).captured c))
  have ecu := told.records.tape.2.2.2.2
  refine ⟨told.records.tape.1, told.records.tape.2.2.2.1, congrArg Ecu.capture ecu, ?_, ?_, fun q pending => ?_⟩
  · have cpm := told.records.cpm
    change Cpm.SameButReports _ (p.endCapture c).cpm at cpm
    rw [cpm]
    rfl
  · refine (congrArg (fun e : Ecu => e.clips[c.clip]) ecu).trans ?_
    exact Vector.getElem_set_self _
  · obtain ⟨records, -, -, id, -, offered⟩ := Chip.report_spec (p := ({ p with
      ecu := { p.ecu with capture := none } } : Chip).setClip c.clip ((p.ecu.clips[c.clip]).captured c)) pending .done
      (captureDetail c)
    exact ⟨congrArg Cpm.request records.cpm, id, offered⟩

end

theorem exec_captureBlockRead {s : State} {c : Capture} (capture : s.ecu.capture = some c)
    (reading : c.stage = .reading)
    (grant : s.mp.mayGrant .capture = true) : exec .captureBlockRead s = .next (s.onChip fun p =>
      (p.beginGrant .capture).captureRead c (audioBlock s.mem c.base c.slot c.block)) := by
  show execCaptureBlockRead s = _
  unfold execCaptureBlockRead
  rw [capture]
  exact if_pos ⟨reading, grant⟩

theorem exec_captureBlockWrite {s : State} {c : Capture} {vs : List Nat} (capture : s.ecu.capture = some c)
    (writing : c.stage = .writing) (values : c.values = vs.map some) (grant : s.mp.mayGrant .capture = true) :
    exec .captureBlockWrite s = .next { s with
      toChip := (s.toChip.beginGrant .capture).captureWritten c
      mem := Memory.writeWords s.mem
        (placeWords (clipAddr c.base c.clip c.segment (24 * c.block)) (vs.map word)) } := by
  show execCaptureBlockWrite s = _
  unfold execCaptureBlockWrite
  rw [capture]
  dsimp only
  rw [if_pos ⟨writing, grant⟩]
  unfold Capture.writes
  rw [values, List.map_map]
  rfl

/-- Settles O49: a whole block is taken at once, a LOST word waits for CU; a block written leads to the next, and the
last of a segment unpins its slot. -/
theorem captureCopiesBlocks : Obligations.CaptureCopiesBlocks := by
  unfold Obligations.CaptureCopiesBlocks
  intro s c capture grant i value flag A rest
  refine ⟨fun reading whole => ?_, fun reading ⟨k, bound, lost, inner⟩ => ?_,
    fun vs writing values _ bound wf noMap => ?_⟩
  · refine ⟨_, exec_captureBlockRead capture reading grant, ?_⟩
    dsimp only [State.onChip]
    rw [Chip.captureRead_whole (slot := c.slot.val) whole]
    exact ⟨⟨rfl, rfl, rfl, rfl, rfl, rfl, rfl⟩, rfl, Chip.offers_offer _ _, rfl⟩
  · have place (k : Nat) : A k = 192 * (c.first + c.segment) + (12 * c.block + k / 2) := Nat.add_assoc _ _ _
    obtain ⟨hands, awaits⟩ := Chip.captureRead_conceals (slot := c.slot.val) (p := s.toChip.beginGrant .capture) bound
      lost (place k ▸ inner)
    obtain ⟨vs, captured, kept⟩ := hands.ecu.2 _ rfl
    refine ⟨_, _, exec_captureBlockRead capture reading grant, ⟨hands.ecu.1, ?_⟩, captured, rfl, rfl, rfl, rfl,
      fun k below present => ?_, fun k below lost' inner' => ?_⟩
    · dsimp only [State.onChip]
      rw [hands.rest]
      exact ⟨rfl, rfl, rfl, rfl, rfl, rfl⟩
    · refine (kept k fun settled => present settled.2).trans ?_
      exact (getElem?_copied below).trans (congrArg some (copiedValue_kept present))
    · rw [place]
      exact (awaits k below lost' (place k ▸ inner')).evaluates
  · have stored := stored_placeWords s.mem (clipAddr c.base c.clip c.segment (24 * c.block)) (vs.map word) wf
    refine ⟨_, exec_captureBlockWrite capture writing values grant, stored, ?_⟩
    dsimp only
    by_cases more : c.block < 15
    · rw [Chip.captureWritten_next more]
      exact ⟨fun _ => ⟨⟨rfl, rfl, rfl, rfl, rfl, rfl, rfl⟩, rfl, Chip.offers_offer _ _, rfl⟩,
        fun last => absurd more (by omega), fun last => absurd more (by omega), fun last => absurd more (by omega)⟩
    · by_cases segments : c.segment + 1 < c.count
      · rw [Chip.captureWritten_segment more segments]
        obtain ⟨unpinned, kept, offers, -⟩ := Chip.unpin_finish
          (q := (s.toChip.beginGrant .capture).nextCapture c (c.segment + 1) 0) noMap c.slot
        exact ⟨fun less => absurd less more, fun _ => unpinned.2,
          fun _ _ => ⟨offers (Chip.offers_offer _ _), kept⟩, fun _ all => absurd segments (by omega)⟩
      · rw [Chip.captureWritten_end more segments]
        obtain ⟨slots, rc, ended, pending, clip, answered⟩ := Chip.endCapture_ends c (s.toChip.beginGrant .capture)
        obtain ⟨unpinned, kept, -, clips, request, results⟩ := Chip.unpin_finish (pending.trans noMap) c.slot
        refine ⟨fun less => absurd less more, fun _ => ?_, fun _ less => absurd less segments, fun _ _ unused =>
          ⟨kept.trans ended, ?_, fun q asked => ?_⟩⟩
        · have same : ((s.toChip.beginGrant .capture).endCapture c).slot c.slot = s.toChip.slot c.slot :=
            congrArg (fun x : Vector Slot 128 => x[c.slot]) slots
          rw [same] at unpinned
          exact unpinned.2
        · exact (clips c.clip fun r => by rw [rc]; exact unused r).trans clip
        · obtain ⟨told, id, offered⟩ := answered q asked
          refine ⟨?_, id, results _ rfl offered⟩
          rw [told] at request
          obtain same | ⟨x, pending', same⟩ := request
          · exact same
          · rw [same, ← Option.some.inj pending']

end Sys2Proof.Machine


/-! PROOFS. SAVE_TAKE to SAVE_CLOSING_WRITE: a segment copied into the undo store, its entry pushed (O50). -/

namespace Sys2Proof.Machine

-- One proof after another: the threads of many at once take more memory than the check allows.
set_option Elab.async false

/-! ## The block read (R163) -/

/-- Of the values of the save in progress only those of settled words change. -/
def Ecu.FillsSave (settled : Nat → Prop) (a b : Ecu) : Prop :=
  b = { a with saving := b.saving } ∧ ∀ j, a.saving = some j →
    ∃ vs, b.saving = some { j with values := vs } ∧ ∀ k, ¬settled k → vs[k]? = j.values[k]?

section

variable {settled : Nat → Prop}

theorem Ecu.FillsSave.refl (a : Ecu) : a.FillsSave settled a :=
  ⟨rfl, fun j saving => ⟨j.values, saving, fun _ _ => rfl⟩⟩

theorem Ecu.FillsSave.trans (a b c : Ecu) (h : a.FillsSave settled b) (k : b.FillsSave settled c) :
    a.FillsSave settled c := by
  obtain ⟨rest, fills⟩ := h
  obtain ⟨rest', fills'⟩ := k
  refine ⟨?_, fun x saving => ?_⟩
  · rw [rest] at rest'
    exact rest'
  · obtain ⟨vs, mid, same⟩ := fills x saving
    obtain ⟨vs', last, same'⟩ := fills' _ mid
    exact ⟨vs', last, fun i other => (same' i other).trans (same i other)⟩

theorem settles_save {k : Nat} (first : settled k) : Settles (Ecu.FillsSave settled) (.save k) := by
  intro p
  unfold Chip.deliver
  dsimp only
  split
  · rename_i j saving
    refine ⟨rfl, rfl, fun x same => ?_⟩
    obtain rfl := Option.some.inj (saving.symm.trans same)
    refine ⟨_, rfl, fun i other => ?_⟩
    exact List.getElem?_set_ne fun same : k = i => other (same ▸ first)
  · exact ⟨rfl, .refl _⟩

end

/-- The save with the words of its block taken. -/
def SaveJob.took (j : SaveJob) (ws : List (Nat × WordFlag)) : SaveJob :=
  { j with
    stage := .concealing, values := ws.map copiedValue
    concealed := j.concealed || ws.any fun wf => wf.2 == .lost }

section

variable {p : Chip} {j : SaveJob}

/-- A save with every value goes on to its write. -/
theorem Chip.saveProceed_whole (saving : p.ecu.saving = some j) (waits : j.stage = .concealing) (live : j.void = false)
    (whole : j.values.all Option.isSome = true) : p.saveProceed =
      { p with ecu := { p.ecu with saving := some { j with stage := .writing } } }.offer .save := by
  unfold Chip.saveProceed
  rw [saving]
  dsimp only
  rw [if_pos waits, if_neg (by rw [live]; decide), if_pos whole]

/-- A save with a value to come waits. -/
theorem Chip.saveProceed_open (saving : p.ecu.saving = some j) (live : j.void = false) (isOpen : none ∈ j.values) :
    p.saveProceed = p := by
  have partly : ¬j.values.all Option.isSome = true := fun whole =>
    absurd (List.all_eq_true.mp whole none isOpen) (by simp)
  unfold Chip.saveProceed
  rw [saving]
  dsimp only
  rw [if_neg (show ¬j.void = true by rw [live]; decide), if_neg partly, ite_self]

variable {m : Memory} {base slot : Nat}

theorem audioBlock_noneLost {block : Nat} (whole : ∀ k, k < 24 → flagAt m base slot (30 * block + k) ≠ .lost) :
    ((audioBlock m base slot block).any fun wf => wf.2 == .lost) = false := by
  rw [List.any_eq_false]
  intro wf member
  obtain ⟨k, bound, rfl⟩ := List.mem_map.mp member
  rw [beq_iff_eq]
  exact whole k (List.mem_range.mp bound)

theorem audioBlock_someLost {block k : Nat} (bound : k < 24) (lost : flagAt m base slot (30 * block + k) = .lost) :
    ((audioBlock m base slot block).any fun wf => wf.2 == .lost) = true :=
  List.any_eq_true.mpr ⟨_, List.mem_map.mpr ⟨k, List.mem_range.mpr bound, rfl⟩, beq_iff_eq.mpr lost⟩

theorem Chip.saveRead_whole (live : j.void = false)
    (whole : ∀ k, k < 24 → flagAt m base slot (30 * j.block + k) ≠ .lost) :
    p.saveRead j (audioBlock m base slot j.block) = { p with
      ecu := { p.ecu with saving := some { j with
        stage := .writing
        values := (List.range 24).map fun k =>
          some (Memory.readWord m (playbackAddr base slot (30 * j.block + k))).toNat } } }.offer .save := by
  unfold Chip.saveRead Chip.concealBlock
  dsimp only
  rw [lostPositions_whole whole, copied_whole whole, audioBlock_noneLost whole, Bool.or_false, List.foldl_nil]
  refine Chip.saveProceed_whole (p := { p with ecu := { p.ecu with saving := some { j with
    stage := .concealing
    values := (List.range 24).map fun k =>
      some (Memory.readWord m (playbackAddr base slot (30 * j.block + k))).toNat } } }) rfl rfl live ?_
  simp

/-- A block with a word LOST that has one before it on tape: the save waits for CU. -/
theorem Chip.saveRead_conceals {k : Nat} (live : j.void = false) (bound : k < 24)
    (lost : flagAt m base slot (30 * j.block + k) = .lost)
    (inner : 0 < 192 * j.save.segment + (12 * j.block + k / 2)) :
    let b := p.saveRead j (audioBlock m base slot j.block)
    let settled (k : Nat) : Prop :=
      192 * j.save.segment + (12 * j.block + k / 2) = 0 ∧ flagAt m base slot (30 * j.block + k) = .lost
    ({ p with ecu := { p.ecu with saving := some (j.took (audioBlock m base slot j.block)) } } : Chip).HandsOver
        (Ecu.FillsSave settled) b ∧
      ∀ i, i < 24 → flagAt m base slot (30 * j.block + i) = .lost →
        0 < 192 * j.save.segment + (12 * j.block + i / 2) →
        b.Awaits (.save i) (192 * j.save.segment + (12 * j.block + i / 2)) (i % 2) := by
  intro b settled
  obtain ⟨hands, awaits⟩ := Chip.foldl_startEval (K := Ecu.FillsSave settled) .refl .trans j.save.segment
    j.block (asker := .save) (fun _ _ _ => nofun) (lostPositions (audioBlock m base slot j.block))
    (fun i member first => settles_save ⟨first, (mem_lostPositions.mp member).2⟩)
    { p with ecu := { p.ecu with saving := some (j.took (audioBlock m base slot j.block)) } }
  obtain ⟨vs, saving, kept⟩ := hands.ecu.2 _ rfl
  have isOpen : none ∈ vs := by
    refine List.mem_of_getElem? (i := k) ((kept k fun settled => Nat.ne_of_gt inner settled.1).trans ?_)
    exact (getElem?_copied bound).trans (congrArg some (copiedValue_lost lost))
  have waits : b = _ := Chip.saveProceed_open saving live isOpen
  rw [waits]
  exact ⟨hands, fun i below lost' => awaits i (mem_lostPositions.mpr ⟨below, lost'⟩)⟩

/-! ## The block written (R163) -/

theorem Chip.saveWritten_next (more : j.block < 15) : p.saveWritten j =
    { p with ecu := { p.ecu with
      saving := some { j with block := j.block + 1, stage := .reading, values := [] } } }.offer .save := if_pos more

theorem Chip.saveWritten_last (last : ¬j.block < 15) : p.saveWritten j =
    { p with ecu := { p.ecu with
      images := p.ecu.images.set j.save.image (j.record (p.slot j.save.slot).recovered)
      saving := some { j with stage := .closing } } }.offer .save := by
  unfold Chip.saveWritten
  rw [if_neg last]
  rfl

/-! ## The end of the save (R163, R165) -/

/-- The SEG entry of a save pushed on the stack. -/
def Chip.pushSave (p : Chip) (j : SaveJob) : Chip := (p.secureWords 2).pushEntry (.seg j.save.segment j.save.image)

theorem Chip.pushSave_work (p : Chip) (j : SaveJob) : p.StackWork (p.pushSave j) :=
  (p.secureWords_work 2).trans (Chip.pushEntry_work _ _).1

/-- ECU as the end of a save leaves it, and the slot tested again. -/
theorem Chip.endSave_eq (p : Chip) (j : SaveJob) : p.endSave j = { p.pushSave j with
    ecu := { (p.pushSave j).ecu with segCount := p.ecu.segCount + 1, saving := none }
    slots := ((p.pushSave j).modSlot j.save.slot fun s => { s with undoSave := .ended }).slots
    ce := (p.endSave j).ce } := by
  have count : (p.pushSave j).ecu.segCount = p.ecu.segCount := by rw [(p.pushSave_work j).ecu]
  rw [← count]
  exact Chip.queueTest_eq _ _

theorem Chip.pushSave_slot (p : Chip) (j : SaveJob) (i : Fin 128) : (p.pushSave j).slot i = p.slot i :=
  congrArg (fun x : Vector Slot 128 => x[i]) (by rw [(p.pushSave_work j).rest])

theorem Chip.endSave_slot (p : Chip) (j : SaveJob) (i : Fin 128) : (p.endSave j).slot i =
    ((p.pushSave j).modSlot j.save.slot fun s => { s with undoSave := .ended }).slot i := by
  have slots := congrArg Chip.slots (p.endSave_eq j)
  exact congrArg (fun x : Vector Slot 128 => x[i]) slots

theorem Chip.endSave_offers (p : Chip) (j : SaveJob) (r : Req) : (p.endSave j).Offers r ↔ (p.pushSave j).Offers r := by
  rw [Chip.endSave_eq]
  rfl

/-- The entry pushed where it fits. -/
theorem Chip.pushSave_fits (fits : stackDepth p.ecu.stack + 2 ≤ 1024) : (p.pushSave j).ecu.images = p.ecu.images ∧
    (p.pushSave j).ecu.bottom = p.ecu.bottom ∧
    (p.pushSave j).ecu.stack = p.ecu.stack ++ [.seg j.save.segment j.save.image] ∧
    (p.pushSave j).Offers (mirrorWrite p.cpm.map.privateBase (p.ecu.bottom + stackDepth p.ecu.stack)
      (segWords j.save.segment j.save.image)) := by
  unfold Chip.pushSave
  rw [Chip.secureWords_fits (.inl fits)]
  exact ⟨rfl, rfl, rfl, (Chip.pushEntry_work _ _).2.2⟩

/-- The entry pushed in the room that the oldest run leaves. -/
theorem Chip.pushSave_drops {oldest rest : List StackEntry} (old : OldestRun p.ecu.stack oldest rest)
    (depth : stackDepth p.ecu.stack ≤ 1024) (full : 1024 < stackDepth p.ecu.stack + 2) :
    (p.pushSave j).ecu.stack = rest ++ [.seg j.save.segment j.save.image] ∧
      (p.pushSave j).ecu.bottom = (p.ecu.bottom + stackDepth oldest + 4) % 1024 ∧
      p.RemovalMirrored (p.pushSave j) 0 oldest.length ∧
      (p.pushSave j).Offers (mirrorWrite p.cpm.map.privateBase (p.ecu.bottom + stackDepth p.ecu.stack)
        (segWords j.save.segment j.save.image)) ∧
      (∀ t u, .seg t u ∈ oldest → ((p.pushSave j).ecu.images[u]).used = false) ∧
      ∀ u : Fin 256, (∀ t, .seg t u ∉ oldest) → (p.pushSave j).ecu.images[u] = p.ecu.images[u] := by
  obtain ⟨segs, tag, first, count, mark, stack⟩ := old
  obtain ⟨drops, left⟩ := Chip.dropRun_drops segs stack
  obtain ⟨work, pushed, mirrored⟩ := Chip.pushEntry_work (.seg j.save.segment j.save.image) p.dropRun
  have runWords : stackDepth (oldest ++ [StackEntry.run tag first count mark]) = stackDepth oldest + 4 := by
    rw [stackDepth_append, stackDepth_cons, StackEntry.words_run, stackDepth_nil]
  unfold Chip.pushSave
  rw [Chip.secureWords_drops (by decide) segs stack depth full, pushed]
  obtain ⟨segments, ended⟩ := drops.removal segs
  refine ⟨?_, ?_, ⟨fun k lt => work.offers _ (segments k lt), work.offers _ ended⟩, ?_, fun t u member => ?_,
    fun u out => ?_⟩
  · rw [left]
  · have bottom := drops.bottom
    have wrapped := drops.wrapped (by simp)
    rw [runWords] at bottom
    show p.dropRun.ecu.bottom = _
    omega
  · rw [drops.work.cpm] at mirrored
    rw [mirrorWrite_congr (y := p.dropRun.ecu.bottom + stackDepth p.dropRun.ecu.stack)]
    · exact mirrored
    · have bottom := drops.bottom
      rw [drops.stack, stackDepth_append]
      omega
  · exact drops.frees.freed t u (List.mem_append_left _ member)
  · refine drops.frees.kept u fun t member => ?_
    obtain seg | run := List.mem_append.mp member
    · exact out t seg
    · cases List.mem_singleton.mp run

/-- The pushed entry is on top. -/
theorem Chip.pushSave_top (p : Chip) (j : SaveJob) :
    (p.pushSave j).ecu.stack.getLast? = some (.seg j.save.segment j.save.image) := by
  unfold Chip.pushSave
  rw [(Chip.pushEntry_work _ _).2.1]
  exact List.getLast?_concat

end

section

variable {s : State} {j : SaveJob}

theorem exec_saveBlockRead (saving : s.ecu.saving = some j) (reading : j.stage = .reading)
    (grant : s.mp.mayGrant .save = true) : exec .saveBlockRead s = .next (s.onChip fun p =>
      (p.beginGrant .save).saveRead j (audioBlock s.mem j.base j.save.slot j.block)) := by
  show execSaveBlockRead s = _
  unfold execSaveBlockRead
  rw [saving]
  exact if_pos ⟨reading, grant⟩

theorem exec_saveBlockWrite {vs : List Nat} (saving : s.ecu.saving = some j) (writing : j.stage = .writing)
    (values : j.values = vs.map some) (grant : s.mp.mayGrant .save = true) : exec .saveBlockWrite s = .next { s with
      toChip := (s.toChip.beginGrant .save).saveWritten j
      mem := Memory.writeWords s.mem
        (placeWords (undoAddr j.base j.save.image (30 * j.block)) (vs.map word)) } := by
  show execSaveBlockWrite s = _
  unfold execSaveBlockWrite
  rw [saving]
  dsimp only
  rw [if_pos ⟨writing, grant⟩]
  unfold SaveJob.writes
  rw [values, List.map_map]
  rfl

theorem exec_saveClosingWrite (saving : s.ecu.saving = some j) (closing : j.stage = .closing)
    (grant : s.mp.mayGrant .save = true) : exec .saveClosingWrite s = .next { s with
      toChip := (s.toChip.beginGrant .save).endSave j
      mem := Memory.writeWords s.mem (closingWrites j (s.ecu.images[j.save.image])) } := by
  show execSaveClosingWrite s = _
  unfold execSaveClosingWrite
  rw [saving]
  exact if_pos ⟨closing, grant⟩

end

theorem closingWrites_apart (j : SaveJob) (r : ImageRecord) : Apart (closingWrites j r) := by
  unfold Apart closingWrites undoAddr
  simp

/-- The queue test after a save queues the code item of a CLOSED slot of an EDIT (R57). -/
theorem Chip.endSave_queues {p : Chip} {j : SaveJob} {r : RunRecord} (run : p.rc.run = some r) (edit : r.kind = .edit)
    (claimed : (p.slot j.save.slot).claimed = true) (closed : (p.slot j.save.slot).write = .closed)
    (ready : (p.slot j.save.slot).play = .ready) : ∃ e ∈ (p.endSave j).ce.queue, e.item.codes j.save.slot = true := by
  have work := p.pushSave_work j
  have slot := p.pushSave_slot j j.save.slot
  have rc : (p.pushSave j).rc = p.rc := by rw [work.rest]
  unfold Chip.endSave
  dsimp only
  refine Chip.queueTest_queues (r := r) (rc ▸ run) ?_ ?_ ?_
  · rw [Chip.slot_modSlot_same]
    exact (congrArg Slot.claimed slot).trans claimed
  · rw [Chip.slot_modSlot_same]
    exact (congrArg Slot.write slot).trans closed
  · unfold Chip.mayCode
    rw [edit, Chip.slot_modSlot_same]
    dsimp only
    rw [Bool.and_eq_true, beq_iff_eq]
    exact ⟨(congrArg Slot.play slot).trans ready, rfl⟩

/-- Settles O50: the block is copied as a capture copies one; the end of the save is its push, by whether the entry
fits. -/
theorem savesCopyTheSegment : Obligations.SavesCopyTheSegment := by
  unfold Obligations.SavesCopyTheSegment
  constructor
  · intro s v queue none_ queued
    have answer : exec .saveTake s = .next (s.onChip fun p => p.begin.takeSave v queue) := by
      show execSaveTake s = _
      unfold execSaveTake
      rw [none_, queued]
    exact ⟨_, answer, Chip.offers_offer _ _, rfl, rfl, rfl, rfl, rfl, rfl, rfl, rfl⟩
  · intro s j saving live grant i value flag A rest r
    have place (k : Nat) : A k = 192 * j.save.segment + (12 * j.block + k / 2) := Nat.add_assoc _ _ _
    refine ⟨fun reading whole => ?_, fun reading ⟨k, bound, lost, inner⟩ => ?_, fun vs writing values _ bound wf => ?_,
      fun closing wf => ?_⟩
    · refine ⟨_, exec_saveBlockRead saving reading grant, ?_⟩
      dsimp only [State.onChip]
      rw [Chip.saveRead_whole (slot := j.save.slot.val) live whole]
      exact ⟨⟨rfl, rfl, rfl, rfl⟩, rfl, rfl, rfl, Chip.offers_offer _ _, rfl⟩
    · obtain ⟨hands, awaits⟩ := Chip.saveRead_conceals (slot := j.save.slot.val) (p := s.toChip.beginGrant .save) live
        bound lost (place k ▸ inner)
      obtain ⟨vs, copied, kept⟩ := hands.ecu.2 _ rfl
      refine ⟨_, { j.took (audioBlock s.mem j.base j.save.slot j.block) with values := vs },
        exec_saveBlockRead saving reading grant, ?_, ?_, ?_, ?_, rfl, rfl, rfl,
        ?_, fun k below present => ?_, fun k below lost' inner' => ?_⟩
      · dsimp only [State.onChip]
        rw [hands.rest]
        exact ⟨rfl, rfl, rfl, rfl⟩
      · dsimp only [State.onChip]
        rw [hands.rest]
        rfl
      · dsimp only [State.onChip]
        rw [hands.rest]
        rfl
      · exact hands.ecu.1.trans (congrArg (fun x => { s.ecu with saving := x }) copied)
      · show (j.concealed || _) = true
        rw [audioBlock_someLost bound lost, Bool.or_true]
      · refine (kept k fun settled => present settled.2).trans ?_
        exact (getElem?_copied below).trans (congrArg some (copiedValue_kept present))
      · rw [place]
        exact (awaits k below lost' (place k ▸ inner')).evaluates
    · have stored := stored_placeWords s.mem (undoAddr j.base j.save.image (30 * j.block)) (vs.map word) wf
      refine ⟨_, exec_saveBlockWrite saving writing values grant, ?_⟩
      by_cases more : j.block < 15
      · dsimp only
        rw [Chip.saveWritten_next more]
        exact ⟨⟨rfl, rfl, rfl, rfl⟩, rfl, rfl, rfl, stored, Chip.offers_offer _ _, fun _ => rfl,
          fun last => absurd more (by omega)⟩
      · dsimp only
        rw [Chip.saveWritten_last more]
        refine ⟨⟨rfl, rfl, rfl, rfl⟩, rfl, rfl, rfl, stored, Chip.offers_offer _ _, fun less => absurd less more,
          fun _ => ⟨rfl, rfl, Vector.getElem_set_self _, fun u other => ?_⟩⟩
        exact Vector.getElem_set_ne j.save.image.isLt u.isLt fun same => other (Fin.ext same.symm)
    · have work := (s.toChip.beginGrant .save).pushSave_work j
      have ended := (s.toChip.beginGrant .save).endSave_eq j
      have offers := (s.toChip.beginGrant .save).endSave_offers j
      intro image
      refine ⟨_, exec_saveClosingWrite saving closing grant, ?_, ?_, stored_writeWords _ _ wf (closingWrites_apart j _),
        ?_, ?_, ?_, fun fits => ?_, fun oldest rest' old depth full => ?_,
        fun ⟨r', run, edit⟩ claimed closed isReady => Chip.endSave_queues run edit claimed closed isReady, ?_,
        fun k other => ?_⟩
      all_goals dsimp only
      · rw [ended, work.rest]
        exact ⟨rfl, rfl, rfl, rfl⟩
      · rw [ended, work.rest]
        rfl
      · rw [ended]
      · rw [ended]
        rfl
      · rw [ended]
        exact Chip.pushSave_top _ _
      · obtain ⟨images, bottom, stack, mirrored⟩ := Chip.pushSave_fits (p := s.toChip.beginGrant .save) (j := j) fits
        rw [offers, ended]
        exact ⟨images, bottom, stack, mirrored⟩
      · obtain ⟨stack, bottom, ⟨segments, last⟩, mirrored, freed, kept⟩ :=
          Chip.pushSave_drops (p := s.toChip.beginGrant .save) (j := j) old depth full
        refine ⟨?_, ?_, ⟨fun k lt => (offers _).mpr (segments k lt), (offers _).mpr last⟩,
          (offers _).mpr mirrored, ?_, ?_⟩
        · rw [ended]
          exact stack
        · rw [ended]
          exact bottom
        · rw [ended]
          exact freed
        · rw [ended]
          exact kept
      · rw [Chip.endSave_slot, Chip.slot_modSlot_same, Chip.pushSave_slot]
        rfl
      · rw [Chip.endSave_slot, Chip.slot_modSlot_other _ _ other, Chip.pushSave_slot]
        rfl

end Sys2Proof.Machine


/-! PROOFS. Releases: what a released slot is left with, and the loads and images a release leaves alone (R49, R62). -/

namespace Sys2Proof.Machine

-- One proof after another: the threads of many at once take more memory than the check allows.
set_option Elab.async false

/-! ## The record of a released slot (R49) -/

section

variable {a p : Chip} {i : Fin 128}

theorem Chip.voidDecode_slots (i : Fin 128) (p : Chip) : (p.voidDecode i).slots = p.slots := by
  have advanced (j : DecodeJob) (q : Chip) : (q.decodeAdvance j).slots = q.slots := by
    have noted := (Chip.noteAux_reports j q).slots
    unfold Chip.decodeAdvance
    dsimp only
    split
    · rfl
    · split
      · exact noted
      · exact noted
  unfold Chip.voidDecode
  dsimp only
  split
  · split
    · split
      · rfl
      · exact advanced _ _
      · rfl
    · rfl
  · rfl

theorem Chip.voidCode_slots (i : Fin 128) (p : Chip) : (p.voidCode i).slots = p.slots := by
  unfold Chip.voidCode
  dsimp only
  split
  · split
    · split
      · split <;> rfl
      · rfl
    · rfl
  · rfl

theorem Chip.dropSaves_slots (i : Fin 128) (p : Chip) : (p.dropSaves i).slots = p.slots := by
  have works := Chip.dropSaves_works i (.refl noSlot .underrun p)
  exact Vector.ext fun k bound => works.slots ⟨k, bound⟩ id

theorem Chip.voidLoad_slots (i : Fin 128) (p : Chip) : (p.voidLoad i).slots = p.slots := by
  unfold Chip.voidLoad
  split <;> rfl

theorem Chip.withdrawFetchOf_slots (i : Fin 128) (p : Chip) : (p.withdrawFetchOf i).slots = p.slots := by
  unfold Chip.withdrawFetchOf Chip.withdrawFetch
  split
  · split
    · split <;> rfl
    · rfl
  · rfl

theorem Chip.slot_of_slots {q : Chip} (same : q.slots = p.slots) (i : Fin 128) : q.slot i = p.slot i :=
  congrArg (fun x : Vector Slot 128 => x[i]) same

/-- A released slot keeps its serial, its overrun record and its next position. -/
theorem Chip.releaseSlot_slot (i : Fin 128) (p : Chip) : (p.releaseSlot i).slot i =
    Slot.releasedWith (p.slot i).serial (p.slot i).overrun (p.slot i).nextPosition := by
  have voided : ((((((p.voidDecode i).voidCode i).voidSave i).voidLoad i).withdrawFetchOf i)).slot i =
      (p.slot i).saveVoided := by
    rw [Chip.slot_of_slots (Chip.withdrawFetchOf_slots i _), Chip.slot_of_slots (Chip.voidLoad_slots i _),
      Chip.voidSave_eq, Chip.slot_modSlot_same, Chip.slot_of_slots (Chip.dropSaves_slots i _),
      Chip.slot_of_slots (Chip.voidCode_slots i _), Chip.slot_of_slots (Chip.voidDecode_slots i _)]
  unfold Chip.releaseSlot
  dsimp only
  rw [Chip.slot_modSlot_same, voided]
  unfold Slot.saveVoided
  split <;> rfl

theorem Chip.releaseSlot_other {j : Fin 128} (other : j ≠ i) (p : Chip) : (p.releaseSlot i).slot j = p.slot j :=
  (Chip.releaseSlot_works (S := (· = i)) rfl (.refl _ .underrun p)).slots j other

theorem Chip.release_slot (i j : Fin 128) (p : Chip) : (p.release i).slot j = (p.releaseSlot i).slot j := rfl

/-- Every release keeps the serials and next positions of the slots. -/
theorem Chip.releaseSlot_serial (i j : Fin 128) (p : Chip) : ((p.releaseSlot i).slot j).serial = (p.slot j).serial ∧
    ((p.releaseSlot i).slot j).nextPosition = (p.slot j).nextPosition := by
  by_cases same : j = i
  · rw [same, Chip.releaseSlot_slot]
    exact ⟨rfl, rfl⟩
  · rw [Chip.releaseSlot_other same]
    exact ⟨rfl, rfl⟩

theorem Chip.releaseAll_serial (i : Fin 128) (p : Chip) : (p.releaseAll.slot i).serial = (p.slot i).serial := by
  rw [Chip.releaseAll_eq]
  refine List.foldlRecOn (motive := fun q : Chip => (q.slot i).serial = (p.slot i).serial) _ _
    (List.foldlRecOn (motive := fun q : Chip => (q.slot i).serial = (p.slot i).serial) _ _ rfl ?_) ?_
  · intro q same j _
    unfold Chip.releaseClaim
    split
    · exact (Chip.releaseSlot_serial j i q).1.trans same
    · exact same
  · intro q same j _
    exact Chip.clearOverrun_keeps (P := fun x => x.serial = (p.slot i).serial) (fun _ => id) q j i same

/-! ## Loads and images (R79, R164, R169) -/

/-- ECU has a save that is to fill image u. -/
def Ecu.Saves (e : Ecu) (u : Fin 256) : Prop :=
  (∃ v ∈ e.saves, v.image = u) ∨ ∃ j, e.saving = some j ∧ j.save.image = u

/-- Of the loads only those of slot i end, the images that no save fills stay, and the run stays. -/
structure Chip.Vacates (i : Fin 128) (a b : Chip) : Prop where
  loads : ∀ l ∈ a.ecu.loads, l.slot ≠ i → l ∈ b.ecu.loads
  offers : ∀ j, j ≠ i → a.Offers (.load j) → b.Offers (.load j)
  saves : ∀ u, b.ecu.Saves u → a.ecu.Saves u
  images : ∀ u : Fin 256, ¬a.ecu.Saves u → b.ecu.images[u] = a.ecu.images[u]
  rc : b.rc = a.rc

namespace Chip.Vacates

variable {q : Chip}

theorem refl (i : Fin 128) (p : Chip) : p.Vacates i p :=
  ⟨fun _ h _ => h, fun _ _ => id, fun _ => id, fun _ _ => rfl, rfl⟩

theorem trans (h : a.Vacates i p) (k : p.Vacates i q) : a.Vacates i q where
  loads := fun l member other => k.loads l (h.loads l member other) other
  offers := fun j other x => k.offers j other (h.offers j other x)
  saves := fun u x => h.saves u (k.saves u x)
  images := fun u free => (k.images u fun x => free (h.saves u x)).trans (h.images u free)
  rc := k.rc.trans h.rc

/-- An update of none of it. -/
theorem update (h : a.Vacates i p) (ecu : q.ecu = p.ecu := by rfl) (mp : q.mp = p.mp := by rfl)
    (rc : q.rc = p.rc := by rfl) : a.Vacates i q :=
  h.trans ⟨fun l x _ => by rw [ecu]; exact x, fun j _ x => by unfold Chip.Offers; rw [mp]; exact x,
    fun u x => by rw [← ecu]; exact x, fun u _ => by rw [ecu], rc⟩

theorem reports (h : a.Vacates i p) (k : p.Reports q) : a.Vacates i q :=
  h.trans ⟨fun l x _ => by rw [k.ecu]; exact x, fun j _ => k.offers _, fun u x => by rw [← k.ecu]; exact x,
    fun u _ => by rw [k.ecu], k.rc⟩

theorem withdraw (h : a.Vacates i p) {r : Req} (other : ∀ j, j ≠ i → Req.load j ≠ r) : a.Vacates i (p.withdraw r) :=
  h.trans { refl i p with offers := fun j ne => Chip.offers_withdraw (other j ne) }

theorem offer (h : a.Vacates i p) (r : Req) : a.Vacates i (p.offer r) := h.reports (Chip.offer_reports r p)

end Chip.Vacates

theorem Chip.voidDecode_vacates (h : a.Vacates i p) : a.Vacates i (p.voidDecode i) := by
  have left : a.Vacates i (p.unqueue (CeItem.decodes i)) := h.update
  have advanced (j : DecodeJob) (q : Chip) (hq : a.Vacates i q) : a.Vacates i (q.decodeAdvance j) := by
    have noted := hq.reports (Chip.noteAux_reports j q)
    unfold Chip.decodeAdvance
    dsimp only
    split
    · exact Chip.Vacates.offer (p := q.setJob _) hq.update _
    · split
      · exact noted.update
      · exact Chip.Vacates.offer (p := (q.noteAux j).setJob _) noted.update _
  unfold Chip.voidDecode
  dsimp only
  split
  · split
    · split
      · exact left.update
      · exact advanced _ _ (left.withdraw nofun)
      · exact (left.withdraw (r := .codeEngine) nofun).update
    · exact left
  · exact left

theorem Chip.voidCode_vacates (h : a.Vacates i p) : a.Vacates i (p.voidCode i) := by
  have left : a.Vacates i (p.unqueue (CeItem.codes i)) := h.update
  unfold Chip.voidCode
  dsimp only
  split
  · split
    · split
      · split
        · exact left.update
        · exact left.update
      · exact (left.withdraw (r := .codeEngine) nofun).update
    · exact left
  · exact left

theorem Chip.freeImage_vacates {u : Fin 256} (saved : p.ecu.Saves u) (h : a.Vacates i p) :
    a.Vacates i (p.freeImage u) :=
  h.trans { Chip.Vacates.refl i p with
    images := fun x free => by
      refine Vector.getElem_set_ne u.isLt x.isLt fun same => free ?_
      rw [← Fin.ext same]
      exact saved }

/-- The save in progress ends, or goes on to the same image. -/
theorem Chip.setSaving_vacates {x : Option SaveJob}
    (same : ∀ j, x = some j → ∃ j', p.ecu.saving = some j' ∧ j'.save = j.save) (h : a.Vacates i p) :
    a.Vacates i { p with ecu := { p.ecu with saving := x } } :=
  h.trans ⟨fun _ x _ => x, fun _ _ => id, fun u saved => saved.imp_right fun ⟨j, saving, image⟩ => by
    obtain ⟨j', before, save⟩ := same j saving
    exact ⟨j', before, save ▸ image⟩, fun _ _ => rfl, rfl⟩

theorem Chip.saveProceed_vacates (h : a.Vacates i p) : a.Vacates i p.saveProceed := by
  unfold Chip.saveProceed
  split
  · rename_i j saving
    split
    · split
      · split
        · exact h
        · exact Chip.setSaving_vacates (x := none) nofun h
      · split
        · exact Chip.Vacates.offer (Chip.setSaving_vacates (fun x same => ⟨j, saving, by cases same; rfl⟩) h) _
        · exact h
    · exact h
  · exact h

theorem Chip.voidSaving_vacates {j : SaveJob} (saving : p.ecu.saving = some j) (h : a.Vacates i p) :
    a.Vacates i (p.voidSaving j) := by
  have freed := Chip.freeImage_vacates (.inr ⟨j, saving, rfl⟩) h
  unfold Chip.voidSaving
  dsimp only
  split
  · exact Chip.saveProceed_vacates (Chip.setSaving_vacates (fun x same => ⟨j, saving, by cases same; rfl⟩) freed)
  · exact Chip.Vacates.withdraw (Chip.setSaving_vacates (x := none) nofun freed) nofun

theorem Chip.dropSaves_vacates (h : a.Vacates i p) : a.Vacates i (p.dropSaves i) := by
  have freed : a.Vacates i ((p.ecu.saves.filter fun x => x.slot == i).foldl (fun p x => p.freeImage x.image) p) ∧
      ((p.ecu.saves.filter fun x => x.slot == i).foldl (fun p x => p.freeImage x.image) p).ecu.saves = p.ecu.saves := by
    refine List.foldlRecOn (motive := fun q : Chip => a.Vacates i q ∧ q.ecu.saves = p.ecu.saves) _ _ ⟨h, rfl⟩ ?_
    intro q ⟨vacates, saves⟩ v member
    exact ⟨Chip.freeImage_vacates (.inl ⟨v, saves ▸ (List.mem_filter.mp member).1, rfl⟩) vacates, saves⟩
  unfold Chip.dropSaves
  dsimp only
  generalize (p.ecu.saves.filter fun x => x.slot == i).foldl (fun p x => p.freeImage x.image) p = q at freed
  have left : a.Vacates i { q with ecu := { q.ecu with saves := q.ecu.saves.filter fun x => x.slot != i } } :=
    freed.1.trans ⟨fun _ x _ => x, fun _ _ => id, fun u saved => saved.imp_left fun ⟨v, member, image⟩ =>
      ⟨v, (List.mem_filter.mp member).1, image⟩, fun _ _ => rfl, rfl⟩
  split
  · rename_i saving
    split
    · exact Chip.voidSaving_vacates saving left
    · exact left
  · exact left

theorem Chip.voidSave_vacates (h : a.Vacates i p) : a.Vacates i (p.voidSave i) := by
  rw [Chip.voidSave_eq]
  exact (Chip.dropSaves_vacates h).update

theorem Chip.voidLoad_vacates (h : a.Vacates i p) : a.Vacates i (p.voidLoad i) := by
  unfold Chip.voidLoad
  split
  · refine Chip.Vacates.withdraw (r := .load i) ?_ fun j other same => other (by cases same; rfl)
    exact h.trans ⟨fun l member other => List.mem_filter.mpr ⟨member, by simpa using other⟩, fun _ _ => id,
      fun _ => id, fun _ _ => rfl, rfl⟩
  · exact h

theorem Chip.withdrawFetchOf_vacates (j : Fin 128) (h : a.Vacates i p) : a.Vacates i (p.withdrawFetchOf j) := by
  unfold Chip.withdrawFetchOf Chip.withdrawFetch
  split
  · split
    · split
      · exact Chip.Vacates.withdraw h.update nofun
      · exact h
    · exact h
  · exact h

theorem Chip.releaseSlot_vacates (h : a.Vacates i p) : a.Vacates i (p.releaseSlot i) := by
  unfold Chip.releaseSlot
  exact (Chip.withdrawFetchOf_vacates i (Chip.voidLoad_vacates (Chip.voidSave_vacates (Chip.voidCode_vacates
    (Chip.voidDecode_vacates h))))).update

end

end Sys2Proof.Machine


/-! PROOFS. A run start: the table cleared, the first claims, and what follows them (R48, R62, R107). -/

namespace Sys2Proof.Machine

-- One proof after another: the threads of many at once take more memory than the check allows.
set_option Elab.async false

/-! ## Everything released (R62, R107) -/

/-- The part with every slot free and the reads of CU ended, as a run start clears it. -/
@[irreducible] def Chip.cleared (p : Chip) : Chip := (p.releaseAll.endReadEvals).releaseReads

/-- What the clearing for a run start leaves. -/
structure Chip.Clears (a b : Chip) : Prop where
  cpm : Cpm.SameButReports a.cpm b.cpm
  nextWrite : a.cpm.nextWrite ≤ b.cpm.nextWrite
  dlc : b.dlc = { a.dlc with fetch := b.dlc.fetch }
  slots : ∀ i, (b.slot i).claimed = false ∧ (b.slot i).overrun = none ∧ (b.slot i).serial = (a.slot i).serial
  ecu : b.ecu = { a.ecu with
    saves := b.ecu.saves, saving := b.ecu.saving, loads := b.ecu.loads, images := b.ecu.images }
  images : ∀ u : Fin 256, ¬a.ecu.Saves u → b.ecu.images[u] = a.ecu.images[u]
  releases : a.Releases b

section

variable {p : Chip}

theorem Chip.releaseAll_ensues (p : Chip) : p.Ensues p.releaseAll := by
  rw [Chip.releaseAll_eq]
  refine .foldl (fun q i hq => ?_) _ (.foldl (fun q i hq => ?_) _ (.refl p))
  · unfold Chip.clearOverrun
    split
    · exact Chip.modSlot_ensues _ _ hq
    · exact hq
  · unfold Chip.releaseClaim
    split
    · exact Chip.releaseSlot_ensues i hq
    · exact hq

theorem Chip.releaseAll_images (p : Chip) {u : Fin 256} (free : ¬p.ecu.Saves u) :
    p.releaseAll.ecu.images[u] = p.ecu.images[u] := by
  have spared : ¬p.releaseAll.ecu.Saves u ∧ p.releaseAll.ecu.images[u] = p.ecu.images[u] := by
    rw [Chip.releaseAll_eq]
    refine List.foldlRecOn (motive := fun q : Chip => ¬q.ecu.Saves u ∧ q.ecu.images[u] = p.ecu.images[u]) _ _
      (List.foldlRecOn (motive := fun q : Chip => ¬q.ecu.Saves u ∧ q.ecu.images[u] = p.ecu.images[u]) _ _
        ⟨free, rfl⟩ ?_) ?_
    · intro q ⟨spared, image⟩ i _
      unfold Chip.releaseClaim
      split
      · have vacates := Chip.releaseSlot_vacates (.refl i q)
        exact ⟨fun saved => spared (vacates.saves u saved), (vacates.images u spared).trans image⟩
      · exact ⟨spared, image⟩
    · intro q kept i _
      unfold Chip.clearOverrun
      split
      · exact kept
      · exact kept
  exact spared.2

/-- The evaluations of reads ended change CU and MP alone. -/
theorem Chip.endReadEvals_rest (p : Chip) :
    p.endReadEvals = { p with cu := p.endReadEvals.cu, mp := p.endReadEvals.mp } := by
  unfold Chip.endReadEvals
  refine List.foldlRecOn (motive := fun q : Chip => q = { p with cu := q.cu, mp := q.mp }) _ _ rfl fun q rest e _ => ?_
  dsimp only
  split
  · conv_lhs => rw [rest]
    rfl
  · conv_lhs => rw [rest]
    rfl

theorem Chip.cleared_clears (p : Chip) : p.Clears p.cleared := by
  have frees := Chip.endReadEvals_frees (Chip.releaseAll_frees (.refl noSlot p))
  have rest : p.cleared = { p.releaseAll.endReadEvals with lbp := p.cleared.lbp } := by
    unfold Chip.cleared
    exact Chip.foldl_releaseRead_rest allEntries _
  have slots : p.cleared.slots = p.releaseAll.slots := by
    rw [rest]
    dsimp only
    exact Chip.endReadEvals_slots p.releaseAll
  have ecu : p.cleared.ecu = p.releaseAll.ecu := by
    rw [rest]
    dsimp only
    rw [Chip.endReadEvals_rest]
  have releases : p.Releases p.cleared := by
    unfold Chip.cleared
    exact (Chip.releaseReads_releases _).after frees.lbp
  generalize p.releaseAll.endReadEvals = q at frees rest
  refine ⟨?_, ?_, ?_, fun i => ?_, ?_, fun u free => ?_, releases⟩
  · rw [rest]
    exact frees.sameCpm
  · rw [rest]
    exact frees.nextWrite
  · rw [rest]
    exact frees.dlc
  · rw [Chip.slot_of_slots slots]
    exact ⟨(Chip.releaseAll_slots p i).1, (Chip.releaseAll_slots p i).2, Chip.releaseAll_serial i p⟩
  · rw [ecu]
    exact (Chip.releaseAll_ensues p).ecu
  · rw [ecu]
    exact Chip.releaseAll_images p free

end

/-! ## Claims (R48) -/

section

variable {p : Chip} {r : RunRecord}

/-- The record of a slot claimed for position q, its write side as given, no row of it in. -/
def Slot.claimedFor (old : Slot) (r : RunRecord) (q : Nat) (side : WriteSide) : Slot :=
  { Slot.releasedWith (old.serial + 1) none (q + 128) with
    claimed := true, segment := r.segmentAt q, position := q
    write := side.write, material := side.material, markerBase := side.base }

/-- A slot without an overrun record starts with no row in. -/
theorem Chip.claimedSlot_fresh {old : Slot} (fresh : old.overrun = none) (q : Nat) :
    p.claimedSlot r q old = old.claimedFor r q (p.writeSide r q) := by
  have absent : (List.finRange 30).any
      (fun x => (Vector.replicate 30 RowRecord.notIn)[x] != RowRecord.notIn) = false := by decide
  unfold Chip.claimedSlot
  dsimp only
  rw [fresh]
  unfold claimedRows
  dsimp only
  rw [absent]
  rfl

/-- The claim of a free slot that no row has reached, no position of the run at or below the due horizon. -/
theorem Chip.claim_fresh {q : Nat} (run : p.rc.run = some r) (undue : r.dueHorizon = none)
    (free : (p.slot (slotOf (r.segmentAt q))).claimed = false)
    (fresh : (p.slot (slotOf (r.segmentAt q))).overrun = none) : p.claim q =
      (p.setSlot (slotOf (r.segmentAt q)) (p.claimedSlot r q (p.slot (slotOf (r.segmentAt q))))).beginLoadOf
        (slotOf (r.segmentAt q)) := by
  have notAll : ((p.setSlot (slotOf (r.segmentAt q)) (p.claimedSlot r q (p.slot (slotOf (r.segmentAt q))))).slot
      (slotOf (r.segmentAt q))).allIn = false := by
    have absent : (List.finRange 30).all
        (fun x => (Vector.replicate 30 RowRecord.notIn)[x] != RowRecord.notIn) = false := by decide
    rw [Chip.slot_setSlot_same, Chip.claimedSlot_fresh fresh]
    exact absent
  have notPassed : r.passed q = false := by
    unfold RunRecord.passed
    rw [undue]
  unfold Chip.claim
  rw [run]
  dsimp only
  rw [if_neg (by rw [free]; decide)]
  unfold Chip.claimSlot
  dsimp only
  rw [notAll, notPassed]
  rfl

/-- A load begins for a slot with an image to copy. -/
theorem Chip.beginLoadOf_rest (i : Fin 128) (p : Chip) : p.beginLoadOf i = { p with
    ecu := { p.ecu with loads := (p.beginLoadOf i).ecu.loads }, mp := (p.beginLoadOf i).mp } := by
  unfold Chip.beginLoadOf
  dsimp only
  split <;> rfl

theorem Chip.beginLoadOf_keeps (i : Fin 128) (p : Chip) : (∀ l ∈ p.ecu.loads, l ∈ (p.beginLoadOf i).ecu.loads) ∧
    ∀ x, p.Offers x → (p.beginLoadOf i).Offers x := by
  unfold Chip.beginLoadOf
  dsimp only
  split
  · exact ⟨fun _ => List.mem_append_left _, fun _ => Chip.offers_mono _⟩
  · exact ⟨fun _ => id, fun _ => id⟩

/-- The load of image u stands offered for a slot, at its first block. -/
def Chip.Loads (p : Chip) (i : Fin 128) (u : Fin 256) : Prop :=
  (∃ l ∈ p.ecu.loads, l.slot = i ∧ l.image = u ∧ l.block = 0 ∧ l.values = none) ∧ p.Offers (.load i)

theorem Chip.beginLoadOf_loads {i : Fin 128} {u : Fin 256} (image : (p.slot i).material = .image u) :
    (p.beginLoadOf i).Loads i u := by
  unfold Chip.beginLoadOf
  dsimp only
  rw [image]
  exact ⟨⟨_, List.mem_append_right _ (List.mem_singleton.mpr rfl), rfl, rfl, rfl, rfl⟩, Chip.offers_offer _ _⟩

/-- The first n positions of the run name slots of their own. -/
def RunRecord.Apart (r : RunRecord) (n : Nat) : Prop :=
  ∀ x y, x < n → y < n → slotOf (r.segmentAt x) = slotOf (r.segmentAt y) → x = y

/-- The first n positions of a run claimed, the table free before. -/
structure Chip.Claims (r : RunRecord) (n : Nat) (a b : Chip) : Prop where
  rest : b = { a with slots := b.slots, ecu := { a.ecu with loads := b.ecu.loads }, mp := b.mp }
  offers : ∀ x, a.Offers x → b.Offers x
  claimed : ∀ q, q < n → b.slot (slotOf (r.segmentAt q)) =
    (a.slot (slotOf (r.segmentAt q))).claimedFor r q (a.writeSide r q)
  free : ∀ i, (∀ q, q < n → slotOf (r.segmentAt q) ≠ i) → b.slot i = a.slot i
  loads : ∀ q u, q < n → (a.writeSide r q).material = .image u → b.Loads (slotOf (r.segmentAt q)) u

/-- Claims one after another (R48). -/
theorem Chip.foldl_claim {n : Nat} (run : p.rc.run = some r) (undue : r.dueHorizon = none)
    (fresh : ∀ i, (p.slot i).claimed = false ∧ (p.slot i).overrun = none) (apart : r.Apart n) :
    p.Claims r n ((List.range n).foldl (fun p q => p.claim q) p) := by
  induction n with
  | zero => exact ⟨rfl, fun _ => id, nofun, fun _ _ => rfl, nofun⟩
  | succ n ih =>
    have before := ih fun x y hx hy => apart x y (Nat.lt_succ_of_lt hx) (Nat.lt_succ_of_lt hy)
    rw [List.range_succ, List.foldl_append, List.foldl_cons, List.foldl_nil]
    generalize (List.range n).foldl (fun p q => p.claim q) p = b at before ⊢
    have untouched : b.slot (slotOf (r.segmentAt n)) = p.slot (slotOf (r.segmentAt n)) :=
      before.free _ fun q lt same => Nat.ne_of_lt lt (apart q n (Nat.lt_succ_of_lt lt) (Nat.lt_succ_self n) same)
    have run' : b.rc.run = some r := by
      rw [before.rest]
      exact run
    have side (q : Nat) : b.writeSide r q = p.writeSide r q := by
      rw [before.rest]
      rfl
    have record (q : Nat) (x : Slot) : b.claimedSlot r q x = p.claimedSlot r q x := by
      unfold Chip.claimedSlot
      rw [side]
    rw [Chip.claim_fresh run' undue (by rw [untouched]; exact (fresh _).1) (by rw [untouched]; exact (fresh _).2),
      untouched, record]
    obtain ⟨loads, offers⟩ := Chip.beginLoadOf_keeps (slotOf (r.segmentAt n))
      (b.setSlot (slotOf (r.segmentAt n)) (p.claimedSlot r n (p.slot (slotOf (r.segmentAt n)))))
    have rest := Chip.beginLoadOf_rest (slotOf (r.segmentAt n))
      (b.setSlot (slotOf (r.segmentAt n)) (p.claimedSlot r n (p.slot (slotOf (r.segmentAt n)))))
    have slot (i : Fin 128) : ((b.setSlot (slotOf (r.segmentAt n)) (p.claimedSlot r n (p.slot
        (slotOf (r.segmentAt n))))).beginLoadOf (slotOf (r.segmentAt n))).slot i =
        (b.setSlot (slotOf (r.segmentAt n)) (p.claimedSlot r n (p.slot (slotOf (r.segmentAt n))))).slot i := by
      rw [rest]
      rfl
    refine ⟨?_, fun x offered => offers x (before.offers x offered), fun q lt => ?_, fun i out => ?_,
      fun q u lt image => ?_⟩
    · generalize ((b.setSlot _ _).beginLoadOf _) = d at rest
      rw [rest, before.rest]
      rfl
    · rw [slot]
      obtain lt | rfl := Nat.lt_succ_iff_lt_or_eq.mp lt
      · rw [Chip.slot_setSlot_other _ _ fun same =>
          Nat.ne_of_lt lt (apart q n (Nat.lt_succ_of_lt lt) (Nat.lt_succ_self n) same)]
        exact before.claimed q lt
      · exact (Chip.slot_setSlot_same _ _ _).trans (Chip.claimedSlot_fresh (fresh _).2 q)
    · rw [slot, Chip.slot_setSlot_other _ _ fun same => out n (Nat.lt_succ_self n) same.symm]
      exact before.free i fun q lt => out q (Nat.lt_succ_of_lt lt)
    · obtain lt | rfl := Nat.lt_succ_iff_lt_or_eq.mp lt
      · obtain ⟨⟨l, member, isLoad⟩, offered⟩ := before.loads q u lt image
        exact ⟨⟨l, loads l member, isLoad⟩, offers _ offered⟩
      · refine Chip.beginLoadOf_loads ?_
        rw [Chip.slot_setSlot_same, Chip.claimedSlot_fresh (fresh _).2]
        exact image

end

/-! ## What follows, no slot released (R48, R89, log 27) -/

section

variable {p : Chip} {r : RunRecord}

/-- No free slot may be claimed where no next position lies in the window. -/
theorem Chip.nextClaim_none (run : p.rc.run = some r)
    (outside : ∀ i, (p.slot i).claimed = false → r.inWindow (p.slot i).nextPosition = false) : p.nextClaim = none := by
  unfold Chip.nextClaim
  rw [run]
  dsimp only
  split
  · refine List.foldlRecOn (motive := fun x : Option Nat => x = none) _ _ rfl fun x none i _ => ?_
    refine (if_neg fun ⟨free, inside⟩ => ?_).trans none
    rw [outside i free] at inside
    cases inside
  · rfl

/-- The send cursor at a row of a position. -/
def Chip.atCursor (p : Chip) (position row : Nat) : Chip :=
  { p with dlc := { p.dlc with cursorPos := position, cursorRow := row } }

theorem Chip.atCursor_self (p : Chip) : p = p.atCursor p.dlc.cursorPos p.dlc.cursorRow := rfl

/-- A move of the cursor in a run that is no REVERT. -/
theorem Chip.cursorStep_moves {q : Chip} (kind : ∀ r, p.rc.run = some r → r.kind ≠ .revert)
    (moved : p.cursorStep = some q) : q = p.atCursor (p.dlc.cursorPos + 1) 0 ∧
      ∀ r, p.rc.run = some r → p.dlc.cursorPos < r.length := by
  unfold Chip.cursorStep at moved
  split at moved
  · cases moved
  · rename_i r run
    split at moved
    · rename_i passes
      cases moved
      refine ⟨?_, fun x same => ?_⟩
      · unfold Chip.passCursor
        dsimp only
        rw [if_neg fun gap => kind r run gap.1]
        rfl
      · cases run.symm.trans same
        exact passes.2.2.1
    · cases moved

/-- With nothing to claim and no gap of a REVERT run to release, only the cursor moves. -/
theorem progressLoop_cursor (n : Nat) (noClaim : p.nextClaim = none)
    (kind : ∀ r, p.rc.run = some r → r.kind ≠ .revert) :
    ∃ position row, progressLoop n p = p.atCursor position row ∧ (p.dlc.cursorRow = 0 → row = 0) := by
  induction n generalizing p with
  | zero => exact ⟨_, _, Chip.atCursor_self p, id⟩
  | succ n ih =>
    unfold progressLoop
    split
    · rename_i q moved
      obtain ⟨rfl, -⟩ := Chip.cursorStep_moves kind moved
      obtain ⟨position, row, moved, start⟩ := ih (p := p.atCursor (p.dlc.cursorPos + 1) 0) noClaim kind
      exact ⟨position, row, moved, fun _ => start rfl⟩
    · rw [noClaim]
      exact ⟨_, _, Chip.atCursor_self p, id⟩

theorem Chip.progress_cursor (noClaim : p.nextClaim = none) (kind : ∀ r, p.rc.run = some r → r.kind ≠ .revert)
    (start : p.dlc.cursorRow = 0) : ∃ position, p.progress = p.atCursor position 0 := by
  unfold Chip.progress
  split
  · exact ⟨p.dlc.cursorPos, start ▸ Chip.atCursor_self p⟩
  · rename_i r _
    obtain ⟨position, row, moved, same⟩ := progressLoop_cursor (2 * r.length + 256) noClaim kind
    exact ⟨position, same start ▸ moved⟩

/-- The end of an event that does not end the run: a fetch offered, reports made. -/
structure Chip.Rests (a b : Chip) : Prop where
  slots : b.slots = a.slots
  rc : b.rc = a.rc
  ecu : b.ecu = a.ecu
  lbp : b.lbp = a.lbp
  cpm : Cpm.SameButReports a.cpm b.cpm
  dlc : b.dlc = { a.dlc with fetch := b.dlc.fetch }
  offers : ∀ x, a.Offers x → b.Offers x

theorem Chip.offerFetch_rests (p : Chip) : p.Rests p.offerFetch.noteStatus := by
  have offered : p.Rests p.offerFetch := by
    unfold Chip.offerFetch
    split
    · exact ⟨rfl, rfl, rfl, rfl, .refl _, rfl, fun _ => id⟩
    · split
      · exact ⟨rfl, rfl, rfl, rfl, .refl _, rfl, fun _ => Chip.offers_mono _⟩
      · exact ⟨rfl, rfl, rfl, rfl, .refl _, rfl, fun _ => id⟩
  have noted := Chip.noteStatus_reports p.offerFetch
  exact ⟨noted.slots.trans offered.slots, noted.rc.trans offered.rc, noted.ecu.trans offered.ecu,
    noted.lbp.trans offered.lbp, offered.cpm.trans noted.cpm, by rw [noted.dlc]; exact offered.dlc,
    fun x waits => noted.offers x (offered.offers x waits)⟩

/-- A run that is ACTIVE and not complete goes on. -/
theorem Chip.checkEnd_goesOn (rc : p.rc = ⟨.active, some r⟩) (open_ : r.complete = false) : p.checkEnd = p := by
  unfold Chip.checkEnd
  rw [rc]
  dsimp only
  rw [open_]
  rfl

end

end Sys2Proof.Machine


/-! PROOFS. A run that has passed every check starts (R107): what is left of the part, with its first claims made and
the request told. -/

namespace Sys2Proof.Machine

-- One proof after another: the threads of many at once take more memory than the check allows.
set_option Elab.async false

/-! ## The part before the claims (steps 2 to 4 of R107) -/

/-- The part with the new run in place, every slot free at its first position of the run. -/
def Chip.beginRun (r : RunRecord) (p : Chip) : Chip := ((p.cleared.withRun r).startEdit r).placeSlots r

/-- The part with the first positions of the run claimed and the request told. -/
def Chip.claimRun (r : RunRecord) (p : Chip) : Chip :=
  ((List.range (min 128 r.length)).foldl (fun p q => p.claim q) (p.beginRun r)).dirtyRunWords.report .done p.unconsumed

theorem Chip.startRun_eq (r : RunRecord) (p : Chip) : p.startRun r = (p.claimRun r).finish := by
  unfold Chip.startRun Chip.claimRun Chip.beginRun Chip.cleared
  rfl

section

variable {p : Chip} {r : RunRecord}

/-- Each slot of a list set once. -/
theorem foldl_modSlot_each (f : Fin 128 → Slot → Slot) (l : List (Fin 128)) (once : l.Nodup) (p : Chip) (i : Fin 128) :
    (l.foldl (fun p j => p.modSlot j (f j)) p).slot i = if i ∈ l then f i (p.slot i) else p.slot i := by
  induction l generalizing p with
  | nil => rfl
  | cons j l ih =>
    obtain ⟨fresh, rest⟩ := List.nodup_cons.mp once
    rw [List.foldl_cons, ih rest]
    by_cases here : i = j
    · subst here
      rw [if_neg fresh, if_pos List.mem_cons_self]
      exact Chip.slot_modSlot_same i _ p
    · rw [Chip.slot_modSlot_other _ p here]
      simp only [List.mem_cons, here, false_or]

theorem Chip.placeSlots_rest (r : RunRecord) (p : Chip) :
    p.placeSlots r = { p with slots := (p.placeSlots r).slots } :=
  List.foldlRecOn (motive := fun q : Chip => q = { p with slots := q.slots }) _ _ rfl fun q rest i _ => by
    conv_lhs => rw [rest]
    rfl

theorem Chip.placeSlots_slot (r : RunRecord) (p : Chip) (i : Fin 128) :
    (p.placeSlots r).slot i = { p.slot i with nextPosition := r.firstPosition i } := by
  have placed := foldl_modSlot_each (fun i s => { s with nextPosition := r.firstPosition i }) allSlots
    (List.nodup_finRange 128) p i
  exact placed.trans (if_pos (List.mem_finRange i))

/-- An EDIT's own steps change clips and save marks alone (R139). -/
theorem Chip.startEdit_rest (r : RunRecord) (p : Chip) : p.startEdit r = { p with ecu := { p.ecu with
    clips := (p.startEdit r).ecu.clips, segCount := (p.startEdit r).ecu.segCount
    partialMark := (p.startEdit r).ecu.partialMark, stoppedMark := (p.startEdit r).ecu.stoppedMark } } := by
  unfold Chip.startEdit
  split
  · dsimp only
    split <;> rfl
  · rfl

/-- They are read off the clips and the marks. -/
theorem Chip.startEdit_ecu {q : Chip} (r : RunRecord) (saves : List Save) (saving : Option SaveJob) (loads : List Load)
    (images : Vector ImageRecord 256) (same : q.ecu = { p.ecu with
      saves := saves, saving := saving, loads := loads, images := images }) :
    (q.startEdit r).ecu = { (p.startEdit r).ecu with
      saves := saves, saving := saving, loads := loads, images := images } := by
  unfold Chip.startEdit
  split
  · dsimp only
    split
    · unfold Chip.setClip
      dsimp only
      rw [same]
    · rw [same]
  · exact same

/-- A run that has begun, every slot free. -/
structure Chip.Begins (r : RunRecord) (a b : Chip) : Prop where
  rc : b.rc = ⟨.active, some r⟩
  slots : ∀ i, (b.slot i).claimed = false ∧ (b.slot i).overrun = none ∧ (b.slot i).serial = (a.slot i).serial ∧
    (b.slot i).nextPosition = r.firstPosition i
  cpm : Cpm.SameButReports { a.cpm with consumeCount := 0, readyPrefix := 0, readyAhead := [] } b.cpm
  nextWrite : a.cpm.nextWrite ≤ b.cpm.nextWrite
  dlc : b.dlc = { a.dlc with
    cursorPos := 0, cursorRow := 0, cursorStopped := false, omits := [], fetch := b.dlc.fetch }
  outRecord : b.lbp.outRecord = .none
  strayNoticed : b.lbp.strayNoticed = false
  releases : a.Releases b
  ecu : b.ecu = { (a.startEdit r).ecu with
    saves := b.ecu.saves, saving := b.ecu.saving, loads := b.ecu.loads, images := b.ecu.images }
  images : ∀ u : Fin 256, ¬a.ecu.Saves u → b.ecu.images[u] = a.ecu.images[u]

theorem Chip.beginRun_begins (r : RunRecord) (p : Chip) : p.Begins r (p.beginRun r) := by
  have clears := p.cleared_clears
  have ecu := Chip.startEdit_ecu (q := p.cleared.withRun r) r _ _ _ _ clears.ecu
  have rest : p.beginRun r = { p.cleared.withRun r with
      ecu := ((p.cleared.withRun r).startEdit r).ecu, slots := (p.beginRun r).slots } := by
    unfold Chip.beginRun
    rw [Chip.placeSlots_rest, Chip.startEdit_rest]
  have slot (i : Fin 128) : (p.beginRun r).slot i = { p.cleared.slot i with nextPosition := r.firstPosition i } := by
    unfold Chip.beginRun
    rw [Chip.placeSlots_slot, Chip.startEdit_rest]
    rfl
  generalize p.beginRun r = b at rest slot
  generalize p.cleared = q at clears ecu rest slot
  generalize ((q.withRun r).startEdit r).ecu = e at ecu rest
  subst ecu
  refine ⟨?_, fun i => ?_, ?_, ?_, ?_, ?_, ?_, ?_, ?_, fun u free => ?_⟩
  · rw [rest]
    rfl
  · obtain ⟨free, overrun, serial⟩ := clears.slots i
    rw [slot]
    exact ⟨free, overrun, serial, rfl⟩
  · rw [rest]
    exact clears.cpm.map (f := fun c => { c with consumeCount := 0, readyPrefix := 0, readyAhead := [] }) fun _ _ => rfl
  · rw [rest]
    exact clears.nextWrite
  · have dlc : b.dlc = { q.dlc with cursorPos := 0, cursorRow := 0, cursorStopped := false, omits := [] } := by
      rw [rest]
      rfl
    rw [dlc, clears.dlc]
  · rw [rest]
    rfl
  · rw [rest]
    rfl
  · rw [rest]
    exact clears.releases
  · rw [rest]
  · rw [rest]
    exact clears.images u free

/-! ## The first claims (R48) -/

/-- Every segment of the run lies on the tape. -/
def RunRecord.Inside (r : RunRecord) : Prop := r.backward = true → r.length ≤ r.t0 + 1

/-- Up to 128 positions in a row name slots of their own (R46). -/
theorem RunRecord.Inside.apart (inside : r.Inside) {n : Nat} (few : n ≤ 128) (within : n ≤ r.length) : r.Apart n := by
  intro x y hx hy same
  have mods : r.segmentAt x % 128 = r.segmentAt y % 128 := congrArg Fin.val same
  unfold RunRecord.segmentAt at mods
  split at mods
  · rename_i back
    have := inside back
    omega
  · omega

/-- A slot's first position is the first to name one of its segments (R48). -/
theorem RunRecord.Inside.firstPosition (inside : r.Inside) (i : Fin 128) (lt : r.firstPosition i < r.length) :
    r.firstPosition i < min 128 r.length ∧ slotOf (r.segmentAt (r.firstPosition i)) = i := by
  have bound := i.isLt
  unfold RunRecord.firstPosition at lt ⊢
  split at lt
  · rename_i back
    have on := inside back
    rw [if_pos back]
    refine ⟨by omega, Fin.ext ?_⟩
    show r.segmentAt _ % 128 = i.val
    unfold RunRecord.segmentAt
    rw [if_pos back]
    omega
  · rename_i forward
    rw [if_neg forward]
    refine ⟨by omega, Fin.ext ?_⟩
    show r.segmentAt _ % 128 = i.val
    unfold RunRecord.segmentAt
    rw [if_neg forward]
    omega

/-- A run that has started: its first positions claimed, the request told. -/
structure Chip.Starts (r : RunRecord) (a t : Chip) : Prop where
  rc : t.rc = ⟨.active, some r⟩
  claimed : ∀ q, q < min 128 r.length → t.slot (slotOf (r.segmentAt q)) =
    (a.slot (slotOf (r.segmentAt q))).claimedFor r q ((a.beginRun r).writeSide r q)
  free : ∀ i, (∀ q, q < min 128 r.length → slotOf (r.segmentAt q) ≠ i) →
    (t.slot i).claimed = false ∧ (t.slot i).nextPosition = r.firstPosition i
  cpm : Cpm.SameButReports { a.cpm with
    consumeCount := 0, readyPrefix := 0, readyAhead := [], request := t.cpm.request } t.cpm
  told : ∀ x, a.cpm.request = some x → t.cpm.request = some { x with reported := true } ∧
    ∃ id, a.cpm.nextWrite ≤ id ∧ t.Offers (.result id ⟨x.tag, .done, a.unconsumed⟩ (some x.id))
  dlc : t.dlc = { a.dlc with
    cursorPos := t.dlc.cursorPos, cursorRow := 0, cursorStopped := false, omits := [], fetch := t.dlc.fetch }
  outRecord : t.lbp.outRecord = .none
  strayNoticed : t.lbp.strayNoticed = false
  releases : a.Releases t
  ecu : t.ecu = { (a.startEdit r).ecu with
    saves := t.ecu.saves, saving := t.ecu.saving, loads := t.ecu.loads, images := t.ecu.images }
  loads : ∀ q u, q < min 128 r.length → ((a.beginRun r).writeSide r q).material = .image u →
    t.Loads (slotOf (r.segmentAt q)) u

theorem Slot.claimedFor_serial {x y : Slot} (same : x.serial = y.serial) (r : RunRecord) (q : Nat) (side : WriteSide) :
    x.claimedFor r q side = y.claimedFor r q side := by
  unfold Slot.claimedFor
  rw [same]

/-- The claims of a run start, and its answer. -/
theorem Chip.claimRun_starts (inside : r.Inside) (undue : r.dueHorizon = none) : p.Starts r (p.claimRun r) := by
  have begins := Chip.beginRun_begins r p
  have claims := Chip.foldl_claim (p := p.beginRun r) (congrArg Rc.run begins.rc) undue
    (fun i => ⟨(begins.slots i).1, (begins.slots i).2.1⟩) (inside.apart (Nat.min_le_left _ _) (Nat.min_le_right 128 _))
  unfold Chip.claimRun
  generalize (List.range (min 128 r.length)).foldl (fun p q => p.claim q) (p.beginRun r) = c at claims ⊢
  have dirty := Chip.dirtyRunWords_reports c
  generalize c.dirtyRunWords = d at dirty
  have told := Chip.report_told .done p.unconsumed d
  have spec (x : PendingRequest) (pending : d.cpm.request = some x) := Chip.report_spec pending .done p.unconsumed
  generalize d.report .done p.unconsumed = t at told spec ⊢
  have slots : t.slots = c.slots := told.records.tape.1.trans dirty.slots
  have rc : t.rc = c.rc := told.records.tape.2.2.2.1.trans dirty.rc
  have ecu : t.ecu = c.ecu := told.records.tape.2.2.2.2.trans dirty.ecu
  have lbp : t.lbp = c.lbp := told.records.lbp.trans dirty.lbp
  have dlc : t.dlc = c.dlc := told.records.dlc.trans dirty.dlc
  have offers (x : Req) (offered : c.Offers x) : t.Offers x := told.offers x (dirty.offers x offered)
  have cpm : c.cpm = (p.beginRun r).cpm := by rw [claims.rest]
  have lbp' : c.lbp = (p.beginRun r).lbp := by rw [claims.rest]
  refine ⟨?_, fun q lt => ?_, fun i out => ?_, ?_, fun x pending => ?_, ?_, ?_, ?_, ?_, ?_, fun q u lt image => ?_⟩
  · rw [rc, claims.rest]
    exact begins.rc
  · rw [Chip.slot_of_slots slots, claims.claimed q lt]
    exact Slot.claimedFor_serial (begins.slots _).2.2.1 _ _ _
  · rw [Chip.slot_of_slots slots, claims.free i out]
    exact ⟨(begins.slots i).1, (begins.slots i).2.2.2⟩
  · have before := begins.cpm.trans (cpm ▸ dirty.cpm)
    exact (before.map (f := fun m => { m with request := t.cpm.request }) fun _ _ => rfl).trans told.records.cpm
  · have kept : d.cpm.request = some x := by
      rw [dirty.cpm, cpm, begins.cpm]
      exact pending
    obtain ⟨records, -, -, id, later, offered⟩ := spec x kept
    refine ⟨by rw [records.cpm], id, ?_, offered⟩
    exact begins.nextWrite.trans ((cpm ▸ dirty.nextWrite).trans later)
  · have position : (p.beginRun r).dlc.cursorPos = 0 := by rw [begins.dlc]
    have same : c.dlc = (p.beginRun r).dlc := by rw [claims.rest]
    rw [dlc, same, position]
    exact begins.dlc
  · rw [lbp, lbp']
    exact begins.outRecord
  · rw [lbp, lbp']
    exact begins.strayNoticed
  · intro e x tracked held
    obtain ⟨free, answered⟩ := begins.releases e x tracked held
    unfold Chip.read
    rw [lbp, lbp']
    exact ⟨free, answered⟩
  · rw [ecu, claims.rest]
    conv_lhs => rw [begins.ecu]
  · obtain ⟨⟨l, member, isLoad⟩, offered⟩ := claims.loads q u lt image
    exact ⟨⟨l, by rw [ecu]; exact member, isLoad⟩, offers _ offered⟩

/-! ## What follows the start of a PLAY, RECORD or EDIT run -/

/-- No position of the run is left to claim: the free slots lie past its end. -/
theorem Chip.Starts.nextClaim {t : Chip} (h : p.Starts r t) (inside : r.Inside) : t.nextClaim = none := by
  refine Chip.nextClaim_none (congrArg Rc.run h.rc) fun i free => ?_
  have out : ∀ q, q < min 128 r.length → slotOf (r.segmentAt q) ≠ i := by
    rintro q lt rfl
    rw [h.claimed q lt] at free
    cases free
  rw [(h.free i out).2]
  unfold RunRecord.inWindow
  rw [Bool.and_eq_false_iff, decide_eq_false_iff_not]
  refine .inr fun lt => ?_
  obtain ⟨below, slot⟩ := inside.firstPosition i lt
  exact out _ below slot

theorem Chip.Starts.finish {t : Chip} (h : p.Starts r t) (inside : r.Inside) (kind : r.kind ≠ .revert)
    (open_ : r.complete = false) : p.Starts r t.finish := by
  obtain ⟨position, moved⟩ := Chip.progress_cursor (h.nextClaim inside)
    (fun x run => by rw [h.rc] at run; cases run; exact kind) (by rw [h.dlc])
  have rests : (t.atCursor position 0).Rests t.finish := by
    unfold Chip.finish
    rw [moved, Chip.checkEnd_goesOn (p := t.atCursor position 0) h.rc open_]
    exact Chip.offerFetch_rests _
  refine ⟨rests.rc.trans h.rc, fun q lt => ?_, fun i out => ?_, ?_, fun x pending => ?_, ?_, ?_, ?_, ?_, ?_,
    fun q u lt image => ?_⟩
  · rw [Chip.slot_of_slots rests.slots]
    exact h.claimed q lt
  · rw [Chip.slot_of_slots rests.slots]
    exact h.free i out
  · have request : t.finish.cpm.request = t.cpm.request := by
      rw [rests.cpm]
      rfl
    rw [request]
    exact h.cpm.trans rests.cpm
  · obtain ⟨told, id, later, offered⟩ := h.told x pending
    refine ⟨?_, id, later, rests.offers _ offered⟩
    rw [rests.cpm]
    exact told
  · rw [rests.dlc]
    unfold Chip.atCursor
    dsimp only
    conv_lhs => rw [h.dlc]
  · rw [rests.lbp]
    exact h.outRecord
  · rw [rests.lbp]
    exact h.strayNoticed
  · intro e x tracked held
    obtain ⟨free, answered⟩ := h.releases e x tracked held
    unfold Chip.read
    rw [rests.lbp]
    exact ⟨free, answered⟩
  · rw [rests.ecu]
    exact h.ecu
  · obtain ⟨⟨l, member, isLoad⟩, offered⟩ := h.loads q u lt image
    exact ⟨⟨l, by rw [rests.ecu]; exact member, isLoad⟩, rests.offers _ offered⟩

end

end Sys2Proof.Machine


/-! PROOFS. PLAY, RECORD and EDIT start a run (O24, O25). -/

namespace Sys2Proof.Machine

-- One proof after another: the threads of many at once take more memory than the check allows.
set_option Elab.async false

section

variable {p t b : Chip} {r : RunRecord}

/-- The head that leaves after a run start changes none of it. -/
theorem Chip.Starts.ends (h : p.Starts r t) (ends : t.EndsHead b) : p.Starts r b := by
  obtain ⟨slots, -, -, rc, ecu⟩ := ends.tape
  refine ⟨rc.trans h.rc, fun q lt => ?_, fun i out => ?_, ?_, fun x pending => ?_, ?_, ends.outRecord.trans h.outRecord,
    ends.strayNoticed.trans h.strayNoticed, fun e x tracked held => ?_, ?_, fun q u lt image => ?_⟩
  · rw [Chip.slot_of_slots slots]
    exact h.claimed q lt
  · rw [Chip.slot_of_slots slots]
    exact h.free i out
  · have request : b.cpm.request = t.cpm.request := by rw [ends.cpm]
    rw [request]
    exact h.cpm.trans ends.cpm
  · obtain ⟨told, id, later, offered⟩ := h.told x pending
    exact ⟨by rw [ends.cpm]; exact told, id, later, ends.offers _ offered⟩
  · rw [ends.dlc]
    exact h.dlc
  · obtain ⟨free, answered⟩ := h.releases e x tracked held
    refine ⟨(ends.reads e fun y same => ?_).trans free, ends.responses ▸ answered⟩
    rw [free] at same
    cases same
  · rw [ecu]
    exact h.ecu
  · obtain ⟨⟨l, member, isLoad⟩, offered⟩ := h.loads q u lt image
    exact ⟨⟨l, by rw [ecu]; exact member, isLoad⟩, ends.offers _ offered⟩

/-- A request of a known kind that starts a run. -/
theorem State.grantRequest_starts {s : State} {w : PostedWrite} {kind : RequestKind} (asks : s.Asks w kind)
    {act : Nat → Chip → Chip} (starts : act w.tag (s.asked w kind) = (s.asked w kind).startRun r) (inside : r.Inside)
    (undue : r.dueHorizon = none) (other : r.kind ≠ .revert) (open_ : r.complete = false) :
    ∃ t, s.grantRequest kind act = .next t ∧ (s.asked w kind).Starts r t.toChip := by
  refine ⟨_, State.grantRequest_taken asks act, ?_⟩
  rw [starts, Chip.startRun_eq]
  exact ((Chip.claimRun_starts inside undue).finish inside other open_).ends (Chip.endHead_ends w _)

/-- The request that started a run is answered. -/
theorem State.starts_answers {s : State} {w : PostedWrite} {kind : RequestKind} (h : (s.asked w kind).Starts r t) :
    s.toChip.Answers t w.tag .done s.toChip.unconsumed := by
  obtain ⟨told, id, later, offered⟩ := h.told _ rfl
  exact ⟨_, id, told, rfl, rfl, rfl, (Nat.le_succ _).trans later, offered⟩

end

/-! ## PLAY and RECORD (R106 to R108, R111) -/

/-- The record of a PLAY or RECORD run. -/
def plainRun (kind : RunKind) (tag t0 n : Nat) (back : Bool) (rate : Nat) (writer : Option WriterKind) : RunRecord :=
  newRun kind tag t0 back (runLength t0 n back) rate writer .none

section

variable {kind : RunKind} {tag t0 n rate : Nat} {back : Bool} {writer : Option WriterKind}

theorem plainRun_inside (fits : n ≠ 0 → if back then n ≤ t0 + 1 else t0 + n ≤ 16777213) :
    (plainRun kind tag t0 n back rate writer).Inside := by
  intro backward
  change back = true at backward
  subst backward
  show runLength t0 n true ≤ t0 + 1
  unfold runLength
  by_cases whole : n = 0
  · rw [if_pos whole]
    exact Nat.le_refl _
  · rw [if_neg whole]
    exact fits whole

theorem plainRun_open (plain : kind = .play ∨ kind = .record) (start : t0 ≤ 16777212) :
    (plainRun kind tag t0 n back rate writer).complete = false := by
  have some : (0 == runLength t0 n back) = false := by
    rw [beq_eq_false_iff_ne]
    have limit : Config.maxSegment = 16777212 := rfl
    unfold runLength
    split
    · split <;> omega
    · omega
  unfold RunRecord.complete
  rcases plain with rfl | rfl
  · exact some
  · exact some

end

theorem exec_play_starts {s : State} {w : PostedWrite} (asks : s.Asks w .play) (idle : s.rc.state = .idle)
    (link : s.dlc.linkState = .up) (direction : (s.shadowed w).arg 2 ≤ 1) (start : (s.shadowed w).arg 0 ≤ 16777212)
    (fits : (s.shadowed w).arg 1 ≠ 0 → if (s.shadowed w).arg 2 == 1 then (s.shadowed w).arg 1 ≤ (s.shadowed w).arg 0 + 1
      else (s.shadowed w).arg 0 + (s.shadowed w).arg 1 ≤ 16777213) :
    ∃ t, exec .play s = .next t ∧ (s.asked w .play).Starts (plainRun .play w.tag ((s.shadowed w).arg 0)
      ((s.shadowed w).arg 1) ((s.shadowed w).arg 2 == 1) s.cpm.signal.rate none) t.toChip := by
  refine State.grantRequest_starts (act := Chip.startPlay) asks ?_ (plainRun_inside fits) rfl
    (show RunKind.play ≠ .revert by decide) (plainRun_open (.inl rfl) start)
  have inside : RangeInside ((s.asked w .play).testedRange .play) := by
    rw [Chip.testedRange_inside _ (.inl rfl)]
    simp only [State.asked_arg]
    refine ⟨start, fun some => ?_⟩
    have := fits some
    by_cases back : (s.shadowed w).arg 2 = 1
    · simpa [back] using this
    · simpa [back] using this
  unfold Chip.startPlay
  refine (Chip.startChecked_passed (p := s.asked w .play) _ idle inside link).trans ?_
  rw [if_neg (by rw [State.asked_arg]; omega)]
  simp only [State.asked_arg]
  rfl

theorem exec_record_starts {s : State} {w : PostedWrite} (asks : s.Asks w .record) (idle : s.rc.state = .idle)
    (link : s.dlc.linkState = .up) (start : (s.shadowed w).arg 0 ≤ 16777212)
    (fits : (s.shadowed w).arg 1 ≠ 0 → (s.shadowed w).arg 0 + (s.shadowed w).arg 1 ≤ 16777213) :
    ∃ t, exec .record s = .next t ∧ (s.asked w .record).Starts (plainRun .record w.tag ((s.shadowed w).arg 0)
      ((s.shadowed w).arg 1) false s.cpm.signal.rate (some .record)) t.toChip := by
  refine State.grantRequest_starts (act := Chip.startRecord) asks ?_ (plainRun_inside fits) rfl
    (show RunKind.record ≠ .revert by decide) (plainRun_open (.inr rfl) start)
  have inside : RangeInside ((s.asked w .record).testedRange .record) := by
    rw [Chip.testedRange_inside _ (.inr (.inl rfl))]
    simp only [State.asked_arg, reduceCtorEq, false_and, if_false]
    exact ⟨start, fits⟩
  unfold Chip.startRecord
  refine (Chip.startChecked_passed (p := s.asked w .record) _ idle inside link).trans ?_
  simp only [State.asked_arg]
  rfl

/-- Settles O24: the checks passed, the start is that of `Chip.Starts`, its write sides those of the kind. -/
theorem playAndRecordStart : Obligations.PlayAndRecordStart := by
  unfold Obligations.PlayAndRecordStart
  intro s w c k kind writer write starts asks idle link a t0 n back direction start fits length at'
  have started : ∃ t, exec c s = .next t ∧
      (s.asked w k).Starts (plainRun kind w.tag t0 n back s.cpm.signal.rate writer) t.toChip ∧
      ∀ q, ((s.asked w k).beginRun (plainRun kind w.tag t0 n back s.cpm.signal.rate writer)).writeSide
        (plainRun kind w.tag t0 n back s.cpm.signal.rate writer) q = ⟨write, .live, some 0⟩ := by
    simp only [List.mem_cons, Prod.mk.injEq, List.not_mem_nil, or_false] at starts
    rcases starts with ⟨rfl, rfl, rfl, rfl, rfl⟩ | ⟨rfl, rfl, rfl, rfl, rfl⟩
    · obtain ⟨t, answer, h⟩ := exec_play_starts asks idle link (direction rfl) start fits
      exact ⟨t, answer, h, fun _ => rfl⟩
    · obtain ⟨t, answer, h⟩ := exec_record_starts asks idle link start fits
      exact ⟨t, answer, h, fun _ => rfl⟩
  obtain ⟨t, answer, h, side⟩ := started
  refine ⟨t, answer, h.rc, fun q lt => ?_, fun i out => (h.free i out).1, State.starts_answers h, h.cpm, h.outRecord,
    h.strayNoticed, h.releases, ?_, ?_, h.dlc⟩
  · have claimed := h.claimed q lt
    rw [side] at claimed
    have place : slotOf (at' q) =
        slotOf ((plainRun kind w.tag t0 n back s.cpm.signal.rate writer).segmentAt q) := rfl
    intro x
    dsimp only [x]
    rw [place, claimed]
    refine ⟨rfl, rfl, rfl, rfl, rfl, rfl, rfl, rfl, rfl, fun row => ?_⟩
    exact Vector.getElem_replicate _
  · rw [h.ecu]
    rfl
  · rw [h.ecu]
    rfl

end Sys2Proof.Machine


/-! PROOFS. EDIT starts a run with its punch parameters and write sides (O25). -/

namespace Sys2Proof.Machine

-- One proof after another: the threads of many at once take more memory than the check allows.
set_option Elab.async false

/-- The record of an EDIT run. -/
def editRun (a : EditArgs) (tag rate : Nat) : RunRecord := newRun .edit tag a.t0 false a.n rate (some .edit) a.params

/-- An EDIT's write sides by span and clip (R48). -/
theorem Chip.editSide (p : Chip) (a : EditArgs) (tag rate q : Nat) : p.writeSide (editRun a tag rate) q =
    if a.pin / 192 - a.t0 ≤ q ∧ q ≤ (a.pout + 2 ^ a.f - 1) / 192 - a.t0 then
      match a.clip with
      | some k => ⟨.closed, .clip k, none⟩
      | none => ⟨.filling, .live, none⟩
    else ⟨.idle, .live, some 0⟩ := by
  have span : (editRun a tag rate).isSpan q = true ↔
      a.pin / 192 - a.t0 ≤ q ∧ q ≤ (a.pout + 2 ^ a.f - 1) / 192 - a.t0 := by
    show (decide _ && decide _) = true ↔ _
    rw [Bool.and_eq_true, decide_eq_true_iff, decide_eq_true_iff]
  have side : p.writeSide (editRun a tag rate) q = if (editRun a tag rate).isSpan q then
      match a.clip with
      | some k => ⟨.closed, .clip k, none⟩
      | none => ⟨.filling, .live, none⟩
      else ⟨.idle, .live, some 0⟩ := by
    unfold Chip.writeSide
    dsimp only [editRun, newRun, EditArgs.params]
    cases a.clip <;> rfl
  rw [side]
  exact if_congr span rfl rfl

/-- The clip of a punch taken out of the clip store is in use (R139). -/
theorem Chip.startEdit_edit (p : Chip) (a : EditArgs) (tag rate : Nat) : (p.startEdit (editRun a tag rate)).ecu =
    { p.ecu with
      segCount := 0, partialMark := false, stoppedMark := false
      clips := match a.clip with
        | some k => p.ecu.clips.set k { p.ecu.clips[k] with inUse := true }
        | none => p.ecu.clips } := by
  unfold Chip.startEdit
  dsimp only [editRun, newRun, EditArgs.params]
  cases a.clip <;> rfl

/-- The clip named by the words of the cell (R138). -/
theorem EditArgs.clip_live {a : EditArgs} (live : a.material = 0) : a.clip = none := by
  unfold EditArgs.clip
  exact if_neg (by rw [live]; decide)

theorem EditArgs.clip_named {a : EditArgs} {k : Fin 4} (fromClip : a.material = 1) (number : a.k = k.val) :
    a.clip = some k := by
  unfold EditArgs.clip
  rw [if_pos fromClip, number]
  exact congrArg some (Fin.ext (Nat.mod_eq_of_lt k.isLt))

/-- Checks 1 to 6 of R138 passed. -/
structure EditArgs.Fits (a : EditArgs) : Prop where
  some : a.n ≠ 0
  fWord : a.fWord ≠ 0 → 4 ≤ a.fWord ∧ a.fWord ≤ 10
  spans : a.pin + 2 ^ a.f ≤ a.pout
  low : 192 * a.t0 ≤ a.pin
  high : a.pin < 192 * (a.t0 + a.n)
  stop : a.pout + 2 ^ a.f ≤ 192 * (a.t0 + a.n)
  material : a.material = 0 ∨ a.material = 1 ∧ a.k < 4

/-- An EDIT within its range whose clip, if it names one, is READY and long enough passes its checks. -/
theorem EditArgs.refusal_passes {a : EditArgs} {clips : Vector Clip 4} (fits : a.Fits)
    (usable : ∀ k, a.clip = some k → (clips[k]).state = .ready ∧ a.pout + 2 ^ a.f - a.pin ≤ 192 * (clips[k]).length) :
    a.refusal clips = none := by
  obtain ⟨some, fWord, spans, low, high, stop, material⟩ := fits
  have clipPasses : a.clipRefusal clips = none := by
    unfold EditArgs.clipRefusal
    split
    · rfl
    · rename_i k named
      obtain ⟨isReady, long⟩ := usable k named
      rw [isReady, if_neg nofun, if_neg nofun, if_neg (Nat.not_lt.mpr long)]
  have short : ¬(a.pout ≤ a.pin ∨ a.pout - a.pin < 2 ^ a.f) := by
    have := Nat.two_pow_pos a.f
    omega
  have word : ¬(a.fWord ≠ 0 ∧ (a.fWord < 4 ∨ 10 < a.fWord)) := fun ⟨given, out⟩ => by
    have := fWord given
    omega
  unfold EditArgs.refusal
  rw [if_neg some, if_neg word, if_neg short, if_neg (by omega), if_neg (by omega), if_neg (by omega)]
  exact clipPasses

theorem exec_edit_starts {s : State} {w : PostedWrite} (asks : s.Asks w .edit) (idle : s.rc.state = .idle)
    (link : s.dlc.linkState = .up) (inside : RangeInside ((s.asked w .edit).testedRange .edit))
    (passes : (s.asked w .edit).editArgs.refusal s.ecu.clips = none) (some_ : (s.asked w .edit).editArgs.n ≠ 0) :
    ∃ t, exec .edit s = .next t ∧
      (s.asked w .edit).Starts (editRun (s.asked w .edit).editArgs w.tag s.cpm.signal.rate) t.toChip := by
  refine State.grantRequest_starts (act := Chip.startEditRun) asks ?_ nofun rfl
    (show RunKind.edit ≠ .revert by decide) ?_
  · unfold Chip.startEditRun
    refine (Chip.startChecked_passed (p := s.asked w .edit) _ idle inside link).trans ?_
    rw [show (s.asked w .edit).ecu.clips = s.ecu.clips from rfl, passes]
    rfl
  · have unready : (0 == (s.asked w .edit).editArgs.n) = false := beq_eq_false_iff_ne.mpr some_.symm
    show (0 == (s.asked w .edit).editArgs.n && _) = false
    rw [unready, Bool.false_and]

/-- Settles O25: the checks of R138 passed, the start is that of `Chip.Starts`. -/
theorem editStarts : Obligations.EditStarts := by
  unfold Obligations.EditStarts
  intro s w clip asks idle link a t0 n pin pout f some_ fits fWord spans low high stop material qa qb
  have args : (s.asked w .edit).editArgs = ⟨t0, n, pin, pout, a.arg 4, f, a.arg 5, a.arg 6⟩ := by
    unfold Chip.editArgs
    simp only [State.asked_arg]
    rfl
  have clipNamed : (s.asked w .edit).editArgs.clip = clip := by
    rw [args]
    obtain ⟨live, rfl⟩ | ⟨k, fromClip, number, rfl, -⟩ := material
    · exact EditArgs.clip_live live
    · exact EditArgs.clip_named fromClip number
  have passes : (s.asked w .edit).editArgs.refusal s.ecu.clips = none := by
    have few : a.arg 5 = 0 ∨ a.arg 5 = 1 ∧ a.arg 6 < 4 := by
      obtain ⟨live, -⟩ | ⟨k, fromClip, number, -⟩ := material
      · exact .inl live
      · exact .inr ⟨fromClip, by rw [number]; exact k.isLt⟩
    have usable : ∀ k, clip = some k → (s.ecu.clips[k]).state = .ready ∧
        pout + 2 ^ f - pin ≤ 192 * (s.ecu.clips[k]).length := by
      rintro k rfl
      obtain ⟨-, none⟩ | ⟨k', -, -, same, isReady, long⟩ := material
      · cases none
      · cases same
        exact ⟨isReady, long⟩
    refine EditArgs.refusal_passes ?_ (by rw [clipNamed, args]; exact usable)
    rw [args]
    exact ⟨some_, fWord, spans, low, high, stop, few⟩
  have inside : RangeInside ((s.asked w .edit).testedRange .edit) := by
    rw [Chip.testedRange_inside _ (.inr (.inr rfl))]
    simp only [State.asked_arg, reduceCtorEq, false_and, if_false]
    have pos := Nat.pos_of_ne_zero some_
    exact ⟨show t0 ≤ 16777212 by omega, fun _ => fits⟩
  obtain ⟨t, answer, h⟩ := exec_edit_starts asks idle link inside passes (by rw [args]; exact some_)
  have ecu := h.ecu
  rw [Chip.startEdit_edit, clipNamed] at ecu
  have record : editRun (s.asked w .edit).editArgs w.tag s.cpm.signal.rate =
      newRun .edit w.tag t0 false n s.cpm.signal.rate (some .edit) (.edit ⟨pin, pout, f⟩ clip qa qb (qb - qa + 1)) := by
    unfold editRun EditArgs.params
    rw [clipNamed, args]
  refine ⟨t, answer, h.rc.trans (by rw [record]; rfl), fun q lt => ?_, fun k used => ?_, fun k unused => ?_,
    ?_, ?_, ?_, ?_,
    State.starts_answers h, ?_, ?_, fun k => ?_⟩
  · have claimed := h.claimed q (by rw [record]; exact lt)
    rw [Chip.editSide, clipNamed, args] at claimed
    intro x
    dsimp only [x]
    rw [show t.toChip.slot (slotOf (t0 + q)) = _ from claimed]
    refine ⟨rfl, rfl, rfl, rfl, rfl, ?_⟩
    by_cases span : qa ≤ q ∧ q ≤ qb
    · rw [if_pos span, if_pos span]
      cases clip with
      | none => exact ⟨rfl, rfl, rfl⟩
      | some k => exact ⟨rfl, rfl, rfl⟩
    · rw [if_neg span, if_neg span]
      exact ⟨rfl, rfl⟩
  · subst used
    rw [ecu]
    exact Vector.getElem_set_self _
  · rw [ecu]
    cases clip with
    | none => rfl
    | some k' => exact Vector.getElem_set_ne k'.isLt k.isLt fun same => unused (congrArg some (Fin.ext same))
  · rw [ecu]
    rfl
  · rw [ecu]
  · rw [ecu]
  · rw [ecu]
  · rw [h.cpm]
  · rw [h.cpm]
  · unfold Chip.counter
    rw [h.cpm]
    rfl

end Sys2Proof.Machine


/-! PROOFS. The cursor moves and claims of an event that settle no write side (R48, R89): of the run record only the
window base moves, and loads under way go on. -/

namespace Sys2Proof.Machine

-- One proof after another: the threads of many at once take more memory than the check allows.
set_option Elab.async false

/-! ## Room in the notice ring (R37) -/

section

variable {p q : Chip}

theorem Chip.raise_ring {n : Nat} (x : Notice) (room : p.RingHolds (n + 1)) : (p.raise x).RingHolds n := by
  have first := room 0 (Nat.succ_pos n)
  unfold Chip.raise
  split
  · exact fun k lt => room k (Nat.lt_succ_of_lt lt)
  · rw [if_neg (by rw [Nat.add_zero] at first; exact first)]
    intro k lt
    have later := room (k + 1) (Nat.succ_lt_succ lt)
    dsimp only
    rw [show (p.cpm.writeIndex + 1) % Config.ringEntries + k + 1 =
      (p.cpm.writeIndex + 1) % Config.ringEntries + (k + 1) from Nat.add_assoc _ _ _, Nat.mod_add_mod]
    rw [show p.cpm.writeIndex + (k + 1) + 1 = p.cpm.writeIndex + 1 + (k + 1) by omega] at later
    exact later

theorem Chip.RingHolds.less {n m : Nat} (h : p.RingHolds n) (le : m ≤ n) : p.RingHolds m :=
  fun k lt => h k (Nat.lt_of_lt_of_le lt le)

/-- The aux recovery raises at most two notices (R44). -/
theorem Chip.noteAux_ring {n : Nat} (j : DecodeJob) (room : p.RingHolds (n + 2)) : (p.noteAux j).RingHolds n := by
  have mismatch : (if mismatchedBlocks j.segment j.aux = 0 then p
      else p.raise (.tMismatch j.segment (mismatchedBlocks j.segment j.aux))).RingHolds (n + 1) := by
    split
    · exact room.less (Nat.le_succ _)
    · exact Chip.raise_ring _ room
  unfold Chip.noteAux
  dsimp only
  split
  · exact Chip.raise_ring _ mismatch
  · exact mismatch.less (Nat.le_succ _)

variable (i : Fin 128)

/-- A decode item in progress made void, or the job ended. -/
theorem Chip.setJob_room {x : Option CeJob} (ended : ∀ j, x = some (.decode j) → j.void = true)
    (h : p.RoomAfterReleases 1) : (p.setJob x).RoomAfterReleases 1 := by
  refine ⟨h.1, .inr fun j decodes live => ?_⟩
  rw [ended j decodes] at live
  cases live

theorem Chip.unqueue_room (out : CeItem → Bool) (h : p.RoomAfterReleases 1) :
    (p.unqueue out).RoomAfterReleases 1 := h

theorem Chip.withdraw_room (r : Req) (h : p.RoomAfterReleases 1) : (p.withdraw r).RoomAfterReleases 1 := h

theorem Chip.offer_room (r : Req) (h : p.RoomAfterReleases 1) : (p.offer r).RoomAfterReleases 1 := h

/-- A void decode item that goes on raises its notices at its last block alone (R44, R79). -/
theorem Chip.decodeAdvance_room {j : DecodeJob} (void : j.void = true) (h : p.RoomAfterReleases 1)
    (late : ¬j.block < 15 → p.RingHolds 3) : (p.decodeAdvance j).RoomAfterReleases 1 := by
  unfold Chip.decodeAdvance
  dsimp only
  split
  · refine Chip.offer_room _ (Chip.setJob_room (fun x same => ?_) h)
    cases same
    exact void
  · rename_i last
    exact ⟨Chip.noteAux_ring j (late last), .inr nofun⟩

theorem Chip.voidDecode_room (h : p.RoomAfterReleases 1) : (p.voidDecode i).RoomAfterReleases 1 := by
  have left := Chip.unqueue_room (CeItem.decodes i) h
  have late (j : DecodeJob) (decodes : p.ce.job = some (.decode j)) (live : j.void = false) (last : ¬j.block < 15) :
      p.RingHolds 3 := h.2.resolve_right fun early => last (early j decodes live)
  unfold Chip.voidDecode
  dsimp only
  split
  · rename_i j decodes
    split
    · rename_i live
      split
      · refine Chip.setJob_room (fun x same => ?_) left
        cases same
        rfl
      · exact Chip.decodeAdvance_room rfl (Chip.withdraw_room _ left) (late j decodes live.2)
      · exact Chip.setJob_room nofun (Chip.withdraw_room _ left)
    · exact left
  · exact left

theorem Chip.voidCode_room (h : p.RoomAfterReleases 1) : (p.voidCode i).RoomAfterReleases 1 := by
  have left := Chip.unqueue_room (CeItem.codes i) h
  unfold Chip.voidCode
  dsimp only
  split
  · split
    · split
      · split
        · exact Chip.setJob_room nofun left
        · exact Chip.setJob_room nofun left
      · exact Chip.setJob_room nofun (Chip.withdraw_room _ left)
    · exact left
  · exact left

theorem Chip.saveProceed_rest (p : Chip) : p.saveProceed = { p with
    ecu := p.saveProceed.ecu, mp := p.saveProceed.mp } := by
  unfold Chip.saveProceed
  split
  · split
    · split
      · split <;> rfl
      · split <;> rfl
    · rfl
  · rfl

theorem Chip.voidSaving_rest (j : SaveJob) (p : Chip) : p.voidSaving j = { p with
    ecu := (p.voidSaving j).ecu, mp := (p.voidSaving j).mp } := by
  unfold Chip.voidSaving
  dsimp only
  split
  · rw [Chip.saveProceed_rest]
    rfl
  · rfl

theorem Chip.dropSaves_rest (p : Chip) : p.dropSaves i = { p with
    ecu := (p.dropSaves i).ecu, mp := (p.dropSaves i).mp } := by
  have freed : (p.ecu.saves.filter fun x => x.slot == i).foldl (fun p x => p.freeImage x.image) p =
      { p with ecu := ((p.ecu.saves.filter fun x => x.slot == i).foldl (fun p x => p.freeImage x.image) p).ecu } :=
    List.foldlRecOn (motive := fun q : Chip => q = { p with ecu := q.ecu }) _ _ rfl fun q rest v _ => by
      conv_lhs => rw [rest]
      rfl
  unfold Chip.dropSaves
  dsimp only
  generalize (p.ecu.saves.filter fun x => x.slot == i).foldl (fun p x => p.freeImage x.image) p = q at freed
  generalize q.ecu = e at freed
  subst freed
  split
  · split
    · rw [Chip.voidSaving_rest]
    · rfl
  · rfl

theorem Chip.voidSave_room (h : p.RoomAfterReleases 1) : (p.voidSave i).RoomAfterReleases 1 := by
  rw [Chip.voidSave_eq, Chip.dropSaves_rest]
  exact h

theorem Chip.voidLoad_room (h : p.RoomAfterReleases 1) : (p.voidLoad i).RoomAfterReleases 1 := by
  unfold Chip.voidLoad
  split
  · exact h
  · exact h

theorem Chip.withdrawFetchOf_room (h : p.RoomAfterReleases 1) : (p.withdrawFetchOf i).RoomAfterReleases 1 := by
  unfold Chip.withdrawFetchOf Chip.withdrawFetch
  split
  · split
    · split
      · exact h
      · exact h
    · exact h
  · exact h

theorem Chip.modSlot_room (f : Slot → Slot) (h : p.RoomAfterReleases 1) : (p.modSlot i f).RoomAfterReleases 1 := h

theorem Chip.moveWindow_room (h : p.RoomAfterReleases 1) : p.moveWindow.RoomAfterReleases 1 := h

theorem Chip.release_room (h : p.RoomAfterReleases 1) : (p.release i).RoomAfterReleases 1 := by
  unfold Chip.release Chip.releaseSlot
  exact Chip.moveWindow_room (Chip.modSlot_room i _ (Chip.withdrawFetchOf_room i (Chip.voidLoad_room i
    (Chip.voidSave_room i (Chip.voidCode_room i (Chip.voidDecode_room i h))))))

end

/-! ## Cursor moves and claims that settle nothing -/

/-- Cursor moves and claims that settle nothing: the run's window base moves, and what serves a busy slot stays. -/
structure Chip.Undue (a b : Chip) : Prop where
  state : b.rc.state = a.rc.state
  run : ∀ r, a.rc.run = some r → ∃ base, b.rc.run = some { r with windowBase := base }
  cpm : Cpm.SameButReports a.cpm b.cpm
  busy : ∀ i, (a.slot i).Busy → b.slot i = a.slot i
  loads : ∀ l ∈ a.ecu.loads, (a.slot l.slot).Busy → l ∈ b.ecu.loads
  offers : ∀ i, (a.slot i).Busy → a.Offers (.load i) → b.Offers (.load i)

/-- Such moves leave the notice ring its room. -/
structure Chip.Passes (a b : Chip) : Prop extends a.Undue b where
  room : a.RoomAfterReleases 1 → b.RoomAfterReleases 1

section

variable {a p q : Chip} {i : Fin 128}

theorem Chip.Undue.refl (p : Chip) : p.Undue p :=
  ⟨rfl, fun r run => ⟨r.windowBase, run⟩, .refl _, fun _ _ => rfl, fun _ x _ => x, fun _ _ => id⟩

theorem Chip.Undue.trans (h : a.Undue p) (k : p.Undue q) : a.Undue q where
  state := k.state.trans h.state
  run := fun r run => by
    obtain ⟨base, mid⟩ := h.run r run
    obtain ⟨base', last⟩ := k.run _ mid
    exact ⟨base', last⟩
  cpm := h.cpm.trans k.cpm
  busy := fun i busy => (k.busy i (by rw [h.busy i busy]; exact busy)).trans (h.busy i busy)
  loads := fun l member busy => k.loads l (h.loads l member busy) (by rw [h.busy _ busy]; exact busy)
  offers := fun i busy offered => k.offers i (by rw [h.busy i busy]; exact busy) (h.offers i busy offered)

theorem Chip.Passes.refl (p : Chip) : p.Passes p := ⟨.refl p, id⟩

theorem Chip.Passes.trans (h : a.Passes p) (k : p.Passes q) : a.Passes q := ⟨h.toUndue.trans k.toUndue, k.room ∘ h.room⟩

/-- The release of a slot that is not busy. -/
theorem Chip.release_undue (idle : ¬(p.slot i).Busy) : p.Undue (p.release i) := by
  have vacates := Chip.releaseSlot_vacates (.refl i p)
  have frees := Chip.releaseSlot_frees i (.refl noSlot p)
  have apart (j : Fin 128) (busy : (p.slot j).Busy) : j ≠ i := fun same => idle (same ▸ busy)
  refine ⟨?_, fun r run => ?_, frees.sameCpm, fun j busy => Chip.releaseSlot_other (apart j busy) p,
    fun l member busy => vacates.loads l member (apart _ busy),
    fun j busy => vacates.offers j (apart j busy)⟩
  · show (p.releaseSlot i).rc.state = _
    rw [vacates.rc]
  · unfold Chip.release Chip.moveWindow Chip.modRun
    dsimp only
    rw [vacates.rc, run]
    exact ⟨_, rfl⟩

/-- The claim of a free slot above the due horizon. -/
theorem Chip.claimSlot_undue (r : RunRecord) {q : Nat} (above : r.passed q = false)
    (free : (p.slot i).claimed = false) : p.Undue (p.claimSlot r q i) := by
  have apart (j : Fin 128) (busy : (p.slot j).Busy) : j ≠ i := fun same => by
    rw [same, Slot.Busy, free] at busy
    cases busy.1
  have claimed : p.Undue (p.setSlot i (p.claimedSlot r q (p.slot i))) :=
    ⟨rfl, fun r run => ⟨r.windowBase, run⟩, .refl _, fun j busy => Chip.slot_setSlot_other _ p (apart j busy),
      fun _ x _ => x, fun _ _ => id⟩
  have decoding : p.Undue (if ((p.setSlot i (p.claimedSlot r q (p.slot i))).slot i).allIn
      then (p.setSlot i (p.claimedSlot r q (p.slot i))).queueDecode i
      else p.setSlot i (p.claimedSlot r q (p.slot i))) := by
    split
    · exact ⟨rfl, fun r run => ⟨r.windowBase, run⟩, .refl _, fun j busy =>
        (Chip.slot_setSlot_other _ _ (apart j busy)).trans (Chip.slot_setSlot_other _ p (apart j busy)),
        fun _ x _ => x, fun _ _ => id⟩
    · exact claimed
  unfold Chip.claimSlot
  dsimp only
  rw [above, if_neg (by decide)]
  have begun (b : Chip) : b.Undue (b.beginLoadOf i) := by
    obtain ⟨loads, offers⟩ := Chip.beginLoadOf_keeps i b
    refine ⟨?_, fun r run => ⟨r.windowBase, ?_⟩, ?_, fun j _ => ?_, fun l member _ => loads l member,
      fun j _ => offers _⟩
    · rw [Chip.beginLoadOf_rest]
    · rw [Chip.beginLoadOf_rest]
      exact run
    · rw [Chip.beginLoadOf_rest]
      exact .refl _
    · rw [Chip.beginLoadOf_rest]
      rfl
  exact decoding.trans (begun _)

theorem Chip.claimSlot_passes (r : RunRecord) {q : Nat} (above : r.passed q = false)
    (free : (p.slot i).claimed = false) : p.Passes (p.claimSlot r q i) := by
  refine ⟨Chip.claimSlot_undue r above free, fun h => ?_⟩
  unfold Chip.claimSlot
  dsimp only
  rw [above, if_neg (by decide), Chip.beginLoadOf_rest]
  split
  · exact h
  · exact h

/-- A claim is made for a position of the run. -/
theorem Chip.nextClaim_some {n : Nat} (next : p.nextClaim = some n) :
    ∃ r i, p.rc.run = some r ∧ (p.slot i).nextPosition < r.length := by
  cases run : p.rc.run with
  | none =>
    unfold Chip.nextClaim at next
    rw [run] at next
    cases next
  | some r =>
    by_contra beyond
    have outside : p.nextClaim = none := Chip.nextClaim_none run fun i _ => by
      have past : ¬(p.slot i).nextPosition < r.length := fun lt => beyond ⟨r, i, rfl, lt⟩
      unfold RunRecord.inWindow
      rw [decide_eq_false past, Bool.and_false]
    rw [outside] at next
    cases next

/-- The claims still to come settle nothing, for the run in the record. -/
def Chip.Unsettling (p : Chip) : Prop := ∀ r, p.rc.run = some r → p.ClaimsSettled r

theorem Chip.passCursor_passes (r : RunRecord) (p : Chip) : p.Passes (p.passCursor r) := by
  have moved (position row : Nat) : p.Passes (p.atCursor position row) :=
    ⟨⟨rfl, fun r run => ⟨r.windowBase, run⟩, .refl _, fun _ _ => rfl, fun _ x _ => x, fun _ _ => id⟩, id⟩
  unfold Chip.passCursor
  dsimp only
  split
  · rename_i gap
    obtain ⟨-, -, idle⟩ := gap
    exact (moved _ _).trans ⟨Chip.release_undue fun busy => busy.2 idle, Chip.release_room _⟩
  · exact moved _ _

theorem Chip.passCursor_nextPosition (r : RunRecord) (p : Chip) (i : Fin 128) :
    ((p.passCursor r).slot i).nextPosition = (p.slot i).nextPosition := by
  unfold Chip.passCursor
  dsimp only
  split
  · exact (Chip.releaseSlot_serial _ i _).2
  · rfl

theorem progressLoop_passes (n : Nat) (settled : p.Unsettling) : p.Passes (progressLoop n p) := by
  induction n generalizing p with
  | zero => exact .refl p
  | succ n ih =>
    unfold progressLoop
    split
    · rename_i q moved
      unfold Chip.cursorStep at moved
      split at moved
      · cases moved
      · rename_i r run
        split at moved
        · cases moved
          have passed := Chip.passCursor_passes r p
          refine passed.trans (ih fun x same => ?_)
          obtain ⟨base, mid⟩ := passed.run r run
          cases mid.symm.trans same
          refine (settled r run).imp_right fun none i => ?_
          rw [Chip.passCursor_nextPosition]
          exact none i
        · cases moved
    · split
      · rename_i m next
        obtain ⟨r, i, run, within⟩ := Chip.nextClaim_some next
        have undue : r.dueHorizon = none :=
          (settled r run).resolve_right fun none => absurd within (Nat.not_lt.mpr (none i))
        have above : r.passed m = false := by
          unfold RunRecord.passed
          rw [undue]
        have claimed : p.Passes (p.claim m) := by
          unfold Chip.claim
          rw [run]
          dsimp only
          split
          · exact .refl p
          · rename_i unclaimed
            exact Chip.claimSlot_passes r above (Bool.eq_false_iff.mpr unclaimed)
        refine claimed.trans (ih fun x same => .inl ?_)
        obtain ⟨base, mid⟩ := claimed.run r run
        cases mid.symm.trans same
        exact undue
      · exact .refl p

theorem Chip.progress_passes (settled : p.Unsettling) : p.Passes p.progress := by
  unfold Chip.progress
  split
  · exact .refl p
  · exact progressLoop_passes _ settled

end

end Sys2Proof.Machine


/-! PROOFS. REVERT starts the run that restores the run on top of the stack (O26). -/

namespace Sys2Proof.Machine

-- One proof after another: the threads of many at once take more memory than the check allows.
set_option Elab.async false

/-! ## The run on top of the stack (R161, R167) -/

section

variable {below : List StackEntry} {segs : List (Nat × Fin 256)} {tag first : Nat} {mark : Bool}

/-- The SEG entries of segments and their images. -/
def segEntries (segs : List (Nat × Fin 256)) : List StackEntry := segs.map fun x => .seg x.1 x.2

theorem topRun_eq (below : List StackEntry) (segs : List (Nat × Fin 256)) (tag first : Nat) (mark : Bool) :
    topRun (below ++ segEntries segs ++ [.run tag first segs.length mark]) =
      some ⟨tag, first, segs.length, mark, below.length, segs.map Prod.fst⟩ := by
  have place : (below ++ segEntries segs ++ [StackEntry.run tag first segs.length mark]).length - 1 - segs.length =
      below.length := by
    simp [segEntries]
  have named : segs.filterMap (some ∘ Prod.fst) = segs.map Prod.fst := by rw [List.filterMap_eq_map]
  unfold topRun
  rw [List.getLast?_concat]
  dsimp only
  rw [place, List.dropLast_concat, List.drop_left, segEntries, List.filterMap_map]
  exact congrArg (fun l => some (TopRun.mk tag first segs.length mark below.length l)) named

theorem foldl_max_bounds {l : List Nat} {first limit : Nat} (bounds : ∀ x ∈ l, x ≤ limit) (start : first ≤ limit) :
    first ≤ l.foldl max first ∧ l.foldl max first ≤ limit := by
  refine List.foldlRecOn (motive := fun m : Nat => first ≤ m ∧ m ≤ limit) l _ ⟨Nat.le_refl _, start⟩ ?_
  exact fun m ⟨low, high⟩ x member => ⟨low.trans (Nat.le_max_left _ _), Nat.max_le.mpr ⟨high, bounds x member⟩⟩

/-- The range of a REVERT of saved segments lies on the tape. -/
theorem revertRange_top (bounds : ∀ x ∈ segs, first ≤ x.1 ∧ x.1 ≤ 16777212) :
    RangeInside (revertRange (below ++ segEntries segs ++ [.run tag first segs.length mark])) := by
  intro lo hi range
  unfold revertRange at range
  rw [topRun_eq] at range
  dsimp only at range
  split at range
  · cases range
  · rename_i some
    cases range
    obtain ⟨x, l, rfl⟩ := List.exists_cons_of_ne_nil (List.length_pos_iff.mp (Nat.pos_of_ne_zero some))
    obtain ⟨low, high⟩ := bounds x List.mem_cons_self
    have highest := foldl_max_bounds (l := (x :: l).map Prod.fst) (limit := 16777212) (fun y member => by
      obtain ⟨z, entry, rfl⟩ := List.mem_map.mp member
      exact (bounds z entry).2) (low.trans high)
    exact ⟨Int.natCast_nonneg _, Int.ofNat_le.mpr highest.2⟩

/-- The image saved for a segment is that of its first SEG entry. -/
theorem imageFor_segEntries (t : Nat) (segs : List (Nat × Fin 256)) :
    imageFor t (segEntries segs) = (segs.find? fun x => x.1 == t).map Prod.snd := by
  induction segs with
  | nil => rfl
  | cons x l ih =>
    unfold imageFor segEntries at ih ⊢
    rw [List.map_cons, List.findSome?_cons, List.find?_cons]
    dsimp only
    by_cases here : x.1 = t
    · rw [if_pos here, beq_iff_eq.mpr here]
      rfl
    · rw [if_neg here, beq_eq_false_iff_ne.mpr here]
      exact ih

end

/-! ## What the start checks of a REVERT come to (R167) -/

section

variable {s : State} {w : PostedWrite} {below : List StackEntry} {segs : List (Nat × Fin 256)} {tag first : Nat}
  {mark : Bool}

/-- The record of a REVERT run. -/
def revertRun (top : TopRun) (tag rate : Nat) : RunRecord :=
  newRun .revert tag top.first false (top.highest - top.first + 1) rate (some .revert)
    (.revert top.tag top.place top.count)

theorem State.startRevert_top (idle : s.rc.state = .idle) (link : s.dlc.linkState = .up)
    (stack : s.ecu.stack = below ++ segEntries segs ++ [.run tag first segs.length mark])
    (bounds : ∀ x ∈ segs, first ≤ x.1 ∧ x.1 ≤ 16777212) : (s.asked w .revert).startRevert w.tag =
      if mark then (s.asked w .revert).report .badState (detailWith 1 tag)
      else if segs.length = 0 then (s.asked w .revert).popEntry.report .done 0
      else (s.asked w .revert).startRun
        (revertRun ⟨tag, first, segs.length, mark, below.length, segs.map Prod.fst⟩ w.tag s.cpm.signal.rate) := by
  have inside : RangeInside (revertRange (s.asked w .revert).ecu.stack) := by
    rw [State.asked_ecu, stack]
    exact revertRange_top bounds
  unfold Chip.startRevert
  refine (Chip.startChecked_passed (p := s.asked w .revert) _ idle inside link).trans ?_
  rw [State.asked_ecu, stack, topRun_eq]
  rfl

/-- The write side of a segment with an image (R48): CLOSED, its marker base that of the image, unless a save is to fill
the image. -/
theorem State.revertSide (stack : s.ecu.stack = below ++ segEntries segs ++ [.run tag first segs.length mark])
    (q : Nat) (u : Fin 256) (found : (segs.find? fun x => x.1 == first + q) = some (first + q, u)) :
    let r := revertRun ⟨tag, first, segs.length, mark, below.length, segs.map Prod.fst⟩ w.tag s.cpm.signal.rate
    ((s.asked w .revert).beginRun r).writeSide r q =
        ⟨.closed, .image u, some (((s.asked w .revert).beginRun r).ecu.images[u]).marker⟩ ∧
      (¬s.ecu.Saves u → ((s.asked w .revert).beginRun r).ecu.images[u] = s.ecu.images[u]) := by
  intro r
  have begins := Chip.beginRun_begins r (s.asked w .revert)
  have kept : ((s.asked w .revert).beginRun r).ecu.stack = s.ecu.stack := by
    rw [begins.ecu]
    rfl
  have entries : ((s.asked w .revert).beginRun r).revertEntries r = segEntries segs := by
    show (((s.asked w .revert).beginRun r).ecu.stack.drop below.length).take segs.length = _
    rw [kept, stack, List.append_assoc, List.drop_left, List.take_append_of_le_length (by simp [segEntries])]
    exact List.take_of_length_le (by simp [segEntries])
  have image : imageFor (r.segmentAt q) (segEntries segs) = some u := by
    rw [imageFor_segEntries]
    show (segs.find? fun x => x.1 == first + q).map Prod.snd = some u
    rw [found]
    rfl
  refine ⟨?_, begins.images u⟩
  show (match imageFor (r.segmentAt q) (((s.asked w .revert).beginRun r).revertEntries r) with
    | some u => (⟨.closed, .image u, some (((s.asked w .revert).beginRun r).ecu.images[u]).marker⟩ : WriteSide)
    | none => ⟨.idle, .live, some 0⟩) = _
  rw [entries, image]

end

/-! ## What follows the start of a REVERT run: gaps below its first image are passed (R168) -/

section

variable {p b : Chip} {r : RunRecord}

theorem Chip.Rests.undue (h : p.Rests b) : p.Undue b :=
  ⟨by rw [h.rc], fun r run => ⟨r.windowBase, by rw [h.rc]; exact run⟩, h.cpm,
    fun i _ => Chip.slot_of_slots h.slots i, fun l member _ => by rw [h.ecu]; exact member, fun _ _ => h.offers _⟩

theorem Chip.EndsHead.undue (h : p.EndsHead b) : p.Undue b := by
  obtain ⟨slots, -, -, rc, ecu⟩ := h.tape
  exact ⟨by rw [rc], fun r run => ⟨r.windowBase, by rw [rc]; exact run⟩, h.cpm,
    fun i _ => Chip.slot_of_slots slots i, fun l member _ => by rw [ecu]; exact member, fun _ _ => h.offers _⟩

/-- What follows an event that neither settles nor completes the run. -/
theorem Chip.finish_undue (rc : p.rc = ⟨.active, some r⟩) (unsettling : p.Unsettling)
    (open_ : ∀ base, RunRecord.complete { r with windowBase := base } = false) :
    p.Undue p.finish ∧ p.finish.ecu.stack = p.ecu.stack := by
  have moved := (Chip.progress_passes unsettling).toUndue
  have ensues := Chip.progress_ensues (.refl p)
  obtain ⟨base, run⟩ := moved.run r (congrArg Rc.run rc)
  have active : p.progress.rc = ⟨.active, some { r with windowBase := base }⟩ := by
    show Rc.mk p.progress.rc.state p.progress.rc.run = _
    rw [run, moved.state, rc]
  have rests : p.progress.Rests p.finish := by
    unfold Chip.finish
    rw [Chip.checkEnd_goesOn active (open_ base)]
    exact Chip.offerFetch_rests _
  refine ⟨moved.trans rests.undue, ?_⟩
  rw [rests.ecu, ensues.ecu]

end

/-- Settles O26: a partial run is refused, one without SEG entries popped; another starts as `Chip.Starts` says, and its
images' slots are busy, so that what follows leaves them alone. -/
theorem revertStarts : Obligations.RevertStarts := by
  unfold Obligations.RevertStarts
  intro s w below segs tag first partialMark asks idle link stack bounds highest
  have checked := State.startRevert_top (w := w) idle link stack bounds
  refine ⟨fun isPartial => ?_, fun whole none => ?_, fun whole some_ => ?_⟩
  · rw [if_pos isPartial] at checked
    exact State.grantRequest_answers asks Chip.startRevert checked
  · rw [if_neg (by rw [whole]; decide), if_pos (by rw [none]; rfl)] at checked
    refine ⟨_, State.grantRequest_taken asks Chip.startRevert, ?_⟩
    rw [checked]
    obtain ⟨pops, left⟩ := Chip.popEntry_pops (p := s.asked w .revert) (e := .run tag first segs.length partialMark)
      (below := below) (by rw [none] at stack; rw [none, State.asked_ecu]; simpa using stack)
    have cpm := pops.work.cpm
    obtain ⟨answers, -⟩ := State.report_answers (s := s) (w := w) (p := (s.asked w .revert).popEntry)
      (k := some .revert) (by rw [cpm]; rfl) (by rw [cpm]; exact Nat.le_succ _) .done 0
    have records := Chip.report_records .done 0 (s.asked w .revert).popEntry
    have ends := Chip.endHead_ends w ((s.asked w .revert).popEntry.report .done 0)
    obtain ⟨slots, -, -, rc, ecu⟩ := records.tape
    obtain ⟨slots', -, -, rc', ecu'⟩ := ends.tape
    refine ⟨?_, answers, ?_, ?_, ?_⟩
    · exact (congrArg Ecu.stack (ecu'.trans ecu)).trans left
    · refine (rc'.trans rc).trans ?_
      rw [pops.work.rest]
      rfl
    · refine (slots'.trans slots).trans ?_
      rw [pops.work.rest]
      rfl
    · refine (ends.dlc.trans records.dlc).trans ?_
      rw [pops.work.rest]
      rfl
  · have count : segs.length ≠ 0 := fun zero => some_ (List.length_eq_zero_iff.mp zero)
    rw [if_neg (by rw [whole]; decide), if_neg count, Chip.startRun_eq] at checked
    have started := Chip.claimRun_starts (p := s.asked w .revert) (r := revertRun
      ⟨tag, first, segs.length, partialMark, below.length, segs.map Prod.fst⟩ w.tag s.cpm.signal.rate)
      (fun back => nomatch (show false = true from back)) rfl
    have sides := State.revertSide (w := w) (mark := partialMark) stack
    generalize (s.asked w .revert).claimRun _ = e at checked started
    have results := (Chip.finish_serves (.refl e)).results
    obtain ⟨followed, kept⟩ := Chip.finish_undue started.rc
      (fun x run => .inl (by rw [started.rc] at run; cases run; rfl))
      (fun _ => show (0 == segs.length) = false from beq_eq_false_iff_ne.mpr count.symm)
    have ends := Chip.endHead_ends w e.finish
    have undue := followed.trans ends.undue
    obtain ⟨base, run⟩ := undue.run _ (congrArg Rc.run started.rc)
    refine ⟨_, base, State.grantRequest_taken asks Chip.startRevert, ?_⟩
    rw [checked]
    refine ⟨?_, fun q u lt found => ?_, ?_, ?_, ?_, ?_, fun k => ?_⟩
    · show Rc.mk (e.finish.endHead w).rc.state (e.finish.endHead w).rc.run = _
      rw [run, undue.state, started.rc]
      rfl
    · obtain ⟨side, images⟩ := sides q u found
      have claimed := started.claimed q lt
      have busy : (e.slot (slotOf (first + q))).Busy := by
        rw [show e.slot (slotOf (first + q)) = _ from claimed, side]
        exact ⟨rfl, nofun⟩
      obtain ⟨⟨l, member, place, isLoad⟩, offered⟩ := started.loads q u lt (by rw [side])
      intro i x
      dsimp only [x, i]
      rw [undue.busy _ busy, show e.slot (slotOf (first + q)) = _ from claimed, side]
      refine ⟨rfl, rfl, rfl, rfl, rfl, fun queued saving => ?_,
        ⟨l, undue.loads l member (by rw [place]; exact busy), place, isLoad⟩, undue.offers _ busy offered⟩
      rw [← images fun saved => ?_]
      · rfl
      · obtain ⟨v, member, same⟩ | ⟨j, running, same⟩ := saved
        · exact queued v member same
        · exact saving j running same
    · obtain ⟨told, id, later, offered⟩ := started.told _ rfl
      have request := congrArg Cpm.request undue.cpm
      exact ⟨_, id, request.trans told, rfl, rfl, rfl, (Nat.le_succ _).trans later,
        ends.offers _ (results _ rfl offered)⟩
    · refine (congrArg Ecu.stack ends.tape.2.2.2.2).trans (kept.trans ?_)
      rw [started.ecu]
      rfl
    · rw [undue.cpm, started.cpm]
    · rw [undue.cpm, started.cpm]
    · unfold Chip.counter
      rw [undue.cpm, started.cpm]
      rfl

end Sys2Proof.Machine


/-! PROOFS. MISSING: the flagged rows handed again (R92). -/

namespace Sys2Proof.Machine

-- One proof after another: the threads of many at once take more memory than the check allows.
set_option Elab.async false

/-- The frame a retained row is handed in. -/
def Retained.frame (e : Retained) : LaneFrame := .row e.seq e.segment e.row (e.words.getD [])

/-- A live row that does not wait is handed again. -/
def Chip.handsAgain (p : Chip) (e : Retained) : Bool := e.words.isSome && !p.rowWaits e.seq

/-- Rows handed again, one resend counted for each. -/
structure Chip.Resends (again : List Retained) (a b : Chip) : Prop where
  rest : b = { a with
    dlc := { a.dlc with lane := b.dlc.lane }, cpm := { a.cpm with counters := b.cpm.counters } }
  lane : b.dlc.lane.map LaneEntry.frame = a.dlc.lane.map LaneEntry.frame ++ again.map Retained.frame
  counted : a.Counted b .resends again.length

section

variable {a b d : Chip}

theorem Chip.Resends.none (bounded : a.counter .resends ≤ Config.counterMax) : a.Resends [] a :=
  ⟨rfl, (List.append_nil _).symm, (Nat.min_eq_right bounded).symm, fun _ _ => rfl⟩

theorem Chip.Resends.append {l k : List Retained} (h : a.Resends l b) (j : b.Resends k d) : a.Resends (l ++ k) d where
  rest := by
    have rest := j.rest
    rw [h.rest] at rest
    exact rest
  lane := by rw [j.lane, h.lane, List.map_append, List.append_assoc]
  counted := by
    obtain ⟨count, others⟩ := h.counted
    obtain ⟨count', others'⟩ := j.counted
    refine ⟨?_, fun c other => (others' c other).trans (others c other)⟩
    rw [count', count, List.length_append]
    omega

theorem Chip.resend_waits {p : Chip} {e : Retained} (waits : p.handsAgain e = false) : p.resend e = p := by
  unfold Chip.handsAgain at waits
  unfold Chip.resend
  split
  · rfl
  · rename_i ws words
    rw [words, Option.isSome_some, Bool.true_and, Bool.not_eq_false'] at waits
    exact if_pos waits

theorem Chip.resend_again {p : Chip} {e : Retained} (again : p.handsAgain e = true) :
    p.resend e = (p.hand e.frame).bump .resends 1 := by
  unfold Chip.handsAgain at again
  unfold Chip.resend Retained.frame
  split
  · rename_i words
    rw [words] at again
    cases again
  · rename_i ws words
    rw [words, Option.isSome_some, Bool.true_and, Bool.not_eq_true'] at again
    rw [if_neg (by rw [again]; decide), words]
    rfl

theorem Chip.resend_resends (e : Retained) {p : Chip} (bounded : p.counter .resends ≤ Config.counterMax) :
    p.Resends (if p.handsAgain e then [e] else []) (p.resend e) := by
  split
  · rename_i again
    rw [Chip.resend_again again]
    refine ⟨rfl, ?_, Chip.Counted.bump .resends 1 (p.hand e.frame)⟩
    show (p.dlc.lane ++ [LaneEntry.mk e.frame p.event]).map LaneEntry.frame = _
    rw [List.map_append]
    rfl
  · rename_i waits
    rw [Chip.resend_waits (Bool.eq_false_iff.mpr waits)]
    exact .none bounded

/-- A row handed again is none of another seq. -/
theorem Chip.resend_handsAgain {e x : Retained} (other : x.seq ≠ e.seq) (p : Chip) :
    (p.resend e).handsAgain x = p.handsAgain x := by
  cases again : p.handsAgain e with
  | false => rw [Chip.resend_waits again]
  | true =>
    rw [Chip.resend_again again]
    have apart : e.frame.isRow x.seq = false := beq_eq_false_iff_ne.mpr fun same => other same.symm
    show (x.words.isSome && !((p.dlc.lane ++ [LaneEntry.mk e.frame p.event]).any fun y => y.frame.isRow x.seq)) = _
    rw [List.any_append, List.any_cons, List.any_nil, apart, Bool.or_false, Bool.or_false]
    rfl

/-- Rows of seqs of their own handed again, one after another. -/
theorem Chip.foldl_resend (l : List Retained) (apart : (l.map Retained.seq).Nodup) {p : Chip}
    (bounded : p.counter .resends ≤ Config.counterMax) : p.Resends (l.filter p.handsAgain) (l.foldl Chip.resend p) := by
  induction l generalizing p with
  | nil => exact .none bounded
  | cons e l ih =>
    obtain ⟨fresh, rest⟩ := List.nodup_cons.mp apart
    have first := Chip.resend_resends e bounded
    have later := ih rest (p := p.resend e) (by rw [first.counted.1]; exact Nat.min_le_left _ _)
    have same : l.filter (p.resend e).handsAgain = l.filter p.handsAgain := List.filter_congr fun x member =>
      Chip.resend_handsAgain (fun seq => fresh (seq ▸ List.mem_map_of_mem member)) p
    rw [same] at later
    have both := first.append later
    rw [List.foldl_cons, List.filter_cons]
    split at both
    · rename_i again
      rw [if_pos again]
      exact both
    · rename_i waits
      rw [if_neg waits]
      exact both

end

/-- MISSING received in UP (R92). -/
theorem exec_missingReceived {s : State} {bytes : List Byte} {flags : BitVec 8}
    (received : receive bytes = .frame (.missing flags)) (up : s.dlc.linkState = .up) :
    exec (.missingReceived bytes) s = .next (s.onChip fun p => (p.begin.takeMissing flags).noteStatus) := by
  show execMissingReceived bytes s = _
  unfold execMissingReceived
  rw [received]
  exact if_pos up

/-- What a MISSING leaves (R92). -/
theorem Chip.takeMissing_resends (flags : BitVec 8) {p : Chip} (bounded : CountersBounded p)
    (apart : (p.dlc.retention.map Retained.seq).Nodup) :
    p.Resends (p.dlc.retention.filter fun e =>
      flags.getLsbD e.seq.toNat && e.words.isSome && !(p.dlc.lane.any fun x => x.frame.isRow e.seq))
      (p.takeMissing flags) := by
  have resent := Chip.foldl_resend (p.dlc.retention.filter fun e => flags.getLsbD e.seq.toNat)
    (apart.sublist (List.filter_sublist.map _)) (bounded.1 _)
  rw [List.filter_filter] at resent
  have same : (fun e : Retained => flags.getLsbD e.seq.toNat && e.words.isSome &&
      !(p.dlc.lane.any fun x => x.frame.isRow e.seq)) = fun e => p.handsAgain e && flags.getLsbD e.seq.toNat :=
    funext fun e => (Bool.and_assoc _ _ _).trans (Bool.and_comm _ _)
  rw [same]
  exact resent

end Sys2Proof.Machine


/-! PROOFS. GRANT: credits added, rows acknowledged, their slots told (R58, R91). -/

namespace Sys2Proof.Machine

-- One proof after another: the threads of many at once take more memory than the check allows.
set_option Elab.async false

/-! ## A write side DONE (R58) -/

section

variable {p : Chip} {i : Fin 128}

/-- A run record with one more write side DONE, settled in an EDIT or REVERT run (R151, R171). -/
def RunRecord.oneDone (r : RunRecord) : RunRecord :=
  { r with
    doneCount := r.doneCount + 1
    settledCount := if r.kind = .edit ∨ r.kind = .revert then r.settledCount + 1 else r.settledCount }

/-- The part with slot i DONE, its release not yet tested. -/
def Chip.sideDone (i : Fin 128) (p : Chip) : Chip :=
  (p.modSlot i fun s => { s with write := .done }).modRun RunRecord.oneDone

theorem Chip.sideDone_slots (i : Fin 128) (p : Chip) :
    (p.sideDone i).slots = (p.modSlot i fun s => { s with write := .done }).slots := rfl

theorem Chip.modRun_oneDone (p : Chip) :
    (match (p.modRun fun r => { r with doneCount := r.doneCount + 1 }).runKind with
      | some .edit => (p.modRun fun r => { r with doneCount := r.doneCount + 1 }).settle
      | some .revert => (p.modRun fun r => { r with doneCount := r.doneCount + 1 }).settle
      | _ => p.modRun fun r => { r with doneCount := r.doneCount + 1 }) = p.modRun RunRecord.oneDone := by
  cases run : p.rc.run with
  | none =>
    unfold Chip.runKind Chip.modRun
    dsimp only
    rw [run]
    rfl
  | some r =>
    unfold Chip.runKind Chip.settle Chip.modRun RunRecord.oneDone
    dsimp only
    rw [run]
    cases kind : r.kind with
    | play => simp [kind]
    | record => simp [kind]
    | edit => simp [kind]
    | revert => simp [kind]

theorem Chip.writeDone_eq (i : Fin 128) (p : Chip) : p.writeDone i = (p.sideDone i).releaseTest i :=
  congrArg (Chip.releaseTest i) (Chip.modRun_oneDone _)

/-- The row e of its slot noted as acknowledged. -/
def Chip.noteAcked (e : Retained) (p : Chip) : Chip :=
  p.modSlot e.slot fun s => { s with rowsAcked := (p.slot e.slot).rowsAcked ||| BitVec.ofNat 30 (2 ^ e.row) }

/-- The slot of a row still sends it (R58). -/
def Slot.Awaits (x : Slot) (e : Retained) : Prop :=
  x.holds e.segment = true ∧ x.serial = e.serial ∧ x.write = .sending

theorem Chip.rowAcked_stale {e : Retained} (stale : ¬(p.slot e.slot).Awaits e) : p.rowAcked e = p := if_neg stale

theorem Chip.rowAcked_some {e : Retained} (awaits : (p.slot e.slot).Awaits e)
    (more : (p.slot e.slot).rowsAcked ||| BitVec.ofNat 30 (2 ^ e.row) ≠ BitVec.allOnes 30) :
    p.rowAcked e = p.noteAcked e := (if_pos awaits).trans (if_neg more)

theorem Chip.rowAcked_last {e : Retained} (awaits : (p.slot e.slot).Awaits e)
    (last : (p.slot e.slot).rowsAcked ||| BitVec.ofNat 30 (2 ^ e.row) = BitVec.allOnes 30) :
    p.rowAcked e = (p.noteAcked e).writeDone e.slot := (if_pos awaits).trans (if_pos last)

/-! ## The link after an advance (R91) -/

theorem Chip.writeDone_moves (i : Fin 128) (p : Chip) : p.dlc.Moves (p.writeDone i).dlc := by
  rw [Chip.writeDone_eq]
  exact (Chip.releaseTest_ensues i (.refl (p.sideDone i))).link

theorem Chip.rowAcked_moves (e : Retained) (p : Chip) : p.dlc.Moves (p.rowAcked e).dlc := by
  by_cases awaits : (p.slot e.slot).Awaits e
  · by_cases last : (p.slot e.slot).rowsAcked ||| BitVec.ofNat 30 (2 ^ e.row) = BitVec.allOnes 30
    · rw [Chip.rowAcked_last awaits last]
      exact Chip.writeDone_moves e.slot (p.noteAcked e)
    · rw [Chip.rowAcked_some awaits last]
      exact .refl _
  · rw [Chip.rowAcked_stale awaits]
    exact .refl _

/-- The acknowledgement of a retained entry reported, if it is live (R91). -/
def Chip.reportAck (p : Chip) (e : Retained) : Chip := if e.words.isSome then p.rowAcked e else p

/-- The n oldest entries off the queue and off the lane, their acknowledgement not yet reported (R91). -/
def Chip.freed (n : Nat) (p : Chip) : Chip :=
  { p with dlc := { p.dlc with
    retention := p.dlc.retention.drop n
    retryCount := 0
    ackTimer := if (p.dlc.retention.drop n).isEmpty then none else some p.cpm.link.ackTimeout
    lane := p.dlc.lane.filter fun x => (p.dlc.retention.take n).all fun e => !x.frame.isRow e.seq } }

theorem Chip.foldl_unhandRow (l : List Retained) (p : Chip) : l.foldl (fun p e => p.unhandRow e.seq) p =
    { p with dlc := { p.dlc with lane := p.dlc.lane.filter fun x => l.all fun e => !x.frame.isRow e.seq } } := by
  induction l generalizing p with
  | nil =>
    rw [List.foldl_nil]
    simp only [List.all_nil, List.filter_true]
  | cons e l ih =>
    rw [List.foldl_cons, ih]
    unfold Chip.unhandRow
    dsimp only
    rw [List.filter_filter]
    simp only [List.all_cons, Bool.and_comm]

theorem Chip.acknowledge_eq (n : Nat) (p : Chip) :
    p.acknowledge n = (p.dlc.retention.take n).foldl Chip.reportAck (p.freed n) := by
  unfold Chip.acknowledge
  dsimp only
  rw [Chip.foldl_unhandRow]
  rfl

theorem Chip.acknowledge_moves (n : Nat) (p : Chip) : (p.freed n).dlc.Moves (p.acknowledge n).dlc := by
  rw [Chip.acknowledge_eq]
  refine List.foldlRecOn (motive := fun q : Chip => (p.freed n).dlc.Moves q.dlc) _ _ (.refl _) fun q moves e _ => ?_
  unfold Chip.reportAck
  split
  · exact moves.trans (Chip.rowAcked_moves e q)
  · exact moves

/-! ## The slots after an advance (R58) -/

theorem Chip.releaseTest_slot (i : Fin 128) (p : Chip) : (p.releaseTest i).slot i = p.slot i ∨
    (((p.releaseTest i).slot i).claimed = false ∧ ((p.releaseTest i).slot i).serial = (p.slot i).serial) := by
  unfold Chip.releaseTest
  split
  · rw [Chip.release_slot, Chip.releaseSlot_slot]
    exact .inr ⟨rfl, rfl⟩
  · exact .inl rfl

theorem Chip.releaseTest_other {j : Fin 128} (other : j ≠ i) (p : Chip) : (p.releaseTest i).slot j = p.slot j := by
  unfold Chip.releaseTest
  split
  · exact Chip.releaseSlot_other other p
  · rfl

/-- The record of a slot with row e noted, DONE or not. -/
def Slot.notedAs (x : Slot) (e : Retained) (write : WriteState) : Slot :=
  { x with rowsAcked := x.rowsAcked ||| BitVec.ofNat 30 (2 ^ e.row), write := write }

/-- What the report of an acknowledgement makes of the row's slot. -/
inductive Slot.Noted (e : Retained) (x y : Slot) : Prop
  | stale (h : ¬x.Awaits e) (same : y = x)
  | sending (h : x.Awaits e) (noted : y = x.notedAs e .sending)
  | done (h : x.Awaits e) (last : (x.notedAs e .done).rowsAcked = BitVec.allOnes 30) (noted : y = x.notedAs e .done)
  | released (h : x.Awaits e) (free : y.claimed = false) (serial : y.serial = x.serial)

theorem Chip.rowAcked_slot (e : Retained) (p : Chip) : (p.slot e.slot).Noted e ((p.rowAcked e).slot e.slot) := by
  by_cases awaits : (p.slot e.slot).Awaits e
  · by_cases last : (p.slot e.slot).rowsAcked ||| BitVec.ofNat 30 (2 ^ e.row) = BitVec.allOnes 30
    · rw [Chip.rowAcked_last awaits last, Chip.writeDone_eq]
      have done : ((p.noteAcked e).sideDone e.slot).slot e.slot = (p.slot e.slot).notedAs e .done := by
        rw [Chip.slot_of_slots (Chip.sideDone_slots _ _), Chip.slot_modSlot_same]
        unfold Chip.noteAcked
        rw [Chip.slot_modSlot_same]
        rfl
      obtain same | ⟨free, serial⟩ := Chip.releaseTest_slot e.slot ((p.noteAcked e).sideDone e.slot)
      · exact .done awaits last (same.trans done)
      · rw [done] at serial
        exact .released awaits free serial
    · rw [Chip.rowAcked_some awaits last]
      refine .sending awaits ?_
      unfold Chip.noteAcked
      rw [Chip.slot_modSlot_same]
      unfold Slot.notedAs
      rw [← awaits.2.2]
  · rw [Chip.rowAcked_stale awaits]
    exact .stale awaits rfl

theorem Chip.rowAcked_other {e : Retained} {j : Fin 128} (other : j ≠ e.slot) (p : Chip) :
    (p.rowAcked e).slot j = p.slot j := by
  have noted : (p.noteAcked e).slot j = p.slot j := Chip.slot_modSlot_other _ p other
  by_cases awaits : (p.slot e.slot).Awaits e
  · by_cases last : (p.slot e.slot).rowsAcked ||| BitVec.ofNat 30 (2 ^ e.row) = BitVec.allOnes 30
    · rw [Chip.rowAcked_last awaits last, Chip.writeDone_eq, Chip.releaseTest_other other]
      rw [Chip.slot_of_slots (Chip.sideDone_slots _ _), Chip.slot_modSlot_other _ _ other]
      exact noted
    · rw [Chip.rowAcked_some awaits last]
      exact noted
  · rw [Chip.rowAcked_stale awaits]

end

/-- The acknowledgement of row e stands in its slot, or the slot has been released since. -/
def Slot.HasAck (x : Slot) (e : Retained) : Prop :=
  (x.Busy ∧ x.rowsAcked.getLsbD e.row = true ∧ e.serial ≤ x.serial) ∨ (x.claimed = false ∧ e.serial ≤ x.serial)

section

variable {e f : Retained} {x y : Slot}

theorem Slot.Awaits.busy (h : x.Awaits e) : x.Busy := by
  obtain ⟨held, -, sending⟩ := h
  exact ⟨(Bool.and_eq_true_iff.mp held).1, by rw [sending]; decide⟩

theorem Slot.notedAs_bit (x : Slot) (f : Retained) (write : WriteState) (k : Nat) :
    (x.notedAs f write).rowsAcked.getLsbD k = (x.rowsAcked.getLsbD k || (BitVec.ofNat 30 (2 ^ f.row)).getLsbD k) :=
  BitVec.getLsbD_or

/-- What stands or is gone stays so whatever else is acknowledged. -/
theorem Slot.HasAck.noted (h : x.HasAck e) (noted : x.Noted f y) : y.HasAck e := by
  have kept (awaits : x.Awaits f) (write : WriteState) (atWork : write ≠ .idle) : (x.notedAs f write).HasAck e := by
    obtain ⟨busy, bit, later⟩ | ⟨free, -⟩ := h
    · exact .inl ⟨⟨busy.1, atWork⟩, by rw [Slot.notedAs_bit, bit, Bool.true_or], later⟩
    · rw [awaits.busy.1] at free
      cases free
  cases noted with
  | stale _ same => exact same ▸ h
  | sending awaits noted => exact noted ▸ kept awaits _ nofun
  | done awaits _ noted => exact noted ▸ kept awaits _ nofun
  | released _ free serial => exact .inr ⟨free, serial ▸ h.elim (·.2.2) (·.2)⟩

/-- Another row of the slot leaves row e awaited, or was its last. -/
theorem Slot.Awaits.noted (row : e.row < 30) (h : x.Awaits e) (noted : x.Noted f y) : y.Awaits e ∨ y.HasAck e := by
  obtain ⟨held, serial, -⟩ := id h
  cases noted with
  | stale _ same => exact .inl (same ▸ h)
  | sending _ noted => exact .inl (noted ▸ ⟨held, serial, rfl⟩)
  | done _ last noted =>
    refine .inr (noted ▸ .inl ⟨⟨h.busy.1, nofun⟩, ?_, serial.ge⟩)
    rw [last, BitVec.getLsbD_allOnes]
    exact decide_eq_true row
  | released _ free same => exact .inr (.inr ⟨free, (same.trans serial).ge⟩)

/-- Row e itself acknowledged. -/
theorem Slot.Noted.hasAck (row : e.row < 30) (noted : x.Noted e y) (h : x.Awaits e ∨ x.HasAck e) : y.HasAck e := by
  by_cases awaits : x.Awaits e
  · obtain ⟨held, serial, -⟩ := id awaits
    have bit : (BitVec.ofNat 30 (2 ^ e.row)).getLsbD e.row = true := by
      rw [BitVec.getLsbD_ofNat, Nat.testBit_two_pow_self, decide_eq_true row]
      rfl
    have kept (write : WriteState) (atWork : write ≠ .idle) : (x.notedAs e write).HasAck e :=
      .inl ⟨⟨awaits.busy.1, atWork⟩, by rw [Slot.notedAs_bit, bit, Bool.or_true], serial.ge⟩
    cases noted with
    | stale not_ _ => exact absurd awaits not_
    | sending _ noted => exact noted ▸ kept _ nofun
    | done _ _ noted => exact noted ▸ kept _ nofun
    | released _ free same => exact .inr ⟨free, (same.trans serial).ge⟩
  · exact (h.resolve_left awaits).noted noted

theorem Chip.reportAck_slot (f : Retained) (i : Fin 128) (p : Chip) : (p.reportAck f).slot i = p.slot i ∨
    (f.words.isSome = true ∧ i = f.slot ∧ (p.slot i).Noted f ((p.reportAck f).slot i)) := by
  unfold Chip.reportAck
  split
  · rename_i live
    by_cases here : i = f.slot
    · subst here
      exact .inr ⟨live, rfl, Chip.rowAcked_slot f p⟩
    · exact .inl (Chip.rowAcked_other here p)
  · exact .inl rfl

/-- The live rows of a list acknowledged: each stands in its slot or the slot is released. -/
theorem Chip.foldl_reportAck (row : e.row < 30) (live : e.words.isSome = true) (l : List Retained) {p : Chip} :
    ((p.slot e.slot).HasAck e → ((l.foldl Chip.reportAck p).slot e.slot).HasAck e) ∧
      ((p.slot e.slot).Awaits e → e ∈ l → ((l.foldl Chip.reportAck p).slot e.slot).HasAck e) := by
  induction l generalizing p with
  | nil => exact ⟨id, nofun⟩
  | cons f l ih =>
    obtain ⟨standing, awaited⟩ := ih (p := p.reportAck f)
    have kept (h : (p.slot e.slot).HasAck e) : ((p.reportAck f).slot e.slot).HasAck e := by
      obtain same | ⟨-, -, noted⟩ := Chip.reportAck_slot f e.slot p
      · exact same ▸ h
      · exact h.noted noted
    refine ⟨fun h => standing (kept h), fun h member => ?_⟩
    obtain rfl | later := List.mem_cons.mp member
    · have own : (p.reportAck e).slot e.slot = (p.rowAcked e).slot e.slot := by
        unfold Chip.reportAck
        rw [if_pos live]
      exact standing (own ▸ (Chip.rowAcked_slot e p).hasAck row (.inl h))
    · obtain same | ⟨-, -, noted⟩ := Chip.reportAck_slot f e.slot p
      · exact awaited (same ▸ h) later
      · exact (h.noted row noted).elim (awaited · later) standing

end

/-! ## What follows, a map pending or not (R27, R120) -/

section

variable {p : Chip}

theorem Chip.applyHeld_some {α : Type} (m : α) (apply : α → Chip → Chip) (p : Chip) :
    p.applyHeld (some m) apply = apply m p := rfl

theorem Chip.applyPending_slots (p : Chip) :
    p.applyPending.slots = p.slots ∨ ∀ i, (p.applyPending.slot i).claimed = false := by
  have values {α β γ : Type} (x : Option α) (y : Option β) (z : Option γ) (f : α → Cpm → Cpm) (g : β → Cpm → Cpm)
      (k : γ → Cpm → Cpm) (q : Chip) :
      (((q.applyHeld x fun m p => { p with cpm := f m p.cpm }).applyHeld y fun m p =>
        { p with cpm := g m p.cpm }).applyHeld z fun m p => { p with cpm := k m p.cpm }).slots = q.slots := by
    unfold Chip.applyHeld
    split <;> split <;> split <;> rfl
  have slots : p.applyPending.slots = (p.clearPending.applyHeld p.cpm.pendingMap Chip.applyMap).slots :=
    values p.cpm.pendingSignal p.cpm.pendingLink p.cpm.pendingEdit (fun m c => { c with signal := m })
      (fun m c => { c with link := m }) (fun m c => { c with edit := m }) _
  cases map : p.cpm.pendingMap with
  | none =>
    rw [map] at slots
    exact .inl slots
  | some m =>
    rw [map, Chip.applyHeld_some] at slots
    refine .inr fun i => ?_
    rw [Chip.slot_of_slots slots]
    obtain ⟨free, -⟩ := Chip.applyMap_dropped m p.clearPending
    exact (free i).1

theorem Chip.enterIdle_slots (cause : EndCause) (p : Chip) :
    (p.enterIdle cause).slots = p.slots ∨ ∀ i, ((p.enterIdle cause).slot i).claimed = false := by
  cases run : p.rc.run with
  | none =>
    unfold Chip.enterIdle
    rw [run]
    exact .inl rfl
  | some r =>
    have eq : p.enterIdle cause = ((((p.idled r cause).endEcu r cause).raise
        (.runEnd r.tag cause r.kind (r.pops cause))).noteStatus.applyPending).answerStop cause r.omitCount := by
      unfold Chip.enterIdle
      rw [run]
      rfl
    have slots : (((p.idled r cause).endEcu r cause).raise
        (.runEnd r.tag cause r.kind (r.pops cause))).noteStatus.slots = p.slots :=
      (Chip.noteStatus_reports _).slots.trans ((Chip.raise_reports _ _).slots.trans (Chip.endEcu_work r cause _).slots)
    rw [eq]
    generalize (((p.idled r cause).endEcu r cause).raise
      (.runEnd r.tag cause r.kind (r.pops cause))).noteStatus = q at slots
    have told := Chip.answerStop_told cause r.omitCount q.applyPending
    obtain same | free := Chip.applyPending_slots q
    · exact .inl (told.records.tape.1.trans (same.trans slots))
    · exact .inr fun i => (congrArg Slot.claimed (Chip.slot_of_slots told.records.tape.1 i)).trans (free i)

theorem Chip.checkEnd_slots (p : Chip) :
    p.checkEnd.slots = p.slots ∨ ∀ i, (p.checkEnd.slot i).claimed = false := by
  unfold Chip.checkEnd
  split
  · exact .inl rfl
  · split
    · exact .inl rfl
    · split
      · exact Chip.enterIdle_slots _ p
      · exact .inl rfl
    · split
      · exact Chip.enterIdle_slots _ p
      · exact .inl rfl

theorem Chip.finish_hasAck {e : Retained} (h : (p.slot e.slot).HasAck e) :
    (p.finish.slot e.slot).rowsAcked.getLsbD e.row = true ∨ (p.finish.slot e.slot).claimed = false ∨
      e.serial < (p.finish.slot e.slot).serial := by
  obtain ⟨busy, bit, -⟩ | ⟨free, later⟩ := h
  · have moved := p.progress_worksOnIdle.slots e.slot fun notBusy => notBusy busy
    have rests := Chip.offerFetch_rests p.progress.checkEnd
    unfold Chip.finish
    rw [Chip.slot_of_slots rests.slots]
    obtain same | free := p.progress.checkEnd_slots
    · rw [Chip.slot_of_slots same, moved]
      exact .inl bit
    · exact .inr (.inl (free _))
  · obtain ⟨-, anew | gone | ⟨same, -⟩⟩ := (Chip.finish_serves (.refl p)).slots e.slot
    · exact .inr (.inr (Nat.lt_of_le_of_lt later anew))
    · exact .inr (.inl gone)
    · exact .inr (.inl (same.trans free))

end

end Sys2Proof.Machine


/-! PROOFS. How an event concludes, no map pending (R120): the run goes on, or ends. -/

namespace Sys2Proof.Machine

-- One proof after another: the threads of many at once take more memory than the check allows.
set_option Elab.async false

/-- What an event leads to once cursor moves and claims are made: the run goes on, or has ended. -/
inductive Chip.Concludes (r : RunRecord) (c t : Chip) : Prop
  | goesOn (rests : c.Rests t) (open_ : c.rc.state = .active → r.complete = false)
  | ends (cause : EndCause) (e : Chip) (ended : c.RunEnded r cause e) (rests : e.Rests t) (running : c.rc.state ≠ .idle)
      (complete : c.rc.state = .active → r.complete = true ∧ cause = .complete)

section

variable {c p t : Chip} {r : RunRecord}

theorem Chip.checkEnd_concludes (run : c.rc.run = some r) (noMap : c.cpm.pendingMap = none) :
    c.Concludes r c.checkEnd.offerFetch.noteStatus := by
  have rests := Chip.offerFetch_rests c.checkEnd
  generalize c.checkEnd.offerFetch.noteStatus = t at rests
  unfold Chip.checkEnd at rests
  rw [run] at rests
  dsimp only at rests
  split at rests
  · rename_i idle
    exact .goesOn rests fun active => by rw [idle] at active; cases active
  · split at rests
    · rename_i active complete
      exact .ends _ _ (Chip.enterIdle_ends run noMap) rests (by rw [active]; decide) fun _ => ⟨complete, rfl⟩
    · rename_i incomplete
      exact .goesOn rests fun _ => Bool.eq_false_iff.mpr incomplete
  · rename_i draining
    have inactive : c.rc.state = .active → False := fun active => by rw [draining] at active; cases active
    split at rests
    · exact .ends _ _ (Chip.enterIdle_ends run noMap) rests (by rw [draining]; decide) fun active =>
        (inactive active).elim
    · exact .goesOn rests fun active => (inactive active).elim

theorem Chip.finish_concludes (run : p.progress.rc.run = some r) (noMap : p.cpm.pendingMap = none) :
    p.progress.Concludes r p.finish :=
  Chip.checkEnd_concludes run (p.progress_worksOnIdle.pendingMap.trans noMap)

namespace Chip.Concludes

/-- The run record stays but for what its end notes. -/
theorem record (h : c.Concludes r t) (run : c.rc.run = some r) :
    ∃ r', t.rc.run = some r' ∧ r'.doneCount = r.doneCount ∧ r'.settledCount = r.settledCount ∧
      (t.rc.state = .idle → c.rc.state = .active → r'.endCause = .complete) := by
  cases h with
  | goesOn rests open_ =>
    refine ⟨r, by rw [rests.rc]; exact run, rfl, rfl, fun idle active => ?_⟩
    rw [rests.rc, active] at idle
    cases idle
  | ends cause e ended rests running complete =>
    exact ⟨{ r with endCause := cause, drainTimer := none }, by rw [rests.rc, ended.rc], rfl, rfl,
      fun _ active => (complete active).2⟩

theorem idle (h : c.Concludes r t) (idle : c.rc.state = .idle) : t.rc.state = .idle := by
  cases h with
  | goesOn rests open_ => rw [rests.rc, idle]
  | ends cause e ended rests running complete => exact absurd idle running

theorem active (h : c.Concludes r t) (active : c.rc.state = .active) :
    t.rc.state = if r.complete then .idle else .active := by
  cases h with
  | goesOn rests open_ => rw [rests.rc, active, open_ active]; rfl
  | ends cause e ended rests running complete => rw [rests.rc, ended.rc, (complete active).1]; rfl

/-- An ACTIVE run that is IDLE after it has ended COMPLETE. -/
theorem ended (h : c.Concludes r t) (active : c.rc.state = .active) (idle : t.rc.state = .idle) :
    ∃ e, c.RunEnded r .complete e ∧ e.Rests t := by
  cases h with
  | goesOn rests open_ =>
    rw [rests.rc, active] at idle
    cases idle
  | ends cause e ended rests running complete =>
    obtain ⟨-, rfl⟩ := complete active
    exact ⟨e, ended, rests⟩

/-- An ACTIVE run that is still so. -/
theorem rests (h : c.Concludes r t) (still : t.rc.state = .active) : c.Rests t := by
  cases h with
  | goesOn rests open_ => exact rests
  | ends cause e ended rests running complete =>
    rw [rests.rc, ended.rc] at still
    cases still

end Chip.Concludes

/-! ## The pending mode values (R27) -/

/-- The pending mode values of a register file are in force in another. -/
theorem Chip.RunEnded.pendingApplied {cause : EndCause} {a e : Chip} (h : c.RunEnded r cause e) (rests : e.Rests t)
    (noMap : a.cpm.pendingMap = none) (same : Cpm.SameButCounters a.cpm c.cpm) : a.PendingApplied t := by
  have cpm := h.cpm.trans rests.cpm
  unfold Chip.PendingApplied
  rw [noMap, cpm, same]
  exact ⟨rfl, rfl, rfl, rfl, rfl, rfl, rfl, rfl⟩

/-! ## A REVERT run that pops the stack (R171) -/

theorem RunRecord.pops_revert {tag place n : Nat} (kind : r.kind = .revert) (params : r.params = .revert tag place n) :
    r.pops .complete = (r.doneCount == n) := by
  unfold RunRecord.pops RunRecord.revertCount
  rw [kind, params]
  rfl

theorem Chip.endEcu_revert {tag place n : Nat} (kind : r.kind = .revert) (params : r.params = .revert tag place n)
    (q : Chip) : q.endEcu r .complete =
      if r.doneCount = n then (List.replicate (n + 1) ()).foldl (fun p _ => p.popEntry) q else q := by
  unfold Chip.endEcu
  rw [kind]
  dsimp only
  rw [RunRecord.pops_revert kind params]
  unfold RunRecord.revertCount
  rw [params]
  simp only [beq_iff_eq]

/-- The run popped whole: its images are freed, its removal is mirrored. -/
theorem Chip.endEcu_pops {tag place n : Nat} (kind : r.kind = .revert) (params : r.params = .revert tag place n)
    (done : r.doneCount = n) {below : List StackEntry} {segs : List (Nat × Fin 256)} {tag' first count : Nat} {m : Bool}
    {q : Chip} (stack : q.ecu.stack = below ++ segEntries segs ++ [.run tag' first count m])
    (length : segs.length = n) :
    (q.endEcu r .complete).ecu.stack = below ∧ (∀ z ∈ segs, ((q.endEcu r .complete).ecu.images[z.2]).used = false) ∧
      q.RemovalMirrored (q.endEcu r .complete) (stackDepth below) n := by
  have size : (segEntries segs ++ [StackEntry.run tag' first count m]).length = n + 1 := by
    simp [segEntries, length]
  obtain ⟨pops, left⟩ := Chip.popEntries_pops (segEntries segs ++ [.run tag' first count m]) below
    (by rw [stack, List.append_assoc])
  rw [size] at pops left
  rw [Chip.endEcu_revert kind params, if_pos done]
  refine ⟨left, fun z member => ?_, ?_⟩
  · exact pops.frees.freed z.1 z.2 (List.mem_append_left _ (List.mem_map.mpr ⟨z, member, rfl⟩))
  · have removal := pops.removal (fun e member => by
      obtain ⟨z, -, same⟩ := List.mem_map.mp member
      exact ⟨z.1, z.2, same.symm⟩) left
    rw [show (segEntries segs).length = n by simp [segEntries, length]] at removal
    exact removal

/-! ## An EDIT run that pushes its RUN entry (R159, R166) -/

/-- The lowest segment of the SEG entries among l, if there is one. -/
theorem foldl_min_least (l : List Nat) (x : Nat) :
    (∀ y ∈ x :: l, l.foldl min x ≤ y) ∧ l.foldl min x ∈ x :: l := by
  induction l generalizing x with
  | nil => exact ⟨fun y member => (List.mem_singleton.mp member).ge, List.mem_cons_self⟩
  | cons z l ih =>
    obtain ⟨least, member⟩ := ih (min x z)
    have low := least (min x z) List.mem_cons_self
    rw [List.foldl_cons]
    refine ⟨fun y there => ?_, ?_⟩
    · rcases List.mem_cons.mp there with rfl | there
      · exact low.trans (Nat.min_le_left _ _)
      · rcases List.mem_cons.mp there with rfl | there
        · exact low.trans (Nat.min_le_right _ _)
        · exact least y (List.mem_cons_of_mem _ there)
    · rcases List.mem_cons.mp member with same | member
      · rw [same]
        rcases Nat.le_total x z with le | le
        · rw [Nat.min_eq_left le]
          exact List.mem_cons_self
        · rw [Nat.min_eq_right le]
          exact List.mem_cons_of_mem _ List.mem_cons_self
      · exact List.mem_cons_of_mem _ (List.mem_cons_of_mem _ member)

/-- The segment of a SEG entry. -/
def StackEntry.saved : StackEntry → Option Nat
  | .seg t _ => some t
  | .run .. => none

theorem StackEntry.saved_iff {l : List StackEntry} {t : Nat} :
    t ∈ l.filterMap StackEntry.saved ↔ ∃ u, StackEntry.seg t u ∈ l := by
  rw [List.mem_filterMap]
  constructor
  · rintro ⟨e, member, saved⟩
    cases e with
    | seg t' u =>
      cases saved
      exact ⟨u, member⟩
    | run => cases saved
  · rintro ⟨u, member⟩
    exact ⟨_, member, rfl⟩

/-- The first T of a RUN entry is the lowest of the run's SEG entries (R166). -/
theorem Chip.firstSaved_least (base : Nat) (q : Chip) :
    (∀ t u, StackEntry.seg t u ∈ q.ecu.stack.reverse.take q.ecu.segCount → q.firstSaved base ≤ t) ∧
      ((∃ u, StackEntry.seg (q.firstSaved base) u ∈ q.ecu.stack.reverse.take q.ecu.segCount) ∨
        ((∀ t u, StackEntry.seg t u ∉ q.ecu.stack.reverse.take q.ecu.segCount) ∧ q.firstSaved base = base)) := by
  have eq : q.firstSaved base = match (q.ecu.stack.reverse.take q.ecu.segCount).filterMap StackEntry.saved with
      | [] => base
      | t :: rest => rest.foldl min t := rfl
  rw [eq]
  have named (t : Nat) := StackEntry.saved_iff (l := q.ecu.stack.reverse.take q.ecu.segCount) (t := t)
  generalize (q.ecu.stack.reverse.take q.ecu.segCount).filterMap StackEntry.saved = ts at named
  cases ts with
  | nil =>
    have none (t : Nat) (u : Fin 256) (member : StackEntry.seg t u ∈ q.ecu.stack.reverse.take q.ecu.segCount) : False :=
      List.not_mem_nil ((named t).mpr ⟨u, member⟩)
    exact ⟨fun t u member => (none t u member).elim, .inr ⟨none, rfl⟩⟩
  | cons x l =>
    obtain ⟨least, member⟩ := foldl_min_least l x
    exact ⟨fun t u saved => least t ((named t).mpr ⟨u, saved⟩), .inl ((named _).mp member)⟩

/-- Room for the RUN entry, as `KeptForPush` has it. -/
theorem Chip.secureWords_keeps (q : Chip) : KeptForPush 4 q.ecu.stack (q.secureWords 4).ecu.stack ∧
    ∀ oldest rest, OldestRun q.ecu.stack oldest rest → stackDepth q.ecu.stack ≤ 1024 →
      1024 < stackDepth q.ecu.stack + 4 → q.RemovalMirrored (q.secureWords 4) 0 oldest.length := by
  refine ⟨⟨fun fits => by rw [Chip.secureWords_fits fits], ?_⟩, ?_⟩
  · rintro oldest rest ⟨segs, tag, first, count, m, stack⟩ depth full
    rw [Chip.secureWords_drops (Nat.le_refl 4) segs stack depth full]
    exact (Chip.dropRun_drops segs stack).2
  · rintro oldest rest ⟨segs, tag, first, count, m, stack⟩ depth full
    rw [Chip.secureWords_drops (Nat.le_refl 4) segs stack depth full]
    exact (Chip.dropRun_drops segs stack).1.removal segs

theorem Chip.RemovalMirrored.later {a b d : Chip} {place n : Nat} (h : a.RemovalMirrored b place n)
    (offers : ∀ x, b.Offers x → d.Offers x) : a.RemovalMirrored d place n := by
  obtain ⟨entries, whole⟩ := h
  exact ⟨fun k lt => offers _ (entries k lt), offers _ whole⟩

/-- The clip of the run spent or kept, no other changed (R159). -/
theorem Chip.endClip_clips {x : Punch} {clip : Option (Fin 4)} {qa qb n : Nat}
    (params : r.params = .edit x clip qa qb n) (q : Chip) :
    (q.endClip r).ecu = { q.ecu with clips := (q.endClip r).ecu.clips } ∧
      (∀ k, clip = some k → (q.endClip r).ecu.clips[k] = { q.ecu.clips[k] with
        inUse := false
        state := if (q.ecu.clips[k]).singleUse = true ∧ 0 < r.doneCount then .spent else .ready }) ∧
      ∀ k : Fin 4, clip ≠ some k → (q.endClip r).ecu.clips[k] = q.ecu.clips[k] := by
  unfold Chip.endClip
  rw [params]
  cases clip with
  | none => exact ⟨rfl, nofun, fun _ _ => rfl⟩
  | some used =>
    refine ⟨rfl, ?_, fun k other => clips_set_other _ _ fun same => other (congrArg some same.symm)⟩
    intro k same
    cases same
    exact Vector.getElem_set_self used.isLt

theorem Chip.endEcu_edit {x : Punch} {clip : Option (Fin 4)} {qa qb n : Nat} (kind : r.kind = .edit)
    (params : r.params = .edit x clip qa qb n) (cause : EndCause) (q : Chip) :
    q.EditEnds (q.endEcu r cause) r clip qa r.doneCount := by
  obtain ⟨ecu, own, others⟩ := Chip.endClip_clips params q
  have eq : q.endEcu r cause = (q.endClip r).endSaves r := by
    unfold Chip.endEcu
    rw [kind]
  have cpm : (q.endClip r).cpm = q.cpm := (Chip.endClip_work r q).cpm
  obtain ⟨kept, mirrored⟩ := Chip.secureWords_keeps (q.endClip r)
  have secured := Chip.secureWords_work 4 (q.endClip r)
  have same : (q.endClip r).ecu.stack = q.ecu.stack ∧ (q.endClip r).ecu.bottom = q.ecu.bottom ∧
      (q.endClip r).ecu.segCount = q.ecu.segCount ∧ (q.endClip r).ecu.partialMark = q.ecu.partialMark := by
    rw [ecu]
    exact ⟨rfl, rfl, rfl, rfl⟩
  obtain ⟨stack, bottom, segCount, partialMark⟩ := same
  have ends : (q.endClip r).endSaves r = { ((q.endClip r).secureWords 4).pushEntry (.run r.tag
      (((q.endClip r).secureWords 4).firstSaved (r.t0 + qa)) ((q.endClip r).secureWords 4).ecu.segCount
      ((q.endClip r).secureWords 4).ecu.partialMark) with ecu := { (((q.endClip r).secureWords 4).pushEntry
        (.run r.tag (((q.endClip r).secureWords 4).firstSaved (r.t0 + qa)) ((q.endClip r).secureWords 4).ecu.segCount
        ((q.endClip r).secureWords 4).ecu.partialMark)).ecu with
          segCount := 0, partialMark := false, stoppedMark := false } } := by
    unfold Chip.endSaves
    rw [params]
  have least := Chip.firstSaved_least (r.t0 + qa) ((q.endClip r).secureWords 4)
  rw [eq, ends]
  generalize (q.endClip r).secureWords 4 = s at kept mirrored secured least
  generalize s.firstSaved (r.t0 + qa) = first at least
  have marks : s.ecu.segCount = q.ecu.segCount ∧ s.ecu.partialMark = q.ecu.partialMark ∧
      s.ecu.clips = (q.endClip r).ecu.clips ∧ s.cpm = q.cpm := by
    rw [secured.ecu]
    exact ⟨segCount, partialMark, rfl, secured.cpm.trans cpm⟩
  obtain ⟨segCount', partialMark', clips, cpm'⟩ := marks
  obtain ⟨-, pushed, written⟩ := Chip.pushEntry_work (.run r.tag first s.ecu.segCount s.ecu.partialMark) s
  have work := (Chip.pushEntry_work (.run r.tag first s.ecu.segCount s.ecu.partialMark) s).1
  generalize s.pushEntry (.run r.tag first s.ecu.segCount s.ecu.partialMark) = t at pushed written work
  rw [pushed]
  unfold Chip.EditEnds
  dsimp only
  rw [clips]
  rw [segCount', partialMark', cpm'] at written
  rw [segCount'] at least
  refine ⟨own, others, ⟨s.ecu.stack, first, stack ▸ kept, by rw [segCount', partialMark'], written, ?_, least⟩,
    rfl, rfl, rfl⟩
  intro oldest rest isOldest depth full
  have removal := mirrored oldest rest (stack ▸ isOldest) (stack ▸ depth) (stack ▸ full)
  have from_ : q.RemovalMirrored s 0 oldest.length := by
    unfold Chip.RemovalMirrored at removal ⊢
    rw [cpm, bottom] at removal
    exact removal
  exact from_.later work.offers

end

end Sys2Proof.Machine


/-! PROOFS. A released RECORD slot claimed for its next position (R48, R114). -/

namespace Sys2Proof.Machine

-- One proof after another: the threads of many at once take more memory than the check allows.
set_option Elab.async false

section

variable {p p' b : Chip} {r : RunRecord} {i : Fin 128} {q : Nat}

/-! ## The one slot that may be claimed (R47, R48) -/

/-- The lowest of the values of a list and of a first one. -/
theorem foldl_min_bounds {α : Type} (f : α → Nat) (l : List α) (m : Nat) :
    (∀ x ∈ l, l.foldl (fun m x => min m (f x)) m ≤ f x) ∧
      ∀ low, low ≤ m → (∀ x ∈ l, low ≤ f x) → low ≤ l.foldl (fun m x => min m (f x)) m := by
  constructor
  · intro x member
    obtain ⟨before, after, rfl⟩ := List.append_of_mem member
    rw [List.foldl_append, List.foldl_cons]
    refine List.foldlRecOn (motive := fun k : Nat => k ≤ f x) after _ (Nat.min_le_right _ _) ?_
    exact fun k le y _ => (Nat.min_le_left _ _).trans le
  · intro low start all
    exact List.foldlRecOn (motive := fun k : Nat => low ≤ k) l _ start fun k le y member =>
      Nat.le_min.mpr ⟨le, all y member⟩

/-- The lower of a position to claim, if there is one, and that of slot j, if it may be claimed. -/
def Chip.lowerClaim (p : Chip) (r : RunRecord) (best : Option Nat) (j : Fin 128) : Option Nat :=
  if (p.slot j).claimed = false ∧ r.inWindow (p.slot j).nextPosition = true then
    some (best.elim (p.slot j).nextPosition (min · (p.slot j).nextPosition))
  else best

theorem Chip.nextClaim_eq (rc : p.rc = ⟨.active, some r⟩) : p.nextClaim = allSlots.foldl (p.lowerClaim r) none := by
  unfold Chip.nextClaim
  rw [rc]
  refine (if_pos rfl).trans (congrArg (fun f => allSlots.foldl f none) ?_)
  funext best j
  unfold Chip.lowerClaim
  cases best with
  | none => rfl
  | some b => rfl

/-- With every other slot claimed, the free slot is claimed for its next position. -/
theorem Chip.nextClaim_only (rc : p.rc = ⟨.active, some r⟩) (free : (p.slot i).claimed = false)
    (inside : r.inWindow (p.slot i).nextPosition = true) (others : ∀ j, j ≠ i → (p.slot j).claimed = true) :
    p.nextClaim = some (p.slot i).nextPosition := by
  have own (best : Option Nat) (either : best = none ∨ best = some (p.slot i).nextPosition) :
      p.lowerClaim r best i = some (p.slot i).nextPosition := by
    refine (if_pos ⟨free, inside⟩).trans ?_
    obtain none | some := either
    · rw [none]
      rfl
    · rw [some, Option.elim_some, Nat.min_self]
  have other (best : Option Nat) {j : Fin 128} (ne : j ≠ i) : p.lowerClaim r best j = best :=
    if_neg fun ⟨unclaimed, _⟩ => by
      rw [others j ne] at unclaimed
      cases unclaimed
  obtain ⟨before, after, all⟩ := List.append_of_mem (List.mem_finRange i)
  rw [Chip.nextClaim_eq rc, show allSlots = before ++ i :: after from all, List.foldl_append, List.foldl_cons]
  refine List.foldlRecOn (motive := fun x : Option Nat => x = some (p.slot i).nextPosition) after _
    (own _ (List.foldlRecOn (motive := fun x : Option Nat => x = none ∨ x = some (p.slot i).nextPosition) before _
      (.inl rfl) ?_)) ?_
  · intro best either j _
    by_cases same : j = i
    · rw [same]
      exact .inr (own best either)
    · rw [other best same]
      exact either
  · intro best some_ j _
    by_cases same : j = i
    · rw [same]
      exact own best (.inr some_)
    · rw [other best same]
      exact some_

/-- After a release the window starts at the lowest position not released (R47). -/
theorem Chip.release_window (i : Fin 128) (run : p.rc.run = some r) :
    (p.release i).rc = ⟨p.rc.state, some { r with
      windowBase := allSlots.foldl (fun m j => min m ((p.releaseSlot i).slot j).unreleased) r.length }⟩ := by
  unfold Chip.release Chip.moveWindow Chip.modRun
  dsimp only
  rw [(Chip.releaseSlot_vacates (.refl i p)).rc, run]
  rfl

/-- The next position of a slot just released lies in the window if the other slots are claimed for positions less than
256 below it. -/
theorem Chip.release_inWindow {base : Nat} (window : base = allSlots.foldl (fun m j =>
      min m ((p.releaseSlot i).slot j).unreleased) r.length) (within : (p.slot i).nextPosition < r.length)
    (near : ∀ j, j ≠ i → (p.slot j).claimed = true ∧ (p.slot i).nextPosition < (p.slot j).position + 256) :
    RunRecord.inWindow { r with windowBase := base } (p.slot i).nextPosition = true := by
  obtain ⟨least, greatest⟩ := foldl_min_bounds (fun j => ((p.releaseSlot i).slot j).unreleased) allSlots r.length
  have own : ((p.releaseSlot i).slot i).unreleased = (p.slot i).nextPosition := by
    rw [Chip.releaseSlot_slot]
    rfl
  have low := least i (List.mem_finRange i)
  rw [own] at low
  have high := greatest ((p.slot i).nextPosition - 255) (by omega) fun j _ => by
    by_cases same : j = i
    · rw [same, own]
      omega
    · obtain ⟨claimed, lt⟩ := near j same
      rw [Chip.releaseSlot_other same]
      unfold Slot.unreleased
      rw [if_pos claimed]
      omega
  rw [← window] at low high
  unfold RunRecord.inWindow
  rw [decide_eq_true low, decide_eq_true within, decide_eq_true (show (p.slot i).nextPosition < base + 256 by omega)]
  rfl

/-! ## The claim (R48, R56, R114) -/

/-- A RECORD slot claimed for position q: FILLING, or closed as FILL at or below the due horizon. -/
structure Chip.Reclaims (r : RunRecord) (i : Fin 128) (q : Nat) (a b : Chip) : Prop where
  rc : b.rc = a.rc
  others : ∀ j, j ≠ i → b.slot j = a.slot j
  claimed : (b.slot i).claimed = true
  segment : (b.slot i).segment = r.segmentAt q
  position : (b.slot i).position = q
  serial : (b.slot i).serial = (a.slot i).serial + 1
  ahead : r.passed q = false → (b.slot i).write = .filling ∧ (b.slot i).material = .live ∧
    (b.slot i).underrunCount = 0
  passed : r.passed q = true → (b.slot i).write = .closed ∧ (b.slot i).material = .fill ∧
    (b.slot i).underrunCount = 384 ∧ b.QueuesCode i ∧
    b.counter .underrun = min Config.counterMax (a.counter .underrun + 1)

/-- The unwritten channels of a RECORD slot without a word written. -/
theorem Chip.unwritten_record (run : p.rc.run = some r) (kind : r.kind = .record) (none : (p.slot i).written = 0) :
    p.unwritten i = 384 := by
  unfold Chip.unwritten
  have all : ∀ k ∈ List.range 384, (p.needs i (k / 2) && !((p.slot i).written.getLsbD k)) = true := fun k _ => by
    unfold Chip.needs RunRecord.needs
    rw [run]
    dsimp only
    rw [kind, none, show BitVec.getLsbD (0 : BitVec 384) k = false from BitVec.getLsbD_zero]
    rfl
  rw [List.countP_eq_length.mpr all, List.length_range]

theorem Chip.closeByDue_fills (run : p.rc.run = some r) (kind : r.kind = .record) (none : (p.slot i).written = 0)
    (claimed : (p.slot i).claimed = true) :
    (p.closeByDue i).rc = p.rc ∧ (∀ j, j ≠ i → (p.closeByDue i).slot j = p.slot j) ∧
      (p.closeByDue i).slot i = { p.slot i with
        write := .closed, underrunCount := (p.slot i).underrunCount + 384, material := .fill } ∧
      (p.closeByDue i).QueuesCode i ∧
      (p.closeByDue i).counter .underrun = min Config.counterMax (p.counter .underrun + 1) := by
  have eq : p.closeByDue i = ((p.modSlot i fun s => { s with
      write := .closed, underrunCount := s.underrunCount + 384, material := .fill }).bump .underrun 1).queueTest i := by
    have fill : (p.runKind == some RunKind.record && (p.slot i).written == 0) = true := by
      unfold Chip.runKind
      rw [run, none, Option.map_some, kind]
      simp only [beq_self_eq_true, Bool.and_self]
    unfold Chip.closeByDue
    dsimp only
    rw [fill, Chip.unwritten_record run kind none]
    rfl
  have slot := Chip.slot_modSlot_same i (fun s => { s with
    write := .closed, underrunCount := s.underrunCount + 384, material := .fill }) p
  have others (j : Fin 128) (other : j ≠ i) := Chip.slot_modSlot_other (fun s => { s with
    write := .closed, underrunCount := s.underrunCount + 384, material := .fill }) p other
  rw [eq]
  generalize changed : (p.modSlot i fun s => { s with
    write := .closed, underrunCount := s.underrunCount + 384, material := .fill }) = x at slot others
  have rc : x.rc = p.rc := by rw [← changed]; rfl
  have counter : x.counter .underrun = p.counter .underrun := by rw [← changed]; rfl
  have slots : ((x.bump .underrun 1).queueTest i).slots = x.slots := Chip.queueTest_slots i (x.bump .underrun 1)
  have freed := Chip.queueTest_frees i (.refl noSlot (x.bump .underrun 1))
  have queued := Chip.queueTest_queues (p := x.bump .underrun 1) (i := i) (r := r) (rc ▸ run)
    (show (x.slot i).claimed = true by rw [slot]; exact claimed) (show (x.slot i).write = .closed by rw [slot])
    (by unfold Chip.mayCode; rw [kind])
  refine ⟨?_, fun j other => (Chip.slot_of_slots slots j).trans (others j other),
    (Chip.slot_of_slots slots i).trans slot, queued, ?_⟩
  · rw [Chip.queueTest_eq]
    exact rc
  · have same : ((x.bump .underrun 1).queueTest i).counter .underrun = (x.bump .underrun 1).counter .underrun := by
      unfold Chip.counter
      rw [freed.sameCpm]
    rw [same, Chip.counter_bump_same, counter]

theorem Chip.claim_reclaims (run : p.rc.run = some r) (kind : r.kind = .record) (at_ : slotOf (r.segmentAt q) = i)
    (free : (p.slot i).claimed = false) : p.Reclaims r i q (p.claim q) := by
  have side : p.writeSide r q = ⟨.filling, .live, some 0⟩ := by
    unfold Chip.writeSide
    rw [kind]
  have eq : p.claim q = p.claimSlot r q i := by
    unfold Chip.claim
    rw [run]
    dsimp only
    rw [at_]
    exact if_neg (by rw [free]; decide)
  have decoding : ∃ play x, (if ((p.setSlot i (p.claimedSlot r q (p.slot i))).slot i).allIn
      then (p.setSlot i (p.claimedSlot r q (p.slot i))).queueDecode i
      else p.setSlot i (p.claimedSlot r q (p.slot i))) = x ∧
      x.slot i = { p.claimedSlot r q (p.slot i) with play := play } ∧ x.rc = p.rc ∧ x.cpm = p.cpm ∧
      ∀ j, j ≠ i → x.slot j = p.slot j := by
    split
    · refine ⟨.checking, _, rfl, ?_, rfl, rfl, fun j other => ?_⟩
      · refine (Chip.slot_setSlot_same i _ _).trans ?_
        rw [Chip.slot_setSlot_same]
      · exact (Chip.slot_setSlot_other _ _ other).trans (Chip.slot_setSlot_other _ p other)
    · exact ⟨_, _, rfl, Chip.slot_setSlot_same i _ p, rfl, rfl, fun j other => Chip.slot_setSlot_other _ p other⟩
  obtain ⟨play, x, made, slot, rc, cpm, others⟩ := decoding
  have fresh : (x.slot i).claimed = true ∧ (x.slot i).segment = r.segmentAt q ∧ (x.slot i).position = q ∧
      (x.slot i).serial = (p.slot i).serial + 1 ∧ (x.slot i).write = .filling ∧ (x.slot i).material = .live ∧
      (x.slot i).underrunCount = 0 ∧ (x.slot i).written = 0 := by
    rw [slot]
    unfold Chip.claimedSlot
    rw [side]
    exact ⟨rfl, rfl, rfl, rfl, rfl, rfl, rfl, rfl⟩
  obtain ⟨claimed, segment, position, serial, filling, live, none, unwritten⟩ := fresh
  have counter : x.counter .underrun = p.counter .underrun := by
    unfold Chip.counter
    rw [cpm]
  rw [eq]
  unfold Chip.claimSlot
  dsimp only
  rw [made]
  cases passed : r.passed q with
  | true =>
    have due : x.claimPassed r i = x.closeByDue i := by
      unfold Chip.claimPassed
      dsimp only
      rw [kind]
    obtain ⟨rc', others', slot', queued, counted⟩ := Chip.closeByDue_fills (rc ▸ run) kind unwritten claimed
    rw [if_pos rfl, due]
    refine ⟨rc'.trans rc, fun j other => (others' j other).trans (others j other), ?_, ?_, ?_, ?_, ?_, fun _ => ?_⟩
    · rw [slot']
      exact claimed
    · rw [slot']
      exact segment
    · rw [slot']
      exact position
    · rw [slot']
      exact serial
    · intro ahead
      rw [passed] at ahead
      cases ahead
    · rw [slot', none]
      exact ⟨rfl, rfl, rfl, queued, counter ▸ counted⟩
  | false =>
    rw [if_neg (by decide), Chip.beginLoadOf_rest]
    refine ⟨rc, others, claimed, segment, position, serial, fun _ => ⟨filling, live, none⟩, fun due => ?_⟩
    rw [passed] at due
    cases due

/-! ## The claim among the moves of the cursor (R89) -/

theorem progressLoop_claims {n : Nat} (run : p.rc.run = some r) (kind : r.kind ≠ .revert) (next : p.nextClaim = some q)
    (after : ∀ position row, ((p.atCursor position row).claim q).nextClaim = none ∧
      ((p.atCursor position row).claim q).rc = p.rc) (fuel : r.length - p.dlc.cursorPos < n) :
    ∃ position row position' row',
      progressLoop n p = ((p.atCursor position row).claim q).atCursor position' row' := by
  have never (x : RunRecord) (same : p.rc.run = some x) : x.kind ≠ .revert := by
    cases run.symm.trans same
    exact kind
  induction n generalizing p with
  | zero => exact absurd fuel (Nat.not_lt_zero _)
  | succ n ih =>
    unfold progressLoop
    split
    · rename_i moved
      obtain ⟨rfl, within⟩ := Chip.cursorStep_moves never moved
      have lt := within r run
      exact ih (p := p.atCursor (p.dlc.cursorPos + 1) 0) run next after
        (show r.length - (p.dlc.cursorPos + 1) < n by omega) never
    · rw [next]
      obtain ⟨noClaim, rc⟩ := after p.dlc.cursorPos p.dlc.cursorRow
      obtain ⟨position, row, moved, -⟩ := progressLoop_cursor n noClaim fun x same => never x (rc ▸ same)
      exact ⟨_, _, position, row, moved⟩

/-- A RECORD run that goes on claims the slot it has released for the slot's next position. -/
theorem Chip.finish_reclaims (rc : p.rc = ⟨.active, some r⟩) (kind : r.kind = .record)
    (incomplete : r.doneCount ≠ r.length) (noMap : p.cpm.pendingMap = none)
    (within : (p.slot i).nextPosition < r.length) (at_ : slotOf (r.segmentAt (p.slot i).nextPosition) = i)
    (near : ∀ j, j ≠ i → (p.slot j).claimed = true ∧ (p.slot i).nextPosition < (p.slot j).position + 256) :
    (p.release i).Reclaims r i (p.slot i).nextPosition (p.release i).finish := by
  have window := Chip.release_window i (congrArg Rc.run rc)
  have inside := Chip.release_inWindow (r := r) rfl within near
  have own : (p.release i).slot i = Slot.releasedWith (p.slot i).serial (p.slot i).overrun (p.slot i).nextPosition :=
    Chip.releaseSlot_slot i p
  have others (j : Fin 128) (other : j ≠ i) : (p.release i).slot j = p.slot j := Chip.releaseSlot_other other p
  have noMap' : (p.release i).cpm.pendingMap = none := by
    have freed := Chip.releaseSlot_frees i (.refl noSlot p)
    show (p.releaseSlot i).cpm.pendingMap = none
    rw [freed.sameCpm]
    exact noMap
  generalize allSlots.foldl (fun m j => min m ((p.releaseSlot i).slot j).unreleased) r.length = base at window inside
  generalize p.release i = b at window own others noMap' ⊢
  have free : (b.slot i).claimed = false := by
    rw [own]
    rfl
  have position : (b.slot i).nextPosition = (p.slot i).nextPosition := by
    rw [own]
    rfl
  rw [rc] at window
  have next : b.nextClaim = some (p.slot i).nextPosition := by
    rw [← position] at inside ⊢
    exact Chip.nextClaim_only window free inside fun j other => by
      rw [others j other]
      exact (near j other).1
  have reclaims (at' row : Nat) : (b.atCursor at' row).Reclaims r i (p.slot i).nextPosition
      ((b.atCursor at' row).claim (p.slot i).nextPosition) :=
    have made := Chip.claim_reclaims (p := b.atCursor at' row) (congrArg Rc.run window) kind at_ free
    ⟨made.rc, made.others, made.claimed, made.segment, made.position, made.serial, made.ahead, made.passed⟩
  have moved : ∃ at' row at'' row', b.progress =
      ((b.atCursor at' row).claim (p.slot i).nextPosition).atCursor at'' row' := by
    unfold Chip.progress
    rw [window]
    refine progressLoop_claims (congrArg Rc.run window) (by rw [kind]; decide) next (fun at' row => ?_)
      (show r.length - b.dlc.cursorPos < 2 * r.length + 256 by omega)
    refine ⟨Chip.nextClaim_none (congrArg Rc.run ((reclaims at' row).rc.trans window)) fun j unclaimed => ?_,
      (reclaims at' row).rc⟩
    by_cases same : j = i
    · rw [same, (reclaims at' row).claimed] at unclaimed
      cases unclaimed
    · rw [(reclaims at' row).others j same] at unclaimed
      rw [show (b.atCursor at' row).slot j = p.slot j from others j same, (near j same).1] at unclaimed
      cases unclaimed
  obtain ⟨at', row, at'', row', progress⟩ := moved
  have made := reclaims at' row
  have active : b.progress.rc = ⟨.active, some { r with windowBase := base }⟩ := by
    rw [progress]
    exact made.rc.trans window
  have open_ : RunRecord.complete { r with windowBase := base } = false := by
    unfold RunRecord.complete
    rw [kind]
    exact beq_eq_false_iff_ne.mpr incomplete
  have concludes := Chip.finish_concludes (p := b) (congrArg Rc.run active) noMap'
  have still : b.finish.rc.state = .active := by
    rw [concludes.active (by rw [active]), open_]
    rfl
  have rests := concludes.rests still
  have fetched := Chip.noteStatus_works (Chip.offerFetch_works (.refl noSlot .underrun b.progress))
  have finish : b.finish = b.progress.offerFetch.noteStatus := by
    unfold Chip.finish
    rw [Chip.checkEnd_goesOn active open_]
  have slot (j : Fin 128) : b.finish.slot j = ((b.atCursor at' row).claim (p.slot i).nextPosition).slot j := by
    rw [Chip.slot_of_slots rests.slots, progress]
    rfl
  refine ⟨rests.rc.trans (active.trans window.symm), fun j other => (slot j).trans (made.others j other),
    ?_, ?_, ?_, ?_, fun ahead => ?_, fun passed => ?_⟩
  · rw [slot]
    exact made.claimed
  · rw [slot]
    exact made.segment
  · rw [slot]
    exact made.position
  · rw [slot]
    exact made.serial
  · rw [slot]
    exact made.ahead ahead
  · obtain ⟨closed, fill, underruns, queued, counted⟩ := made.passed passed
    rw [slot]
    refine ⟨closed, fill, underruns, ?_, ?_⟩
    · rw [finish]
      refine fetched.queued i id ?_
      rw [progress]
      exact queued
    · have same : b.finish.counter .underrun = b.progress.counter .underrun := by
        unfold Chip.counter
        rw [rests.cpm]
      rw [same, progress]
      exact counted

end

end Sys2Proof.Machine


/-! PROOFS. What a GRANT acknowledges, and how a slot's last row leads to the end of the event (R58, R91, R112). -/

namespace Sys2Proof.Machine

-- One proof after another: the threads of many at once take more memory than the check allows.
set_option Elab.async false

/-! ## Credits and acknowledgements (R91) -/

section

variable {p : Chip}

/-- Credits added, up to 32 (R91). -/
def Chip.credited (n : Nat) (p : Chip) : Chip :=
  { p with dlc := { p.dlc with writeCredits := min Config.creditMax (p.dlc.writeCredits + n) } }

/-- The distance of a next-expected seq from the base of the retention queue. -/
def Dlc.advance (d : Dlc) (next : BitVec 3) : Nat := (next - d.base).toNat

theorem Chip.takeGrant_eq (next : BitVec 3) (n : Nat) (p : Chip) : p.takeGrant next n =
    if 1 ≤ p.dlc.advance next ∧ p.dlc.advance next ≤ p.dlc.retention.length then
      (p.credited n).acknowledge (p.dlc.advance next)
    else p.credited n := rfl

/-- Outside the queue a next-expected seq moves nothing but credits. -/
theorem Chip.takeGrant_stale {next : BitVec 3} {n : Nat}
    (stale : p.dlc.advance next = 0 ∨ p.dlc.retention.length < p.dlc.advance next) :
    p.takeGrant next n = p.credited n := by
  rw [Chip.takeGrant_eq]
  exact if_neg fun ⟨ahead, within⟩ => by omega

theorem Chip.takeGrant_advance {next : BitVec 3} {n : Nat} (ahead : 1 ≤ p.dlc.advance next)
    (within : p.dlc.advance next ≤ p.dlc.retention.length) :
    p.takeGrant next n = (p.credited n).acknowledge (p.dlc.advance next) := by
  rw [Chip.takeGrant_eq]
  exact if_pos ⟨ahead, within⟩

/-- The registers of the link that a GRANT leaves (R91). -/
theorem Chip.takeGrant_kept (next : BitVec 3) (n : Nat) (p : Chip) :
    let t := (p.takeGrant next n).finish
    t.dlc.writeCredits = min Config.creditMax (p.dlc.writeCredits + n) ∧ t.dlc.sendSeq = p.dlc.sendSeq ∧
      t.dlc.staging = p.dlc.staging ∧ t.dlc.outstanding = p.dlc.outstanding ∧ t.dlc.linkState = p.dlc.linkState := by
  have finished := (Chip.finish_moves (p.takeGrant next n)).rest
  intro t
  have taken : ∃ lane retention retryCount ackTimer cursorPos cursorRow omits fetch, (p.takeGrant next n).dlc =
      { (p.credited n).dlc with
        lane := lane, retention := retention, retryCount := retryCount, ackTimer := ackTimer
        cursorPos := cursorPos, cursorRow := cursorRow, omits := omits, fetch := fetch } := by
    rw [Chip.takeGrant_eq]
    split
    · exact ⟨_, _, _, _, _, _, _, _, (Chip.acknowledge_moves _ _).rest⟩
    · exact ⟨_, _, _, _, _, _, _, _, rfl⟩
  obtain ⟨_, _, _, _, _, _, _, _, taken⟩ := taken
  dsimp only [t]
  rw [finished, taken]
  exact ⟨rfl, rfl, rfl, rfl, rfl⟩

theorem Chip.takeGrant_unmoved {next : BitVec 3} {n : Nat}
    (stale : p.dlc.advance next = 0 ∨ p.dlc.retention.length < p.dlc.advance next) :
    let t := (p.takeGrant next n).finish
    t.dlc.retention = p.dlc.retention ∧ t.dlc.retryCount = p.dlc.retryCount ∧ t.dlc.ackTimer = p.dlc.ackTimer := by
  intro t
  have moves := (Chip.finish_moves (p.takeGrant next n)).rest
  dsimp only [t]
  rw [moves, Chip.takeGrant_stale stale]
  exact ⟨rfl, rfl, rfl⟩

/-- The queue, the lane and the timer after an advance (R91). -/
theorem Chip.takeGrant_acknowledges {next : BitVec 3} {n d : Nat} (advance : p.dlc.advance next = d) (ahead : 1 ≤ d)
    (within : d ≤ p.dlc.retention.length) :
    let t := (p.takeGrant next n).finish
    t.dlc.retention = p.dlc.retention.drop d ∧ t.dlc.retryCount = 0 ∧
      t.dlc.ackTimer = (if p.dlc.retention.length = d then none else some p.cpm.link.ackTimeout) ∧
      ∀ e ∈ p.dlc.retention.take d, ∀ x ∈ t.dlc.lane, x.frame.isRow e.seq = false := by
  have moves := (Chip.acknowledge_moves d (p.credited n)).trans (Chip.finish_moves _)
  intro t
  have taken : t = ((p.credited n).acknowledge d).finish := by
    dsimp only [t]
    rw [Chip.takeGrant_advance (by rw [advance]; exact ahead) (by rw [advance]; exact within), advance]
  rw [← taken] at moves
  have none_left : (p.dlc.retention.drop d).isEmpty = true ↔ p.dlc.retention.length = d := by
    rw [List.isEmpty_iff, List.drop_eq_nil_iff]
    omega
  refine ⟨?_, ?_, ?_, fun e member x there => ?_⟩
  · rw [moves.rest]
    rfl
  · rw [moves.rest]
    rfl
  · rw [moves.rest]
    show (if (p.dlc.retention.drop d).isEmpty = true then none else some p.cpm.link.ackTimeout) = _
    simp only [none_left]
  · by_contra row
    have left := moves.rows there (Bool.not_eq_false _ ▸ row)
    have dropped := List.all_eq_true.mp (List.mem_filter.mp left).2 e member
    exact row (by simpa using dropped)

/-- The rows an advance acknowledges stand in their slots, or the slots have been released (R58). -/
theorem Chip.takeGrant_hasAck {next : BitVec 3} {n d : Nat} (advance : p.dlc.advance next = d) (ahead : 1 ≤ d)
    (within : d ≤ p.dlc.retention.length) {e : Retained} (member : e ∈ p.dlc.retention.take d)
    (live : e.words.isSome = true) (row : e.row < 30) (awaits : (p.slot e.slot).Awaits e) :
    let y := (p.takeGrant next n).finish.slot e.slot
    y.rowsAcked.getLsbD e.row = true ∨ y.claimed = false ∨ e.serial < y.serial := by
  have stands := (Chip.foldl_reportAck (p := (p.credited n).freed d) row live (p.dlc.retention.take d)).2 awaits member
  refine Chip.finish_hasAck ?_
  rw [Chip.takeGrant_advance (by rw [advance]; exact ahead) (by rw [advance]; exact within), advance,
    Chip.acknowledge_eq]
  exact stands

/-! ## The last acknowledgement of a slot (R58) -/

/-- Slot i of a run DONE: its write side, the counts of the run, and nothing else but the link's. -/
structure Chip.OneDone (i : Fin 128) (r : RunRecord) (a b : Chip) : Prop where
  rc : b.rc = ⟨a.rc.state, some r.oneDone⟩
  slot : b.slot i = { a.slot i with write := .done, rowsAcked := BitVec.allOnes 30 }
  others : ∀ j, j ≠ i → b.slot j = a.slot j
  cpm : b.cpm = a.cpm
  ecu : b.ecu = a.ecu
  ce : b.ce = a.ce

theorem Chip.takeGrant_done {next : BitVec 3} {n : Nat} {e : Retained} {rest : List Retained} {r : RunRecord}
    (advance : p.dlc.advance next = 1) (queue : p.dlc.retention = e :: rest) (live : e.words.isSome = true)
    (run : p.rc.run = some r) (awaits : (p.slot e.slot).Awaits e)
    (last : (p.slot e.slot).rowsAcked ||| BitVec.ofNat 30 (2 ^ e.row) = BitVec.allOnes 30) :
    ∃ d, p.OneDone e.slot r d ∧ p.takeGrant next n = d.releaseTest e.slot := by
  have taken : p.takeGrant next n =
      ((((p.credited n).freed 1).noteAcked e).sideDone e.slot).releaseTest e.slot := by
    rw [Chip.takeGrant_advance (by rw [advance]) (by rw [advance, queue]; simp), advance, Chip.acknowledge_eq]
    show ((p.dlc.retention.take 1).foldl Chip.reportAck ((p.credited n).freed 1)) = _
    rw [queue]
    refine (if_pos live).trans ?_
    rw [Chip.rowAcked_last (p := (p.credited n).freed 1) awaits last, Chip.writeDone_eq]
  have slot : (((p.credited n).freed 1).noteAcked e).slot e.slot =
      { p.slot e.slot with rowsAcked := BitVec.allOnes 30 } := by
    unfold Chip.noteAcked
    rw [Chip.slot_modSlot_same]
    exact congrArg (fun acked => { p.slot e.slot with rowsAcked := acked }) last
  have others (j : Fin 128) (other : j ≠ e.slot) :
      (((p.credited n).freed 1).noteAcked e).slot j = p.slot j :=
    Chip.slot_modSlot_other _ ((p.credited n).freed 1) other
  refine ⟨(((p.credited n).freed 1).noteAcked e).sideDone e.slot, ⟨?_, ?_, fun j other => ?_, rfl, rfl, rfl⟩, taken⟩
  · show Rc.mk p.rc.state (p.rc.run.map RunRecord.oneDone) = _
    rw [run]
    rfl
  · rw [Chip.slot_of_slots (Chip.sideDone_slots _ _), Chip.slot_modSlot_same, slot]
  · rw [Chip.slot_of_slots (Chip.sideDone_slots _ _), Chip.slot_modSlot_other _ _ other]
    exact others j other

end

/-! ## From the last acknowledgement to the end of the event -/

section

variable {a p q c t : Chip} {r : RunRecord} {i : Fin 128}

/-- What an event may conclude on, for a run r before its cursor moves and claims. -/
structure Chip.Leads (r : RunRecord) (a c : Chip) : Prop where
  state : c.rc.state = a.rc.state
  run : ∃ base settled, c.rc.run = some { r with windowBase := base, settledCount := settled } ∧
    (a.ClaimsSettled r → settled = r.settledCount)
  cpm : Cpm.SameButCounters a.cpm c.cpm
  nextWrite : a.cpm.nextWrite ≤ c.cpm.nextWrite
  ecu : c.ecu = { a.ecu with
    saves := c.ecu.saves, saving := c.ecu.saving, loads := c.ecu.loads, images := c.ecu.images }
  room : a.ClaimsSettled r → a.RoomAfterReleases 1 → c.RoomAfterReleases 1

theorem RunRecord.eq_of_fixed {x y : RunRecord} (fixed : x.fixed = y.fixed) :
    x = { y with windowBase := x.windowBase, settledCount := x.settledCount } := by
  have same := congrArg (fun z => { z with windowBase := x.windowBase, settledCount := x.settledCount }) fixed
  exact same

/-- A release test moves the window of the run alone. -/
theorem Chip.releaseTest_run (i : Fin 128) (run : p.rc.run = some r) :
    ∃ base, (p.releaseTest i).rc = ⟨p.rc.state, some { r with windowBase := base }⟩ := by
  unfold Chip.releaseTest
  split
  · exact ⟨_, Chip.release_window i run⟩
  · refine ⟨r.windowBase, ?_⟩
    show Rc.mk p.rc.state p.rc.run = _
    rw [run]

theorem Chip.releaseTest_nextPosition (i j : Fin 128) (p : Chip) :
    ((p.releaseTest i).slot j).nextPosition = (p.slot j).nextPosition := by
  unfold Chip.releaseTest
  split
  · exact (Chip.releaseSlot_serial i j p).2
  · rfl

/-- A release test, then cursor moves and claims. -/
theorem Chip.releaseTest_leads (i : Fin 128) (run : p.rc.run = some r) : p.Leads r (p.releaseTest i).progress := by
  have toils : p.Toils noSlot (p.releaseTest i).progress :=
    Chip.progress_toils (Chip.releaseTest_frees i (.refl noSlot p)).toToils
  have ensues := Chip.progress_ensues (Chip.releaseTest_ensues i (.refl p))
  obtain ⟨base, tested⟩ := Chip.releaseTest_run i run
  have passes (settled : p.ClaimsSettled r) : (p.releaseTest i).Passes (p.releaseTest i).progress := by
    refine Chip.progress_passes fun x same => ?_
    rw [tested] at same
    cases same
    exact settled.imp_right fun none j => (Chip.releaseTest_nextPosition i j p).symm ▸ none j
  have record : ∃ r', (p.releaseTest i).progress.rc.run = some r' ∧ r'.fixed = r.fixed := by
    have fixed := ensues.run
    rw [run] at fixed
    exact Option.map_eq_some_iff.mp fixed
  obtain ⟨r', after, fixed⟩ := record
  refine ⟨ensues.state, ⟨r'.windowBase, r'.settledCount, after.trans (congrArg some (RunRecord.eq_of_fixed fixed)),
    fun settled => ?_⟩, toils.cpm, toils.nextWrite, ensues.ecu, fun settled room => (passes settled).room ?_⟩
  · obtain ⟨base', same⟩ := (passes settled).run _ (congrArg Rc.run tested)
    cases after.symm.trans same
    rfl
  · unfold Chip.releaseTest
    split
    · exact Chip.release_room i room
    · exact room

/-! ## What the end of the run leaves -/

/-- An EDIT's end, seen from a part whose stack, clips and marks are the same, and to one whose ECU is. -/
theorem Chip.EditEnds.carry {r' : RunRecord} {clip : Option (Fin 4)} {qa done : Nat} (h : p.EditEnds q r' clip qa done)
    (before : p.ecu = { a.ecu with
      saves := p.ecu.saves, saving := p.ecu.saving, loads := p.ecu.loads, images := p.ecu.images })
    (map : p.cpm.map = a.cpm.map) (after : t.ecu = q.ecu) (offers : ∀ x, q.Offers x → t.Offers x)
    (tag : r'.tag = r.tag) (start : r'.t0 = r.t0) : a.EditEnds t r clip qa done := by
  have same : p.ecu.clips = a.ecu.clips ∧ p.ecu.stack = a.ecu.stack ∧ p.ecu.segCount = a.ecu.segCount ∧
      p.ecu.partialMark = a.ecu.partialMark ∧ p.ecu.bottom = a.ecu.bottom := by
    rw [before]
    exact ⟨rfl, rfl, rfl, rfl, rfl⟩
  obtain ⟨clips, stack, segCount, partialMark, bottom⟩ := same
  unfold Chip.EditEnds Chip.RemovalMirrored at h ⊢
  rw [clips, stack, segCount, partialMark, bottom, map, tag, start, ← after] at h
  obtain ⟨own, others, ⟨kept, first, keeps, pushed, written, removal, least⟩, marks⟩ := h
  refine ⟨own, others, ⟨kept, first, keeps, pushed, offers _ written, fun oldest rest isOldest depth full => ?_, least⟩,
    marks⟩
  obtain ⟨entries, whole⟩ := removal oldest rest isOldest depth full
  exact ⟨fun k lt => offers _ (entries k lt), offers _ whole⟩

/-- RUN_END raised, where the ring has room and CPM may write (R37, R120). -/
theorem Chip.Leads.raises {cause : EndCause} {r' : RunRecord} {e : Chip} (h : a.Leads r c)
    (ended : c.RunEnded r' cause e) (rests : e.Rests t) (isReady : a.cpm.partState = .ready)
    (room : a.RoomAfterReleases 1) (settled : a.ClaimsSettled r) :
    a.Raises t (.runEnd r'.tag cause r'.kind (r'.pops cause)) := by
  have ready : c.cpm.partState = .ready := by
    rw [h.cpm]
    exact isReady
  obtain ⟨id, index, later, offered⟩ := ended.raises ready ((h.room settled room).1 0 Nat.one_pos)
  exact ⟨id, index, h.nextWrite.trans later, rests.offers _ offered⟩

end

end Sys2Proof.Machine


/-! PROOFS. GRANT_RECEIVED and MISSING_RECEIVED (O55). -/

namespace Sys2Proof.Machine

-- One proof after another: the threads of many at once take more memory than the check allows.
set_option Elab.async false

/-! ## The slot of a write side just DONE (R48, R50) -/

section

variable {a d : Chip} {r : RunRecord} {i : Fin 128}

/-- A claimed slot of an EDIT run is not released while its play side is not consumed. -/
theorem Chip.OneDone.kept (h : a.OneDone i r d) (edit : r.kind = .edit)
    (running : (a.slot i).play ≠ .empty ∨ a.rc.state ≠ .draining)
    (needed : (a.slot i).play ≠ .ready ∨ (a.slot i).consumed = false ∨ (a.slot i).pins ≠ 0) :
    d.mayRelease i = false := by
  unfold Chip.mayRelease
  rw [h.rc, h.slot]
  dsimp only [RunRecord.oneDone]
  rw [edit]
  dsimp only
  have unread : ((a.slot i).play == .ready && (a.slot i).consumed && (a.slot i).pins == 0) = false := by
    simp only [Bool.and_eq_false_iff, beq_eq_false_iff_ne]
    tauto
  have undrained : (a.rc.state == .draining && (a.slot i).play == .empty) = false := by
    simp only [Bool.and_eq_false_iff, beq_eq_false_iff_ne]
    tauto
  simp [unread, undrained]

theorem Chip.OneDone.released (h : a.OneDone i r d) (kind : r.kind = .record ∨ r.kind = .revert)
    (claimed : (a.slot i).claimed = true) : d.releaseTest i = d.release i := by
  refine if_pos ?_
  unfold Chip.mayRelease
  rw [h.rc, h.slot]
  dsimp only [RunRecord.oneDone]
  obtain record | revert := kind
  · rw [record, claimed]
    rfl
  · rw [revert, claimed]
    rfl

/-- It keeps its claim through what follows. -/
theorem Chip.OneDone.stays (h : a.OneDone i r d) (noMap : a.cpm.pendingMap = none) (edit : r.kind = .edit)
    (claimed : (a.slot i).claimed = true) (running : (a.slot i).play ≠ .empty ∨ a.rc.state ≠ .draining)
    (needed : (a.slot i).play ≠ .ready ∨ (a.slot i).consumed = false ∨ (a.slot i).pins ≠ 0) :
    (d.releaseTest i).finish.slot i = { a.slot i with write := .done, rowsAcked := BitVec.allOnes 30 } := by
  have kept : d.releaseTest i = d := if_neg (by rw [h.kept edit running needed]; decide)
  have busy : (d.slot i).Busy := by
    rw [h.slot]
    exact ⟨claimed, nofun⟩
  rw [kept, Chip.finish_busy (by rw [h.cpm]; exact noMap) busy, h.slot]

/-- A slot of a RECORD or REVERT run is released, and may be claimed again. -/
theorem Chip.OneDone.leaves (h : a.OneDone i r d) (kind : r.kind = .record ∨ r.kind = .revert)
    (claimed : (a.slot i).claimed = true) : ((d.releaseTest i).finish.slot i).claimed = false ∨
      (a.slot i).serial < ((d.releaseTest i).finish.slot i).serial := by
  obtain ⟨-, goes⟩ := (Chip.finish_serves (.refl (d.releaseTest i))).slots i
  rw [h.released kind claimed, Chip.release_slot, Chip.releaseSlot_slot, h.slot] at goes
  rw [h.released kind claimed]
  obtain anew | free | ⟨same, -⟩ := goes
  · exact .inr anew
  · exact .inl free
  · exact .inl same

/-- A slot of a RECORD run is claimed for its next position. -/
theorem Chip.OneDone.reclaims (h : a.OneDone i r d) (noMap : a.cpm.pendingMap = none) (active : a.rc.state = .active)
    (record : r.kind = .record) (incomplete : r.doneCount + 1 ≠ r.length) (claimed : (a.slot i).claimed = true)
    (within : (a.slot i).nextPosition < r.length) (at_ : slotOf (r.segmentAt (a.slot i).nextPosition) = i)
    (near : ∀ j, j ≠ i → (a.slot j).claimed = true ∧ (a.slot i).nextPosition < (a.slot j).position + 256) :
    (d.release i).Reclaims r.oneDone i (a.slot i).nextPosition (d.releaseTest i).finish ∧
      ((d.release i).slot i).serial = (a.slot i).serial ∧ (d.release i).counter .underrun = a.counter .underrun := by
  have next : (d.slot i).nextPosition = (a.slot i).nextPosition := by rw [h.slot]
  have rc : d.rc = ⟨.active, some r.oneDone⟩ := by rw [h.rc, active]
  have made := Chip.finish_reclaims (i := i) rc record incomplete (by rw [h.cpm]; exact noMap)
    (next ▸ within) (next ▸ at_) fun j other => by
      rw [h.others j other, next]
      exact near j other
  rw [next] at made
  rw [h.released (.inl record) claimed]
  refine ⟨made, ?_, ?_⟩
  · rw [Chip.release_slot, Chip.releaseSlot_slot, h.slot]
    rfl
  · have frees := Chip.release_frees i (.refl noSlot d)
    unfold Chip.counter
    rw [frees.sameCpm, h.cpm]

/-- The record of the run as the event concludes. -/
def RunRecord.concluding (r : RunRecord) (base settled : Nat) : RunRecord :=
  { r.oneDone with windowBase := base, settledCount := settled }

/-- What a DONE write side leads to: the run's record, and how the event concludes. -/
structure Chip.DoneLeads (i : Fin 128) (r : RunRecord) (base settled : Nat) (a c t : Chip) : Prop where
  rc : c.rc = ⟨a.rc.state, some (r.concluding base settled)⟩
  settles : a.ClaimsSettled r →
    settled = if r.kind = .edit ∨ r.kind = .revert then r.settledCount + 1 else r.settledCount
  cpm : Cpm.SameButCounters a.cpm c.cpm
  ecu : c.ecu = { a.ecu with
    saves := c.ecu.saves, saving := c.ecu.saving, loads := c.ecu.loads, images := c.ecu.images }
  raises : ∀ e cause, c.RunEnded (r.concluding base settled) cause e → e.Rests t → a.cpm.partState = .ready →
    a.RoomAfterReleases 1 → a.ClaimsSettled r →
      a.Raises t (.runEnd r.tag cause r.kind ((r.concluding base settled).pops cause))
  concludes : c.Concludes (r.concluding base settled) t

theorem Chip.OneDone.leads (h : a.OneDone i r d) (noMap : a.cpm.pendingMap = none) :
    ∃ base settled, a.DoneLeads i r base settled (d.releaseTest i).progress (d.releaseTest i).finish := by
  have leads := Chip.releaseTest_leads i (congrArg Rc.run h.rc)
  obtain ⟨base, settled, run, settles⟩ := leads.run
  have noMap' : (d.releaseTest i).cpm.pendingMap = none := by
    have frees := Chip.releaseTest_frees i (.refl noSlot d)
    rw [frees.sameCpm]
    exact h.cpm ▸ noMap
  have claims (unsettling : a.ClaimsSettled r) : d.ClaimsSettled r.oneDone := by
    refine unsettling.imp_right fun none j => ?_
    by_cases same : j = i
    · rw [same, h.slot]
      exact none i
    · rw [h.others j same]
      exact none j
  refine ⟨base, settled, ?_, fun unsettling => settles (claims unsettling), ?_, ?_, ?_,
    Chip.finish_concludes run noMap'⟩
  · show Rc.mk (d.releaseTest i).progress.rc.state (d.releaseTest i).progress.rc.run = _
    rw [run, leads.state, h.rc]
    rfl
  · exact h.cpm ▸ leads.cpm
  · exact h.ecu ▸ leads.ecu
  · intro e cause ended rests isReady room unsettling
    have room' : d.RoomAfterReleases 1 := by
      unfold Chip.RoomAfterReleases Chip.RingHolds
      rw [h.cpm, h.ce]
      exact room
    have raised := leads.raises ended rests (h.cpm ▸ isReady) room' (claims unsettling)
    unfold Chip.Raises at raised
    rw [h.cpm] at raised
    exact raised

/-! ## The run (R112, R151, R171) -/

section

variable {c t : Chip} {base settled : Nat}

/-- What ECU holds after an ACTIVE run has concluded. -/
theorem Chip.Concludes.ecu (h : c.Concludes r t) (active : c.rc.state = .active) : t.ecu = c.ecu ∨
    (t.rc.state = .idle ∧ t.ecu = ((c.idled r .complete).endEcu r .complete).ecu) := by
  cases h with
  | goesOn rests open_ => exact .inl rests.ecu
  | ends cause e ended rests running complete =>
    obtain ⟨-, rfl⟩ := complete active
    exact .inr ⟨by rw [rests.rc, ended.rc], rests.ecu.trans ended.ecu⟩

theorem Chip.DoneLeads.stack (h : a.DoneLeads i r base settled c t) :
    c.ecu.stack = a.ecu.stack ∧ c.ecu.clips = a.ecu.clips := by
  rw [h.ecu]
  exact ⟨rfl, rfl⟩

/-- A RECORD run's end leaves stack and clips. -/
theorem Chip.DoneLeads.record (h : a.DoneLeads i r base settled c t) (active : a.rc.state = .active)
    (kind : r.kind = .record) : t.ecu.stack = a.ecu.stack ∧ t.ecu.clips = a.ecu.clips := by
  obtain same | ⟨-, ended⟩ := h.concludes.ecu (by rw [h.rc, active])
  · rw [same]
    exact h.stack
  · have still : ((c.idled (r.concluding base settled) .complete).endEcu (r.concluding base settled) .complete) =
        c.idled (r.concluding base settled) .complete := by
      unfold Chip.endEcu
      rw [show (r.concluding base settled).kind = .record from kind]
    rw [ended, still]
    exact h.stack

/-- A RECORD run is COMPLETE when every write side is DONE (R112). -/
theorem Chip.DoneLeads.record_state (h : a.DoneLeads i r base settled c t) (active : a.rc.state = .active)
    (kind : r.kind = .record) : t.rc.state = if r.doneCount + 1 = r.length then .idle else .active := by
  rw [h.concludes.active (by rw [h.rc, active])]
  unfold RunRecord.complete RunRecord.concluding RunRecord.oneDone
  dsimp only
  rw [kind]
  simp only [beq_iff_eq]

/-- An EDIT run COMPLETE when every play side is READY and every span segment settled. -/
theorem Chip.DoneLeads.edit {x : Punch} {clip : Option (Fin 4)} {qa qb n : Nat} (h : a.DoneLeads i r base settled c t)
    (active : a.rc.state = .active) (kind : r.kind = .edit) (params : r.params = .edit x clip qa qb n) :
    t.rc.state = (if r.readyCount = r.length ∧ settled = n then .idle else .active) ∧
      (t.rc.state = .idle → a.EditEnds t r clip qa (r.doneCount + 1)) := by
  have active' : c.rc.state = .active := by rw [h.rc, active]
  constructor
  · rw [h.concludes.active active']
    unfold RunRecord.complete RunRecord.concluding RunRecord.oneDone
    dsimp only
    rw [kind, params]
    simp only [Bool.and_eq_true, beq_iff_eq]
  · intro idle
    obtain ⟨e, ended, rests⟩ := h.concludes.ended active' idle
    have ends := Chip.endEcu_edit (r := r.concluding base settled) kind params .complete
      (c.idled (r.concluding base settled) .complete)
    refine ends.carry h.ecu ?_ (rests.ecu.trans ended.ecu) (fun y offered => rests.offers y (ended.offers y offered))
      rfl rfl
    show c.cpm.map = _
    rw [h.cpm]

/-- A REVERT run COMPLETE when every SEG entry is settled; it pops the stack if all are DONE. -/
theorem Chip.DoneLeads.revert {tag place n : Nat} (h : a.DoneLeads i r base settled c t) (active : a.rc.state = .active)
    (kind : r.kind = .revert) (params : r.params = .revert tag place n) :
    t.rc.state = (if settled = n then .idle else .active) ∧
      ((t.rc.state = .active ∨ r.doneCount + 1 ≠ n) → t.ecu.stack = a.ecu.stack) ∧
      (t.rc.state = .idle → r.doneCount + 1 = n →
        ∀ (below : List StackEntry) (segs : List (Nat × Fin 256)) tag' first count partialMark,
        a.ecu.stack = below ++ segEntries segs ++ [.run tag' first count partialMark] →
        segs.length = n → t.ecu.stack = below ∧ (∀ z ∈ segs, (t.ecu.images[z.2]).used = false) ∧
          a.RemovalMirrored t (stackDepth below) n) := by
  have active' : c.rc.state = .active := by rw [h.rc, active]
  refine ⟨?_, fun kept => ?_, fun idle done below segs tag' first count mark stack length => ?_⟩
  · rw [h.concludes.active active']
    unfold RunRecord.complete RunRecord.revertCount RunRecord.concluding RunRecord.oneDone
    dsimp only
    rw [kind, params]
    simp only [beq_iff_eq]
  · obtain same | ⟨idle, ended⟩ := h.concludes.ecu active'
    · rw [same]
      exact h.stack.1
    · have short : ¬(r.concluding base settled).doneCount = n := kept.resolve_left fun on => by
        rw [idle] at on
        cases on
      rw [ended, Chip.endEcu_revert (r := r.concluding base settled) kind params, if_neg short]
      exact h.stack.1
  · obtain ⟨e, ended, rests⟩ := h.concludes.ended active' idle
    obtain ⟨left, freed, mirrored⟩ := Chip.endEcu_pops (r := r.concluding base settled) kind params done
      (q := c.idled (r.concluding base settled) .complete) (h.stack.1.trans stack) length
    have ecu := rests.ecu.trans ended.ecu
    refine ⟨ecu ▸ left, fun z member => ecu ▸ freed z member, ?_⟩
    have same : c.ecu.bottom = a.ecu.bottom ∧ c.cpm.map = a.cpm.map := by
      rw [h.ecu, h.cpm]
      exact ⟨rfl, rfl⟩
    have later := mirrored.later fun y offered => rests.offers y (ended.offers y offered)
    unfold Chip.RemovalMirrored at later ⊢
    rw [← same.1, ← same.2]
    exact later

/-- The end of an ACTIVE run: COMPLETE, every pending mode value in force, RUN_END raised (R112, R120). -/
theorem Chip.DoneLeads.ended (h : a.DoneLeads i r base settled c t) (noMap : a.cpm.pendingMap = none)
    (active : a.rc.state = .active) (idle : t.rc.state = .idle) : a.PendingApplied t ∧
      (a.cpm.partState = .ready → a.RoomAfterReleases 1 → a.ClaimsSettled r →
        a.Raises t (.runEnd r.tag .complete r.kind (r.kind == .revert && r.doneCount + 1 == r.revertCount))) := by
  obtain ⟨e, ended, rests⟩ := h.concludes.ended (by rw [h.rc, active]) idle
  refine ⟨ended.pendingApplied rests noMap h.cpm, fun isReady room unsettling => ?_⟩
  have raised := h.raises e .complete ended rests isReady room unsettling
  have pops : (r.concluding base settled).pops .complete =
      (r.kind == .revert && r.doneCount + 1 == r.revertCount) := by
    unfold RunRecord.pops
    rw [show (EndCause.complete == EndCause.complete) = true from rfl, Bool.and_true]
    rfl
  rw [pops] at raised
  exact raised

end

end

/-! ## The commands -/

theorem exec_grantReceived {s : State} {bytes : List Byte} {next : BitVec 3} {credits : BitVec 6}
    (received : receive bytes = .frame (.grant next credits)) (up : s.dlc.linkState = .up) :
    exec (.grantReceived bytes) s = .next (s.onChip fun p => (p.begin.takeGrant next credits.toNat).finish) := by
  show execGrantReceived bytes s = _
  unfold execGrantReceived
  rw [received]
  exact if_pos up

theorem RunRecord.revertCount_match (r : RunRecord) : (match r.params with
      | .revert _ _ n => r.kind == .revert && r.doneCount + 1 == n
      | _ => r.kind == .revert && r.doneCount + 1 == 0) =
    (r.kind == .revert && r.doneCount + 1 == r.revertCount) := by
  unfold RunRecord.revertCount
  cases r.params with
  | none => rfl
  | edit => rfl
  | revert => rfl

/-- Settles O55: the link by `Chip.takeGrant_kept` and `Chip.takeGrant_acknowledges`, the rows acknowledged by the fold
of their reports, the slot and the run of a last row by `Chip.DoneLeads`; MISSING by the fold of its resends. -/
theorem grantAndMissingReceived : Obligations.GrantAndMissingReceived := by
  unfold Obligations.GrantAndMissingReceived
  intro s bytes up
  refine ⟨fun next credits received => ?_, fun flags received bounded apart => ?_⟩
  · obtain ⟨kept, sendSeq, staging, outstanding, link⟩ := Chip.takeGrant_kept next credits.toNat s.toChip.begin
    intro base d
    have advance : s.toChip.begin.dlc.advance next = d := rfl
    refine ⟨_, exec_grantReceived received up, kept, sendSeq, staging, outstanding, link.trans up, fun stale =>
      Chip.takeGrant_unmoved (p := s.toChip.begin) stale, fun ahead within => ?_, ?_⟩
    · obtain ⟨retention, retryCount, ackTimer, lane⟩ := Chip.takeGrant_acknowledges
        (n := credits.toNat) advance ahead within
      refine ⟨retention, retryCount, ackTimer, lane, fun e member live row held serial sending => ?_⟩
      exact Chip.takeGrant_hasAck (p := s.toChip.begin) advance ahead within member live row ⟨held, serial, sending⟩
    · intro e rest r one queue live run noMap x held serial sending last y q
      obtain ⟨d', done, taken⟩ := Chip.takeGrant_done (n := credits.toNat) (p := s.toChip.begin) (advance.trans one)
        queue live run ⟨held, serial, sending⟩ last
      have claimed : x.claimed = true := (Bool.and_eq_true_iff.mp held).1
      obtain ⟨base', settled, leads⟩ := done.leads noMap
      rw [← taken] at leads
      obtain ⟨r', after, doneCount, settledCount, cause⟩ := leads.concludes.record (congrArg Rc.run leads.rc)
      refine ⟨r', after, doneCount, fun unsettling => settledCount.trans (leads.settles unsettling),
        ?_, ?_, ?_, ?_, ?_, ?_, ?_, ?_⟩
      · intro edit running needed
        have stays := done.stays noMap edit claimed running needed
        rw [← taken] at stays
        exact stays
      · intro kind
        have leaves := done.leaves kind claimed
        rw [← taken] at leaves
        exact leaves
      · intro record active forward within at_ incomplete near
        have place : r.segmentAt q = r.t0 + q := by
          unfold RunRecord.segmentAt
          rw [if_neg (by rw [forward]; decide)]
        obtain ⟨made, serial', counter⟩ := done.reclaims noMap active record incomplete claimed within
          (show slotOf (r.segmentAt q) = e.slot from place ▸ at_) near
        rw [← taken] at made
        refine ⟨made.claimed, made.segment.trans place, made.position, made.serial.trans (congrArg (· + 1) serial'),
          fun ahead => made.ahead ?_, fun h due below => ?_⟩
        · unfold RunRecord.passed RunRecord.oneDone
          dsimp only
          obtain none | ⟨h, due, above⟩ := ahead
          · rw [none]
          · rw [due]
            exact decide_eq_false (Nat.not_le.mpr above)
        · have passed : r.oneDone.passed q = true := by
            unfold RunRecord.passed RunRecord.oneDone
            dsimp only
            rw [due]
            exact decide_eq_true below
          obtain ⟨closed, fill, underruns, queued, counted⟩ := made.passed passed
          rw [counter] at counted
          exact ⟨closed, fill, underruns, counted, queued⟩
      · exact fun idle => leads.concludes.idle (by rw [leads.rc]; exact idle)
      · intro active kind
        exact leads.record_state active kind
      · intro p clip qa qb n active kind params
        rw [show r'.settledCount = settled from settledCount]
        exact leads.edit active kind params
      · intro tag place n active kind params
        rw [show r'.settledCount = settled from settledCount]
        exact leads.revert active kind params
      · intro active idle
        obtain ⟨applied, raises⟩ := leads.ended noMap active idle
        refine ⟨cause idle (by rw [leads.rc]; exact active), applied, fun kind => leads.record active kind, ?_⟩
        intro isReady room unsettling
        have raised := raises isReady room unsettling
        rw [← RunRecord.revertCount_match] at raised
        exact raised
  · have resent := Chip.takeMissing_resends flags (p := s.toChip.begin) bounded apart
    have noted := Chip.noteStatus_reports (s.toChip.begin.takeMissing flags)
    obtain ⟨counted, others⟩ := resent.counted.reports noted
    refine ⟨_, exec_missingReceived received up, ?_, ?_, ⟨counted, others⟩, ?_, ?_, ?_⟩
    · exact (congrArg (fun d => d.lane.map LaneEntry.frame) noted.dlc).trans resent.lane
    · have dlc := congrArg Chip.dlc resent.rest
      rw [← noted.dlc] at dlc
      exact dlc
    · exact noted.cpm.sameButCounters (congrArg Chip.cpm resent.rest)
    · refine noted.lbp.trans ?_
      rw [resent.rest]
      rfl
    · refine ⟨noted.slots.trans ?_, noted.ce.trans ?_, noted.cu.trans ?_, noted.rc.trans ?_, noted.ecu.trans ?_⟩
      · rw [resent.rest]; rfl
      · rw [resent.rest]; rfl
      · rw [resent.rest]; rfl
      · rw [resent.rest]; rfl
      · rw [resent.rest]; rfl

end Sys2Proof.Machine
